-- ==== Sys2Proof/Word.lean ====
section
/-! DEFINITION. The word types of the device (02_number_formats, 17_host_link). -/

namespace Sys2Proof

/-- One byte, the smallest addressable unit of the device address space (R7, R536). -/
abbrev Byte := BitVec 8

/-- A byte with its poison mark: its parity bit inverted (R613). -/
abbrev MByte := BitVec 8 × Bool

/-- One vector lane, accumulator word or 32-bit register (R161, R73). -/
abbrev W32 := BitVec 32

/-- One scalar register or 64-bit register (R230). -/
abbrev W64 := BitVec 64

/-- A command descriptor, 64 bytes (R555); byte i stands at bits 8i+7 to 8i (R7). -/
abbrev Desc := BitVec 512

/-- One bundle, 256 bits (R234). -/
abbrev BundleW := BitVec 256

end Sys2Proof
end

