-- ==== Sys2Proof/Syntax.lean ====
section
/-! DEFINITION. The commands the block takes: one constructor per row of the table of operations and events. -/

namespace Sys2Proof

/-- A vector source operand: slot, LANE_STRIDE, LANE_SEL (R179, R244). -/
structure VSrc where
  slot : Nat
  ls : Bool
  sel : Nat
  deriving DecidableEq, Repr

/-- The fields of a vector instruction (R244). -/
structure VFields where
  vd : Nat
  mask : Nat
  zero : Bool
  va : VSrc
  vb : VSrc
  vc : VSrc
  deriving DecidableEq, Repr


/-- A parity error that the environment brings to a core's storage (R98, R193, R279). -/
inductive Hit where
  /-- The bundle that the core fetches. -/
  | bundle
  /-- The unit in the forward Dasher, or its sideband. -/
  | fwd (core : Nat)
  /-- The unit in the return Dasher. -/
  | ret (core : Nat)
  /-- A landed unit of the injection queue. -/
  | inj (core unit : Nat)
  /-- The active weight buffer of an array. -/
  | wbuf (core a : Nat)
  /-- An accumulator row of an array. -/
  | acc (core a row : Nat)
  /-- A Pail slot. -/
  | slot (core v : Nat)
  /-- A mask register. -/
  | mask (core m : Nat)
  deriving DecidableEq, Repr

/-- What a router does to a packet (R464): bytes that it passes on poisoned, the router, or the whole packet discarded there. -/
structure Way where
  bad : List Nat
  router : Nat
  lost : Bool
  deriving DecidableEq, Repr

/-- What a memory read meets: bits that it finds flipped, and the way of its response. -/
structure ReadWay extends Way where
  upset : List (Nat × Nat)
  deriving DecidableEq, Repr

/-- An acknowledgement or a packet of one flit by its number, and the router that discards it, if one does (R464). -/
structure Arrival where
  id : Nat
  lostAt : Option Nat
  deriving DecidableEq, Repr

/-- Bytes of a host write, none for one that is not enabled; the transaction carries POISON (R528, R616). -/
structure HostData where
  bytes : List (Option Byte)
  poison : Bool
  deriving DecidableEq, Repr

/-- A value written to a register; W1C bits that the device sets in the same configuration-bus cycle (R12). -/
structure RegValue where
  value : Nat
  raced : Nat
  deriving DecidableEq, Repr

/-- Bytes fed to a check-value unit; the write carries POISON (R420, R423). -/
structure Fed where
  value : Nat
  poison : Bool
  deriving DecidableEq, Repr

/-- The ring whose head is a Press job; blocks that the job begins at which an engine will meet a parity error (R449). -/
structure PressHead where
  ring : Nat
  par : List Nat
  deriving DecidableEq, Repr

/-- How far an ingest job that ends before its input does has read: packets, and bytes fetched (R387). -/
structure Cut where
  seen : Nat
  fetched : Nat
  deriving DecidableEq, Repr

/-- What arrives on a Griby port: the port; the number of the slot that carries its last bit, as the far end counts every slot it sends,
modulo 256; and whether the slot is part of a replay (R473, R474). -/
structure Rx where
  port : Nat
  seq : Nat
  again : Bool
  deriving DecidableEq, Repr

/-- A command of the block. What the environment decides (a physical outcome, a time) is an operand. -/
inductive Instr where
  /- host commands delivered from a ring (18) -/
  | bindProgram (r : Nat)
  | rePlacement (r : Nat)
  | placementAtBoundary
  | run (r : Nat)
  | runCompletion
  | ladleCopy (r : Nat)
  | ingestJob (r : Nat)
  | stirrerEpoch (r : Nat)
  | pressJob (x : PressHead)
  | pressGroupTableLoad (r : Nat)
  | shardGroupTableLoad (r : Nat)
  | semaphoreWait (r : Nat)
  | semaphoreAdd (r : Nat)
  | semaphoreSubtract (r : Nat)
  | contextSwitch (r : Nat)
  | contextStart
  | calRead (r : Nat)
  | calWrite (r : Nat)
  | loopback (r : Nat)
  | loopbackByteTimeout (byte : Nat)
  | gaugeSample (r : Nat)
  | fence (r : Nat)
  | fenceRelease (r : Nat)
  /- rings (17) -/
  | doorbell (r value : Nat) (host : List Host.Cell)
  | descriptorRead (r : Nat) (err : Bool)
  | commandRingEnable (r value : Nat)
  | commandRingDisable (r value : Nat)
  | eventRingEnable (e value : Nat)
  | eventRingHeadWrite (e value : Nat)
  | armed (e value : Nat)
  /- reset, start-up, clocks (19, 16) -/
  | deviceReset
  | deviceResetRequest (value : Nat)
  | startUp (modules : Nat) (slow : Bool) (range : Nat) (drifts temps : List Nat) (cross : List (Nat × Nat)) (fails : List (Nat × Nat)) (strap : Nat)
  | serviceRequest (value : Nat)
  | referenceSwitch (value : Nat)
  | referenceSwitchComplete
  | referenceLoss
  | cfgBusChange (value : Nat)
  | synchronisedChangeRequest (value : Nat)
  | standbyPllLock (r : Nat)
  | lockCheck
  | changeHold
  | clockSwitch
  | stoppedChangeRequest (value : Nat)
  | stoppedChangeRestart
  | clkEnCrm (value : Nat)
  | clkEnGrb (value : Nat)
  | clkEnMisc (value : Nat)
  | bulkTankReady (fitted : List Nat)
  | holdCounterClear (value : Nat)
  /- memory maintenance (12) -/
  | quiesce (k value : Nat)
  | stackQuiesced (k : Nat)
  | sppr (value : Nat)
  | hppr (value : Nat)
  | spares (value : Nat)
  | ieee1500 (value : Nat)
  | maintenanceOperationEnd (iface : Bool) (words : List (Nat × Nat)) (out : W64)
  | checkValueBlockStart (n value : Nat)
  /- host-side operations: feeds, ports, requests, registers, host accesses (13, 15, 17, 20 to 22) -/
  | feedb (n : Nat) (x : Fed)
  | feedh (n : Nat) (x : Fed)
  | feedw (n : Nat) (x : Fed)
  | portUpRequest (n value : Nat)
  | portDownRequest (n value : Nat)
  | linkUp (n rtt : Nat)
  | linkFailure (n cause : Nat)
  | reflect (value : Nat)
  | attestationRequest (value : Nat)
  | attestationDone (err : Bool)
  | bootCheckRequest (value : Nat)
  | bootCheckEnd (err : Bool)
  | registerWrite (off w : Nat) (x : RegValue)
  | memoryRead (a n : Nat) (way : ReadWay)
  | memoryWrite (a : Nat) (data : HostData) (way : Way)
  | writeAcknowledgement (x : Arrival)
  | flitReplay (passes : Bool)
  | privateWrite (addr : Nat) (data : List Byte)
  | privateRead (addr n : Nat)
  /- I3C, IEEE 1149.1, the throttle pin (21, 23) -/
  | setdasa (static dyn : Nat)
  | entdaa (dyn : Nat)
  | jtagBypass (data : List Bool)
  | jtagIdcode
  | samplePreload (pins data : List Bool)
  | jtagExtest (pins data : List Bool)
  | jtagClamp (data : List Bool)
  | jtagHighz (data : List Bool)
  | throttleRaise
  | throttleClear
  /- core program (08): n is the schedule count at which the bundle issues, last marks its last slot -/
  | nop (n : Nat) (last : Bool) (hits : List Hit)
  | mop (n : Nat) (last : Bool) (mode arrays : Nat) (acc : Bool) (rows as bs ut stride su : Nat)
  | mopQueueStart (n : Nat)
  | fadd (n : Nat) (last : Bool) (v : VFields)
  | fsub (n : Nat) (last : Bool) (v : VFields)
  | fmul (n : Nat) (last : Bool) (v : VFields)
  | fma (n : Nat) (last : Bool) (v : VFields)
  | fmin (n : Nat) (last : Bool) (v : VFields)
  | fmax (n : Nat) (last : Bool) (v : VFields)
  | fabs (n : Nat) (last : Bool) (v : VFields)
  | fneg (n : Nat) (last : Bool) (v : VFields)
  | fcmpeq (n : Nat) (last : Bool) (v : VFields)
  | fcmpne (n : Nat) (last : Bool) (v : VFields)
  | fcmplt (n : Nat) (last : Bool) (v : VFields)
  | fcmple (n : Nat) (last : Bool) (v : VFields)
  | sel (n : Nat) (last : Bool) (v : VFields)
  | fdiv (n : Nat) (last : Bool) (v : VFields)
  | fsqrt (n : Nat) (last : Bool) (v : VFields)
  | exp2 (n : Nat) (last : Bool) (v : VFields)
  | exp (n : Nat) (last : Bool) (v : VFields)
  | log2 (n : Nat) (last : Bool) (v : VFields)
  | ln (n : Nat) (last : Bool) (v : VFields)
  | rsqrt (n : Nat) (last : Bool) (v : VFields)
  | sinpi (n : Nat) (last : Bool) (v : VFields)
  | cospi (n : Nat) (last : Bool) (v : VFields)
  | tanh (n : Nat) (last : Bool) (v : VFields)
  | sigm (n : Nat) (last : Bool) (v : VFields)
  | erf (n : Nat) (last : Bool) (v : VFields)
  | f2i (n : Nat) (last : Bool) (v : VFields)
  | f2iz (n : Nat) (last : Bool) (v : VFields)
  | i2f (n : Nat) (last : Bool) (v : VFields)
  | frnd (n : Nat) (last : Bool) (v : VFields)
  | iadd (n : Nat) (last : Bool) (v : VFields)
  | isub (n : Nat) (last : Bool) (v : VFields)
  | imul (n : Nat) (last : Bool) (v : VFields)
  | imin (n : Nat) (last : Bool) (v : VFields)
  | imax (n : Nat) (last : Bool) (v : VFields)
  | iabs (n : Nat) (last : Bool) (v : VFields)
  | icmpeq (n : Nat) (last : Bool) (v : VFields)
  | icmpne (n : Nat) (last : Bool) (v : VFields)
  | icmplt (n : Nat) (last : Bool) (v : VFields)
  | icmple (n : Nat) (last : Bool) (v : VFields)
  | vand (n : Nat) (last : Bool) (v : VFields)
  | vor (n : Nat) (last : Bool) (v : VFields)
  | vxor (n : Nat) (last : Bool) (v : VFields)
  | vnot (n : Nat) (last : Bool) (v : VFields)
  | vshl (n : Nat) (last : Bool) (v : VFields)
  | vshr (n : Nat) (last : Bool) (v : VFields)
  | vsar (n : Nat) (last : Bool) (v : VFields)
  | rol (n : Nat) (last : Bool) (v : VFields)
  | madd (n : Nat) (last : Bool) (v : VFields)
  | mullo (n : Nat) (last : Bool) (v : VFields)
  | mulhi (n : Nat) (last : Bool) (v : VFields)
  | ucmplt (n : Nat) (last : Bool) (v : VFields)
  | ucmple (n : Nat) (last : Bool) (v : VFields)
  | laneidx (n : Nat) (last : Bool) (v : VFields)
  | perm (n : Nat) (last : Bool) (v : VFields)
  | genrd (n : Nat) (last : Bool) (v : VFields)
  | rfsum (n : Nat) (last : Bool) (v : VFields)
  | risum (n : Nat) (last : Bool) (v : VFields)
  | rfmax (n : Nat) (last : Bool) (v : VFields)
  | rfmin (n : Nat) (last : Bool) (v : VFields)
  | rimax (n : Nat) (last : Bool) (v : VFields)
  | rimin (n : Nat) (last : Bool) (v : VFields)
  | ridxmax (n : Nat) (last : Bool) (v : VFields)
  | mand (n : Nat) (last : Bool) (md ma mb : Nat)
  | mor (n : Nat) (last : Bool) (md ma mb : Nat)
  | mxor (n : Nat) (last : Bool) (md ma mb : Nat)
  | mandn (n : Nat) (last : Bool) (md ma mb : Nat)
  | mrange (n : Nat) (last : Bool) (md sa : Nat)
  | setvl (n : Nat) (last : Bool) (sa : Nat)
  | add (n : Nat) (last : Bool) (sd sa sb : Nat)
  | sub (n : Nat) (last : Bool) (sd sa sb : Nat)
  | mul (n : Nat) (last : Bool) (sd sa sb : Nat)
  | and (n : Nat) (last : Bool) (sd sa sb : Nat)
  | or (n : Nat) (last : Bool) (sd sa sb : Nat)
  | xor (n : Nat) (last : Bool) (sd sa sb : Nat)
  | shl (n : Nat) (last : Bool) (sd sa sb : Nat)
  | shr (n : Nat) (last : Bool) (sd sa sb : Nat)
  | sar (n : Nat) (last : Bool) (sd sa sb : Nat)
  | min (n : Nat) (last : Bool) (sd sa sb : Nat)
  | max (n : Nat) (last : Bool) (sd sa sb : Nat)
  | slt (n : Nat) (last : Bool) (sd sa sb : Nat)
  | sltu (n : Nat) (last : Bool) (sd sa sb : Nat)
  | seq (n : Nat) (last : Bool) (sd sa sb : Nat)
  | li (n : Nat) (last : Bool) (sd : Nat) (imm : W32)
  | addi (n : Nat) (last : Bool) (sd sa : Nat) (imm : W32)
  | andi (n : Nat) (last : Bool) (sd sa : Nat) (imm : W32)
  | ori (n : Nat) (last : Bool) (sd sa : Nat) (imm : W32)
  | xori (n : Nat) (last : Bool) (sd sa : Nat) (imm : W32)
  | shli (n : Nat) (last : Bool) (sd sa : Nat) (imm : W32)
  | shri (n : Nat) (last : Bool) (sd sa : Nat) (imm : W32)
  | sari (n : Nat) (last : Bool) (sd sa : Nat) (imm : W32)
  | lui (n : Nat) (last : Bool) (sd sa : Nat) (imm : W32)
  | ld (n : Nat) (last : Bool) (size sd sa : Nat) (imm : W32)
  | lds (n : Nat) (last : Bool) (size sd sa : Nat) (imm : W32)
  | st (n : Nat) (last : Bool) (size sd sa : Nat) (imm : W32)
  | rdsr (n : Nat) (last : Bool) (sd num : Nat)
  | idle (n : Nat) (last : Bool) (count : Nat)
  | idleEnd (n : Nat)
  | br (n : Nat) (last : Bool) (target : Nat)
  | beq (n : Nat) (last : Bool) (sa sb target : Nat)
  | bne (n : Nat) (last : Bool) (sa sb target : Nat)
  | blt (n : Nat) (last : Bool) (sa sb target : Nat)
  | bge (n : Nat) (last : Bool) (sa sb target : Nat)
  | loop (n : Nat) (last : Bool) (sa target : Nat)
  | loopCountExpiry (n : Nat)
  | endProg (n : Nat) (last : Bool)
  | fill (n : Nat) (last : Bool) (slot : Nat) (laneBase c128 : Bool) (fmt sa : Nat)
  | store (n : Nat) (last : Bool) (tmpl sa src sb : Nat) (loc : Bool) (sem : Nat) (sig : Bool)
  | storeSignal (core id : Nat)
  | movsv (n : Nat) (last : Bool) (slot lane sa : Nat)
  | movvs (n : Nat) (last : Bool) (slot lane sd : Nat)
  | setas (n : Nat) (last : Bool) (as sa sb sc fmt : Nat)
  | mpop (n : Nat) (last : Bool) (mask sd : Nat)
  | semwait (n : Nat) (last glob : Bool) (idx sa : Nat) (imm : BitVec 16)
  | semWaitMet (core : Nat)
  | semadd (n : Nat) (last glob : Bool) (idx sa : Nat) (imm : BitVec 16)
  | semsub (n : Nat) (last glob : Bool) (idx sa : Nat) (imm : BitVec 16)
  | rsemadd (n : Nat) (last glob : Bool) (idx sa sb : Nat)
  | rsemsub (n : Nat) (last glob : Bool) (idx sa sb : Nat)
  | semrd (n : Nat) (last glob : Bool) (idx sd : Nat)
  | stepChurn (n : Nat) (last retStart : Bool) (rt late : Nat) (hits : List Hit)
  | ldi (n : Nat) (last : Bool) (q sa : Nat) (hits : List Hit)
  /- events in the cores and their Ladles (03, 04, 07, 10) -/
  | injectedUnitLanded (core unit : Nat) (forNext : Bool) (way : Way)
  | deliverySignal (core id : Nat)
  | ladleTransferStart (core q : Nat)
  | ladleSignal (core q id : Nat)
  | globalSemaphoreUpdate (core idx : Nat)
  | triggerFire
  | remoteOperationTimeout (id : Nat)
  | deadlockDetectorFire
  /- hold and stretch (09, 16) -/
  | holdStop (core : Nat)
  | holdRelease
  | holdResume (core : Nat)
  | stretch (r : Nat) (duty : Bool)
  /- mesh, memory, telemetry (15, 12, 19, 21) -/
  | readRequest (core q id : Nat) (upset : List (Nat × Nat)) (hdr : Option Nat)
  | readResponse (id : Nat) (bad : List Nat) (router : Nat) (hdr : Bool)
  | writePacket (id : Nat) (bad : List Nat) (router : Nat) (hdr : Bool)
  | refresh (unit channel bank : Nat) (queued : Bool)
  | temperatureRead (k temp : Nat)
  | scrub (w : Nat) (upset : List (Nat × Nat))
  | hourlyGaugeSample (drifts temps : List Nat)
  | railTelemetryUpdate (rails : List (Nat × Nat × Nat))
  /- Griby messages and Press laps (15, 14) -/
  | writeMsg (x : Rx) (body : List Byte)
  | semMsg (x : Rx) (hops dst src incarn tag arg : Nat)
  | ackMsg (x : Rx) (hops dst src incarn tag arg : Nat)
  | scaleLapMessage (x : Rx) (block : Nat) (body : List Byte) (par : Bool)
  | sumLapRecord (x : Rx) (block : Nat) (body : List Byte) (par : Bool)
  | resultLapRecord (x : Rx) (block : Nat) (body : List Byte) (par : Bool)
  | grantMsg (x : Rx) (hops dst src incarn tag addr arg : Nat)
  | abortMsg (x : Rx) (hops dst src incarn tag addr arg : Nat)
  | returnMsg (x : Rx) (hops dst src incarn tag addr arg : Nat) (body : List Byte)
  | skimMsg (x : Rx) (hops dst src incarn tag addr arg : Nat) (body : List Byte)
  | pressResend (cmd : Nat)
  | pressTimeout (cmd : Nat)
  | pressJobComplete (cmd : Nat)
  /- the control lane (15) -/
  | creditItem (x : Rx) (whey : Bool) (count : Nat)
  | laneAck (x : Rx) (seq : Nat)
  | nakItem (x : Rx) (seq : Nat)
  | headerItem (x : Rx) (kind hops dst src incarn len tag addr arg : Nat)
  | identityItem (x : Rx) (self incarn port : Nat)
  | uncorrectableCodeword (x : Rx)
  /- Creamery, Stirrer, remote semaphores, calibration (13, 10, 18) -/
  | ingestJobAssign (par : Option Nat) (cut : Cut)
  | clipSignal (e : Nat)
  | ingestJobComplete (e : Nat)
  | stirrerCredit (par : Bool)
  | stirrerBatchFull (b : Nat)
  | remoteSemaphorePacket (x : Arrival)
  | semaphoreAcknowledgement (x : Arrival)
  | calibrationTestOperationEnd (bad : Option Nat) (back : List Byte) (lane : Nat) (drifts temps : List Nat)
  deriving DecidableEq, Repr

end Sys2Proof
end

