-- ==== Sys2Proof/Config.lean ====
section
/-! DEFINITION. What the spec leaves open: free values and uninterpreted functions. Nothing here has a
value a proof could see, except the counts the part's design fixes (R3, R17, R308). -/

namespace Sys2Proof.Config

/-- Free bits: the k-th use of an open value, at a site. Log 1 (R2, R74, R208, R237). -/
opaque freeBits : (k site : Nat) → BitVec 64

/-- Free bytes of a longer open value, at a site and an index (R208, R383). Log 1. -/
opaque freeByte : (k site i : Nat) → BitVec 8

/-- Which of the results that the bound of R188 admits the function of R191 returns. Log 14. -/
opaque transPick : (op x : Nat) → Nat

/-- Which of the states that the lanes before it have left a lane's generator starts in (R197): seed, lane of the device. Log 7. -/
opaque genSeed : (seed : BitVec 64) → (lane : Nat) → Nat

/-- The generator's next state (R196). Log 7. -/
opaque genNext : BitVec 128 → BitVec 128

/-- The generator's output, a nonlinear function of its state (R194). Log 7. -/
opaque genOut : BitVec 128 → BitVec 32

/-- Responses and acknowledgements that a port of the mesh holds room for, beside one (R455). Log 75. -/
opaque portRoom : (port : Nat) → Nat

/-- The identity-key signature of a digest, 384 bytes (R632, R629). Log 15. -/
opaque identitySign : (digest : List (BitVec 8)) → Nat → BitVec 8

/-- The digest of the fuse image, whose layout is not architectural (R633). Log 15. -/
opaque fuseDigest : Nat → BitVec 8

/-- A unit of an elementary stream as R392 frames it: its bytes, the PTS of the PES packet in which it is the first to begin, whether a
bitstream error lies in it. -/
structure Unit where
  data : List (BitVec 8)
  pts : Option Nat := none
  damaged : Bool := false
  deriving DecidableEq, Repr

/-- Profiles that R393 names. -/
inductive Profile where
  | main
  | main10
  | high
  | p0
  | p2
  | other
  deriving DecidableEq, Repr

/-- What a sequence header says (R393, R398, R400): level as 10 times its number, for MPEG-2 1 Low, 2 Main, 3 High 1440, 4 High; chroma 0
monochrome, 1 4:2:0; the coded size, and the display picture in it by the codec's cropping. -/
structure Header where
  profile : Profile
  level : Nat
  highTier : Bool
  depth : Nat
  chroma : Nat
  codedW : Nat
  codedH : Nat
  dispX : Nat
  dispY : Nat
  dispW : Nat
  dispH : Nat
  frameMbsOnly : Bool
  fieldSeq : Bool
  deriving DecidableEq, Repr

/-- A coded picture as the cited standard decodes it: its number in decoding order, its place in display order, random access point, shown or
hidden, the pictures it is predicted from, a bitstream error in it (R394, R397); how the stream marks it (R398, R399); samples row by row at
the coded size, chroma planes of half size. -/
structure Picture where
  num : Nat
  order : Nat
  rap : Bool
  hidden : Bool
  refs : List Nat
  damaged : Bool
  progressiveFrame : Bool
  fieldPicture : Bool
  bottom : Bool
  topFieldFirst : Bool
  bottomOrder : Bool
  pts : Option Nat
  luma : List Nat
  cb : List Nat
  cr : List Nat
  deriving DecidableEq, Repr

/-- What the decoder meets, in decoding order: a sequence header, a coded picture, an existing picture shown again (R393, R394). -/
inductive Coded where
  | header (h : Header)
  | picture (p : Picture)
  | again (num order : Nat) (pts : Option Nat)
  deriving DecidableEq, Repr

/-- Decoding of a codec's units: ISO/IEC 13818-2, H.264, H.265, AV1, VP9 (R393). Log 26. -/
opaque decodeUnits : (codec : Nat) → (units : List Unit) → List Coded

/-- Physical cores (R452). -/
def nPhys : Nat := 160

/-- Device-global semaphores (R308). -/
def nGlobalSems : Nat := 1024

end Sys2Proof.Config
end

