-- ==== Sys2Proof/Machine/Fp.lean ====
section
/-! DEFINITION. Numbers and formats (02_number_formats): exact dyadic values, the one rounding, and every
conversion. R29: no value is flushed; R53: one arithmetic for every unit. -/

namespace Sys2Proof.Machine

/-- A value: NaN, an infinity, or a signed dyadic (-1)^neg × man × 2^exp. A zero keeps its sign. -/
inductive Num where
  | nan
  | inf (neg : Bool)
  | fin (neg : Bool) (man : Nat) (exp : Int)
  deriving DecidableEq, Repr

/-- How a format ends at the top of its exponent range (R27, R28). -/
inductive TopKind where
  /-- Infinities and NaNs at the all-ones exponent. -/
  | ieee
  /-- Only the all-ones code is a NaN (E4M3). -/
  | oneNan
  /-- Every code is finite (FP6, FP4). -/
  | finite
  deriving DecidableEq, Repr

/-- A floating-point format (R27). -/
structure FloatFmt where
  eBits : Nat
  mBits : Nat
  bias : Nat
  top : TopKind
  deriving DecidableEq, Repr

/-- FP32 (R27). -/
def fmtFP32 : FloatFmt := ⟨8, 23, 127, .ieee⟩
/-- BF16 (R27). -/
def fmtBF16 : FloatFmt := ⟨8, 7, 127, .ieee⟩
/-- FP16 (R27). -/
def fmtFP16 : FloatFmt := ⟨5, 10, 15, .ieee⟩
/-- FP8 E4M3 (R27). -/
def fmtE4M3 : FloatFmt := ⟨4, 3, 7, .oneNan⟩
/-- FP8 E5M2 (R27). -/
def fmtE5M2 : FloatFmt := ⟨5, 2, 15, .ieee⟩
/-- FP6 E3M2 (R27). -/
def fmtE3M2 : FloatFmt := ⟨3, 2, 3, .finite⟩
/-- FP6 E2M3 (R27). -/
def fmtE2M3 : FloatFmt := ⟨2, 3, 1, .finite⟩
/-- FP4 E2M1 (R27). -/
def fmtE2M1 : FloatFmt := ⟨2, 1, 1, .finite⟩

/-- The float format of an element code (R25); none for the other codes. -/
def floatFmt : Nat → Option FloatFmt
  | 0 => some fmtFP32 | 1 => some fmtBF16 | 2 => some fmtFP16 | 3 => some fmtE4M3
  | 4 => some fmtE5M2 | 5 => some fmtE3M2 | 6 => some fmtE2M3 | 7 => some fmtE2M1
  | _ => none

/-- Bits per element of an element code (R25). -/
def elemBits : Nat → Nat
  | 0 => 32 | 1 => 16 | 2 => 16 | 3 => 8 | 4 => 8 | 5 => 6 | 6 => 6 | 7 => 4
  | 8 => 8 | 9 => 4 | 10 => 8 | 11 => 32 | 12 => 32 | _ => 0

/-- FMT[4] = 1 is allowed on the code (R25). -/
def mxAllowed (code : Nat) : Bool := 3 ≤ code && code ≤ 8

/-- A FMT field that names a format (R26). -/
def fmtOk (fmt : Nat) : Bool := fmt % 16 ≤ 12 && (fmt / 16 = 0 || mxAllowed (fmt % 16))

/-- The block-scale flag FMT[4] (R25). -/
def fmtIsMX (fmt : Nat) : Bool := fmt / 16 % 2 = 1

/-! ### Values -/

/-- The integer s × m. -/
def signed (neg : Bool) (m : Nat) : Int := if neg then -(m : Int) else m

/-- The value of an integer. -/
def Num.ofInt (i : Int) : Num := .fin (i < 0) i.natAbs 0

/-- The value without its sign. -/
def Num.abs : Num → Num
  | .nan => .nan | .inf _ => .inf false | .fin _ m e => .fin false m e

/-- The value times 2^k. -/
def Num.scale (k : Int) : Num → Num
  | .fin s m e => .fin s m (e + k)
  | x => x

/-- floor(log2 |x|) of a non-zero finite value. -/
def ilog2 (man : Nat) (exp : Int) : Int := (Nat.log2 man : Int) + exp

/-- Exact sum; an exact zero is +0 unless both terms are −0 (R61). -/
def Num.add : Num → Num → Num
  | .nan, _ => .nan
  | _, .nan => .nan
  | .inf a, .inf b => if a = b then .inf a else .nan
  | .inf a, .fin .. => .inf a
  | .fin .., .inf b => .inf b
  | .fin s m e, .fin s' m' e' =>
    let e0 := min e e'
    let i := signed s (m * 2 ^ (e - e0).toNat) + signed s' (m' * 2 ^ (e' - e0).toNat)
    if i = 0 then .fin (s && s') 0 0 else .fin (i < 0) i.natAbs e0

/-- Exact product (R50, R61). -/
def Num.mul : Num → Num → Num
  | .nan, _ => .nan
  | _, .nan => .nan
  | .inf a, .inf b => .inf (a != b)
  | .inf a, .fin s m _ => if m = 0 then .nan else .inf (a != s)
  | .fin s m _, .inf b => if m = 0 then .nan else .inf (s != b)
  | .fin s m e, .fin s' m' e' => .fin (s != s') (m * m') (e + e')

/-- The value negated. -/
def Num.neg : Num → Num
  | .nan => .nan | .inf a => .inf (!a) | .fin s m e => .fin (!s) m e

/-- Is the value not a NaN and below the other (R65). -/
def Num.lt : Num → Num → Bool
  | .nan, _ => false
  | _, .nan => false
  | .inf a, .inf b => a && !b
  | .inf a, .fin .. => a
  | .fin .., .inf b => !b
  | .fin s m e, .fin s' m' e' =>
    let e0 := min e e'
    signed s (m * 2 ^ (e - e0).toNat) < signed s' (m' * 2 ^ (e' - e0).toNat)

/-! ### Decoding -/

/-- The value of a code word of a float format (R28). -/
def decodeFloat (f : FloatFmt) (w : Nat) : Num :=
  let m := w % 2 ^ f.mBits
  let e := w / 2 ^ f.mBits % 2 ^ f.eBits
  let s := w / 2 ^ (f.mBits + f.eBits) % 2 = 1
  let top := 2 ^ f.eBits - 1
  if e = top ∧ f.top = .ieee then (if m = 0 then .inf s else .nan)
  else if e = top ∧ f.top = .oneNan ∧ m = 2 ^ f.mBits - 1 then .nan
  else if e = 0 then .fin s m (1 - (f.bias : Int) - f.mBits)
  else .fin s (m + 2 ^ f.mBits) ((e : Int) - f.bias - f.mBits)

/-- Two's-complement value of the low n bits of w (R33). -/
def sext (n w : Nat) : Int :=
  let v := w % 2 ^ n
  if 2 ^ (n - 1) ≤ v then (v : Int) - (2 ^ n : Nat) else v

/-- The value of an E8M0 code (R34). -/
def decodeE8M0 (w : Nat) : Num := if w % 256 = 255 then .nan else .fin false 1 ((w % 256 : Nat) - 127)

/-- The value of an element word by its element code, without any block (R25). A block-scaled INT8 element
    is worth I × 2^−6 (R44); its caller scales it. -/
def decodeElem (code w : Nat) : Num :=
  match floatFmt code with
  | some f => decodeFloat f w
  | none =>
    if code = 8 then .ofInt (sext 8 w)
    else if code = 9 then .ofInt (sext 4 w)
    else if code = 10 then decodeE8M0 w
    else .ofInt (sext 32 w)

/-- The value of a block-scaled element under scale code sc (R44). -/
def decodeMX (code w sc : Nat) : Num :=
  if sc % 256 = 255 then .nan
  else (decodeElem code w).scale ((sc % 256 : Nat) - 127 + (if code = 8 then -6 else 0))

/-- The value of an FP32 word. -/
def f32 (w : W32) : Num := decodeFloat fmtFP32 w.toNat

/-! ### Rounding -/

/-- The integer nearest to n / 2^k, ties to even. -/
def rneShift (n k : Nat) : Nat :=
  let q := n / 2 ^ k
  let r := 2 * (n % 2 ^ k)
  if 2 ^ k < r ∨ (r = 2 ^ k ∧ q % 2 = 1) then q + 1 else q

/-- The magnitude man × 2^exp in units of 2^q, to nearest even. -/
def rneUnits (man : Nat) (exp q : Int) : Nat :=
  if q ≤ exp then man * 2 ^ (exp - q).toNat else rneShift man (q - exp).toNat

/-- The code of the largest finite magnitude (R27). -/
def FloatFmt.maxCode (f : FloatFmt) : Nat :=
  match f.top with
  | .ieee => (2 ^ f.eBits - 1) * 2 ^ f.mBits - 1
  | .oneNan => 2 ^ (f.eBits + f.mBits) - 2
  | .finite => 2 ^ (f.eBits + f.mBits) - 1

/-- The canonical NaN (R30); +0 where the format has none (R57). -/
def FloatFmt.canonNan (f : FloatFmt) : Nat :=
  match f.top with
  | .ieee => (2 ^ f.eBits - 1) * 2 ^ f.mBits + 2 ^ (f.mBits - 1)
  | .oneNan => 2 ^ (f.eBits + f.mBits) - 1
  | .finite => 0

/-- What lies above the largest finite magnitude: ∞ or the largest finite (R56). -/
def FloatFmt.overflow (f : FloatFmt) (sat : Bool) : Nat :=
  if f.top = .ieee ∧ sat = false then (2 ^ f.eBits - 1) * 2 ^ f.mBits else f.maxCode

/-- The magnitude code of man × 2^exp rounded to nearest even, as if the exponent range had no top. -/
def roundCode (f : FloatFmt) (man : Nat) (exp : Int) : Nat :=
  let emin : Int := 1 - f.bias
  let e := max (ilog2 man exp) emin
  (e - emin).toNat * 2 ^ f.mBits + rneUnits man exp (e - f.mBits)

/-- The code word of a value in a float format (R54, R56, R57). -/
def encodeFloat (f : FloatFmt) (sat : Bool) : Num → Nat
  | .nan => f.canonNan
  | .inf s =>
    (if s then 2 ^ (f.eBits + f.mBits) else 0) +
      (if f.top = .ieee then (2 ^ f.eBits - 1) * 2 ^ f.mBits else f.maxCode)
  | .fin s m e =>
    let c := if m = 0 then 0 else roundCode f m e
    (if s then 2 ^ (f.eBits + f.mBits) else 0) + (if f.maxCode < c then f.overflow sat else c)

/-- A value rounded to FP32 (R61). -/
def toF32 (x : Num) : W32 := BitVec.ofNat 32 (encodeFloat fmtFP32 false x)

/-- The integer nearest to a finite value, ties to even. -/
def rneInt (neg : Bool) (man : Nat) (exp : Int) : Int := signed neg (rneUnits man exp 0)

/-- The integer part of a finite value, toward zero. -/
def truncInt (neg : Bool) (man : Nat) (exp : Int) : Int :=
  signed neg (if 0 ≤ exp then man * 2 ^ exp.toNat else man / 2 ^ (-exp).toNat)

/-- i limited to the two's-complement range of n bits (R33, R66). -/
def clampInt (n : Nat) (i : Int) : Int := max (-(2 ^ (n - 1) : Nat)) (min ((2 ^ (n - 1) : Nat) - 1) i)

/-- A value to an n-bit integer: nearest even or toward zero, then saturated (R57, R58, R177). -/
def toIntN (n : Nat) (towardZero : Bool) : Num → Int
  | .nan => 0
  | .inf s => if s then -(2 ^ (n - 1) : Nat) else (2 ^ (n - 1) : Nat) - 1
  | .fin s m e => clampInt n (if towardZero then truncInt s m e else rneInt s m e)

/-- The bits of an integer in an n-bit field. -/
def intBits (n : Nat) (i : Int) : Nat := (i % (2 ^ n : Nat)).toNat

/-- A value to E8M0 (R668). -/
def toE8M0 : Num → Nat
  | .nan => 255
  | .inf _ => 255
  | .fin s m e =>
    if m = 0 ∨ s = true then 0
    else
      let k := ilog2 m e
      -- 2m against 3 × 2^(log2 m): above or below 1.5 × 2^k
      let two := 2 * m
      let mid := 3 * 2 ^ Nat.log2 m
      let c := k + 127
      let c := if mid < two then c + 1 else if two = mid then (if c % 2 = 0 then c else c + 1) else c
      (max 0 (min 254 c)).toNat

/-- A value to the element word of an element code (R54 to R59, R668). SSI32 (code 11) holds INT32 words. SAT says nothing of FP32, whose
overflow is infinity (R56, R61). DESIGN CHOICE: an INT32 word that is stored to INT8 or INT4 saturates to the target's range (log 62). -/
def encodeElem (code : Nat) (sat : Bool) (x : Num) : Nat :=
  match floatFmt code with
  | some f => encodeFloat f (sat && code != 0) x
  | none => if code = 10 then toE8M0 x else intBits (elemBits code) (toIntN (elemBits code) false x)

/-! ### FP32 operations (R61 to R65) -/

/-- FP32 sum. -/
def fadd (a b : W32) : W32 := toF32 ((f32 a).add (f32 b))
/-- FP32 difference. -/
def fsub (a b : W32) : W32 := toF32 ((f32 a).add (f32 b).neg)
/-- FP32 product. -/
def fmul (a b : W32) : W32 := toF32 ((f32 a).mul (f32 b))
/-- FP32 fused multiply-add, rounded once. -/
def ffma (a b c : W32) : W32 := toF32 (((f32 a).mul (f32 b)).add (f32 c))

/-- Bits by which a dividend is scaled: 64 more than the divisor has. -/
def divShift (m' : Nat) : Nat := 64 + Nat.log2 m'

/-- Quotient of the scaled dividend, with a sticky bit below. -/
def divMan (m m' : Nat) : Nat :=
  let n := m * 2 ^ divShift m'
  2 * (n / m') + (if n % m' = 0 then 0 else 1)

/-- Division (R61, R63): 0/0 and ∞/∞ are NaN, a non-zero value over zero is ∞. -/
def Num.div : Num → Num → Num
  | .nan, _ => .nan
  | _, .nan => .nan
  | .inf _, .inf _ => .nan
  | .inf a, .fin s _ _ => .inf (a != s)
  | .fin s _ _, .inf b => .fin (s != b) 0 0
  | .fin s m e, .fin s' m' e' =>
    if m' = 0 then (if m = 0 then .nan else .inf (s != s'))
    else .fin (s != s') (divMan m m') (e - e' - divShift m' - 1)

/-- Bits of the integer square root, from bit k - 1 down. -/
def isqrtGo (n : Nat) : Nat → Nat → Nat
  | 0, r => r
  | k + 1, r => if (r + 2 ^ k) * (r + 2 ^ k) ≤ n then isqrtGo n k (r + 2 ^ k) else isqrtGo n k r

/-- The integer square root. -/
def isqrt (n : Nat) : Nat := isqrtGo n (Nat.log2 n / 2 + 1) 0

/-- Square root (R61): −0 gives −0, a value below zero NaN. -/
def Num.sqrt : Num → Num
  | .nan => .nan
  | .inf s => if s then .nan else .inf false
  | .fin s m e =>
    if m = 0 then .fin s 0 0
    else if s then .nan
    else
      let odd := (e % 2 != 0 : Bool)
      let n := (if odd then 2 * m else m) * 2 ^ 64
      let e := (if odd then e - 1 else e) - 64
      let r := isqrt n
      .fin false (2 * r + (if r * r = n then 0 else 1)) (e / 2 - 1)

/-- FP32 division. -/
def fdiv (a b : W32) : W32 := toF32 ((f32 a).div (f32 b))
/-- FP32 square root. -/
def fsqrt (a : W32) : W32 := toF32 (f32 a).sqrt

/-- Is the FP32 word a NaN. -/
def isNaN32 (a : W32) : Bool := f32 a == .nan

/-- Order of FP32 words that puts −0 below +0 (R64). -/
def ordKey (a : W32) : Int := if a.msb then -((a.toNat % 2 ^ 31 : Nat) : Int) - 1 else (a.toNat % 2 ^ 31 : Nat)

/-- The canonical FP32 NaN (R30). -/
def nan32 : W32 := 0x7FC00000#32

/-- FP32 minimum (R64). -/
def fmin (a b : W32) : W32 := if isNaN32 a || isNaN32 b then nan32 else if ordKey b < ordKey a then b else a
/-- FP32 maximum (R64). -/
def fmax (a b : W32) : W32 := if isNaN32 a || isNaN32 b then nan32 else if ordKey a < ordKey b then b else a

/-- Order of FP32 words as values: both zeros are 0. -/
def valKey (a : W32) : Int := if a.msb then -((a.toNat % 2 ^ 31 : Nat) : Int) else (a.toNat % 2 ^ 31 : Nat)

/-- Equal (R65). -/
def fcmpEq (a b : W32) : Bool := !(isNaN32 a || isNaN32 b) && valKey a = valKey b
/-- Less than (R65). -/
def fcmpLt (a b : W32) : Bool := !(isNaN32 a || isNaN32 b) && valKey a < valKey b
/-- Less than or equal (R65). -/
def fcmpLe (a b : W32) : Bool := !(isNaN32 a || isNaN32 b) && valKey a ≤ valKey b

/-! ### SSI32 (R35 to R41) -/

/-- ⌈log2 P⌉ (R37). -/
def headroom (p : Nat) : Nat := if p ≤ 1 then 0 else Nat.log2 (p - 1) + 1

/-- The local block code (R38). -/
def localCode (xs : List Num) : Nat :=
  xs.foldl (fun c x =>
    match x with
    | .nan => 255
    | .inf _ => 255
    | .fin _ m e => if m = 0 then c else max c (min 254 (ilog2 m e + 128).toNat)) 0

/-- An element under agreed code E and headroom h, and whether R40's limit acted. -/
def toSSI (E h : Nat) : Num → Int × Bool
  | .fin s m e =>
    let i := rneUnits m (e + 157 - h - E) 0
    let lim := 2 ^ (30 - h)
    if lim < i then (signed s lim, true) else (signed s i, false)
  | _ => (0, false)

/-- An element of an SSI32 block back in FP32 (R41). -/
def ofSSI (E h : Nat) (i : Int) : W32 :=
  if E = 255 then nan32 else toF32 ((Num.ofInt i).scale ((E : Int) - 157 + h))

/-! ### Block quantisation (R45) -/

/-- emax of an element code (R45). -/
def emax : Nat → Int
  | 3 => 8 | 4 => 15 | 5 => 4 | 6 => 2 | 7 => 2 | _ => 0

/-- Is the value a NaN or infinite. -/
def Num.special : Num → Bool
  | .fin .. => false
  | _ => true

/-- floor(log2 amax) over the non-zero finite values; none where all are zero. -/
def blockLog (xs : List Num) : Option Int :=
  xs.foldl (fun r x =>
    match x with
    | .fin _ m e => if m = 0 then r else
        match r with
        | none => some (ilog2 m e)
        | some k => some (max k (ilog2 m e))
    | _ => r) none

/-- A block of 32 values to its scale code and element words (R45). -/
def quantiseBlock (code : Nat) (xs : List Num) : Nat × List Nat :=
  if xs.any Num.special then (255, xs.map fun _ => 0)
  else match blockLog xs with
    | none => (0, xs.map fun _ => 0)
    | some k =>
      let sc := (max 0 (min 254 (k - emax code + 127))).toNat
      (sc, xs.map fun x => encodeElem code true (x.scale (127 - (sc : Int) + (if code = 8 then 6 else 0))))

/-! ### Accumulation (R51, R52) -/

/-- A finite term cut toward zero to a multiple of 2^q, in units of 2^q. -/
def truncTerm (q : Int) : Num → Int
  | .fin s m e => signed s (if q ≤ e then m * 2 ^ (e - q).toNat else m / 2 ^ (q - e).toNat)
  | _ => 0

/-- A floating-point accumulation step (R51). -/
def fpStep (acc : W32) (products : List Num) : W32 :=
  let terms := f32 acc :: products
  if terms.any (· == .nan) then nan32
  else if terms.any (· == .inf false) && terms.any (· == .inf true) then nan32
  else if terms.any (· == .inf false) then toF32 (.inf false)
  else if terms.any (· == .inf true) then toF32 (.inf true)
  else match blockLog terms with
    | none => 0
    | some m =>
      let q := m - 47
      let s := (terms.map (truncTerm q)).sum
      if s = 0 then 0 else toF32 ((Num.ofInt s).scale q)

/-- An integer accumulation step: the exact sum, clamped once (R52). -/
def intStep (acc : W32) (products : List Int) : W32 :=
  BitVec.ofInt 32 (clampInt 32 (acc.toInt + products.sum))

/-- Saturating INT32 arithmetic (R66). -/
def satOp (f : Int → Int → Int) (a b : W32) : W32 := BitVec.ofInt 32 (clampInt 32 (f a.toInt b.toInt))

end Sys2Proof.Machine
end

