-- ==== Sys2Proof/Machine/Sparse.lean ====
section
/-! DEFINITION. Sparse tables in one canonical form: keys strictly rising, no entry equal to the value an
unlisted key reads as. Memory, register files, accumulators and semaphore sets are all kept in this form. -/

namespace Sys2Proof.Machine

/-- A table of entries by key. -/
abbrev Sparse (α : Type) := List (Nat × α)

/-- The value at a key; d where nothing is listed. -/
def Sparse.get {α : Type} (d : α) : Sparse α → Nat → α
  | [], _ => d
  | (k, v) :: t, i => if k = i then v else Sparse.get d t i

/-- The table without the entries of key i. -/
def Sparse.erase {α : Type} (m : Sparse α) (i : Nat) : Sparse α := m.filter (fun e => e.1 != i)

/-- An entry put before the first larger key. -/
def Sparse.insert {α : Type} (i : Nat) (v : α) : Sparse α → Sparse α
  | [] => [(i, v)]
  | (k, w) :: t => if i < k then (i, v) :: (k, w) :: t else (k, w) :: Sparse.insert i v t

/-- Set key i to v; writing the unlisted value removes the entry. -/
def Sparse.set {α : Type} [DecidableEq α] (d : α) (m : Sparse α) (i : Nat) (v : α) : Sparse α :=
  if v = d then m.erase i else Sparse.insert i v (m.erase i)

/-- Set keys lo to lo + n - 1 to f 0 to f (n - 1). -/
def Sparse.setRange {α : Type} [DecidableEq α] (d : α) (m : Sparse α) (lo : Nat) (f : Nat → α) : Nat → Sparse α
  | 0 => m
  | n + 1 => Sparse.set d (Sparse.setRange d m lo f n) (lo + n) (f n)

/-- Return keys lo to hi - 1 to the unlisted value. -/
def Sparse.clear {α : Type} (m : Sparse α) (lo hi : Nat) : Sparse α :=
  m.filter (fun e => e.1 < lo || hi <= e.1)

/-- The table of f over keys 0 to n - 1. -/
def Sparse.ofFn {α : Type} [DecidableEq α] (d : α) (n : Nat) (f : Nat → α) : Sparse α :=
  (List.range n).filterMap (fun i => if f i = d then none else some (i, f i))

/-- The canonical form: keys strictly rising, no listed default. -/
def Sparse.wf {α : Type} [DecidableEq α] (d : α) : Sparse α → Bool
  | [] => true
  | [(_, v)] => v != d
  | (k, v) :: (k', v') :: t => v != d && k < k' && Sparse.wf d ((k', v') :: t)

end Sys2Proof.Machine
end

