-- ==== Sys2Proof/Machine/CoreState.lean ====
section
/-! DEFINITION. The state of one core (03, 06 to 10): registers, Pail, arrays, Dashers, Ladle, semaphores and
hold. Times are schedule counts (R280). -/

namespace Sys2Proof.Machine

/-- A stream register (R230). -/
structure Stream where
  base : Nat := 0
  rowPitch : W32 := 0
  arrayPitch : W32 := 0
  fmt : Nat := 0
  deriving DecidableEq, Repr

/-- A result on the way to its register (R237, R285). -/
inductive Landed where
  /-- A scalar register; fromScalar: the scalar slot's result (R238). -/
  | sreg (fromScalar : Bool) (r : Nat) (v : W64)
  /-- Lanes of a Pail slot, from a vector operation: the lanes of which are written (R166). -/
  | slot (v : Nat) (which : BitVec 128) (words : List W32) (poison : Bool)
  /-- Lanes base and on, from a fill or a MOVSV (R170, R256). -/
  | fill (v base : Nat) (words : List W32) (poison : Bool)
  /-- A mask register (R167). -/
  | mask (m : Nat) (v : BitVec 128) (poison : Bool)
  /-- A stream register (R256). -/
  | stream (a : Nat) (v : Stream)
  /-- The vector length (R247). -/
  | vl (v : Nat)
  /-- A read of a core semaphore (R264). -/
  | semRead (idx r : Nat)
  /-- A change of a semaphore (R311); sub: by a SEMSUB, for the hazard of R304. -/
  | sem (glob : Bool) (idx : Nat) (amount : Int) (sub : Bool)
  deriving DecidableEq, Repr

/-- The fields of a MOP with its registers read at issue (R239 to R241). -/
structure MopOp where
  mode : Nat
  arrays : Nat
  acc : Bool
  rows : Nat
  as : Stream
  bs : Stream
  ut : Nat
  stride : Nat
  tile : Nat
  /-- Count of the bundle that issued it. -/
  issued : Nat := 0
  deriving DecidableEq, Repr

/-- A fill under way (R171). -/
structure FillOp where
  slot : Nat
  base : Nat
  count : Nat
  fmt : Nat
  start : Nat
  unit : Nat
  units : Nat
  got : List Byte
  poison : Bool
  deriving DecidableEq, Repr

/-- What happens in a core at a schedule count fixed when it was issued (R283, R285). -/
inductive Micro where
  | mop (m : MopOp)
  | fillUnit (f : FillOp)
  | narrowRead (off size : Nat) (sgn : Bool) (sd : Nat)
  | narrowWrite (off size : Nat) (v : W64)
  | storeTake (id i : Nat)
  | storeWrite (id i : Nat)
  | land (e : Landed)
  | idle (n : Nat)
  | endProg
  deriving DecidableEq, Repr

/-- A micro-event: the count in whose period it happens, and the count of the bundle that issued it. -/
structure Due where
  at_ : Nat
  issued : Nat
  what : Micro
  deriving DecidableEq, Repr

/-- An array operation that is running (R243). -/
structure ArrayOp where
  op : MopOp
  start : Nat
  next : Nat := 0
  /-- Processes rows at all (R88, R240, R241, R350). -/
  live : Bool
  /-- Unspecified results (R243, R671, R69). -/
  garbage : Bool := false
  tag : Nat := 0
  poison : Bool := false
  slice : Nat := 0
  accBase : Nat := 0
  first : Bool := false
  rowMask : W64 := 0
  /-- Lines of the present group of 64 batch rows (R116), last first. -/
  gx : List (List Num) := []
  gy : List (List Num) := []
  deriving DecidableEq, Repr

/-- One matrix array: the operation that runs and the one-entry queue (R243). -/
structure Arr where
  run : Option ArrayOp := none
  queue : Option (MopOp × Bool) := none
  deriving DecidableEq, Repr

/-- A loop of the loop stack (R230, R253). -/
structure LoopRec where
  start : Nat
  stop : Nat
  remaining : Nat
  deriving DecidableEq, Repr

/-- A SEMWAIT that is not yet tested, or that holds the core (R313). -/
structure Gate where
  due : Nat
  glob : Bool
  idx : Nat
  amount : Nat
  /-- The held core has found the condition met: its cause clears with the next period (R313). -/
  met : Bool := false
  deriving DecidableEq, Repr

/-- The adds and subtracts that reach one semaphore in one period of its clock: its index, its value as the period began, their
    net sum (R311). -/
structure SemNet where
  idx : Nat
  start : Nat
  net : Int
  deriving DecidableEq, Repr

/-- A level of an address walk: count, source and destination stride (R159, R211). -/
structure Level where
  count : Nat
  src : Int
  dst : Int
  deriving DecidableEq, Repr

/-- A store template (R269). -/
structure Template where
  fmt : Nat
  srcVec : Bool
  accInt : Bool
  sat : Bool
  across : Bool
  xch : Nat
  lines : Nat
  run : Nat
  levels : List Level
  deriving DecidableEq, Repr

/-- A store or a delivery of the store path (R257, R123) that is not yet complete. -/
structure StoreOp where
  id : Nat
  tmpl : Template
  src : Nat
  base : Nat
  loc : Bool
  sem : Nat
  sig : Bool
  refused : Bool
  /-- Lines taken, first first: words and poison. -/
  lines : List (List W32 × Bool) := []
  /-- Local lines written. -/
  written : Nat := 0
  /-- Every write of the store has been sent. -/
  sent : Bool := false
  /-- Writes not yet acknowledged, and the epoch count of the last acknowledgement (R315). -/
  outst : Nat := 0
  doneAt : Nat := 0
  /-- The peer of a destination window, read when the store starts (R485); a write of it has ended with another outcome than done. -/
  peer : Option Nat := none
  failed : Bool := false
  deriving DecidableEq, Repr

/-- A delivered return unit whose writes are not yet all acknowledged (R124). -/
structure DeliveryOp where
  id : Nat
  done : Option Nat
  outst : Nat
  /-- Epoch count of the last acknowledgement (R315). -/
  doneAt : Nat := 0
  deriving DecidableEq, Repr

/-- The owner of a Ladle queue and the issuer of a transfer (R210). -/
inductive LadleOwner where
  | program | host | stirrer | injection
  deriving DecidableEq, Repr

/-- A Ladle transfer descriptor (R211). -/
structure LadleDesc where
  src : Nat
  dst : Nat
  run : Nat
  semKind : Nat
  semCore : Nat
  semIdx : Nat
  semAdd : Nat
  levels : List Level
  tag : Nat
  /-- Every reserved field is zero (R213). -/
  rsvOk : Bool
  deriving DecidableEq, Repr

/-- A transfer of a Ladle queue (R217). -/
structure Transfer where
  id : Nat
  desc : LadleDesc
  by_ : LadleOwner
  /-- The command that offered it (R215); 0 for the program's. -/
  cmd : Nat := 0
  /-- Pieces requested, responses still on the way, writes not acknowledged. -/
  next : Nat := 0
  reading : Nat := 0
  outst : Nat := 0
  poison : Bool := false
  /-- The signal is dropped: outstanding at a context switch (R224). -/
  dropped : Bool := false
  /-- The peer of a destination window, read when the transfer starts (R485). -/
  peer : Option Nat := none
  /-- Bytes of the run that is arriving, and the message that is being formed: destination and bytes (R486). -/
  cur : List (BitVec 8 × Bool) := []
  msg : Option (Nat × List (BitVec 8 × Bool)) := none
  /-- Bytes written (R587). -/
  moved : Nat := 0
  /-- A program's transfer makes its first request once the core's clock has counted so many periods (R220). -/
  notBefore : Nat := 0
  /-- Epoch count of the last acknowledgement (R218). -/
  doneAt : Nat := 0
  /-- Its SEM_KIND 3 signal is on its way (R217). -/
  signalled : Bool := false
  /-- Batch of a Stirrer transfer (R415). -/
  batch : Nat := 0
  deriving DecidableEq, Repr

/-- One Ladle queue: owner, limit, transfers not yet started, outstanding transfers (R210, R217). -/
structure LadleQ where
  owner : Nat := 0
  limit : Nat := 16
  waiting : List Transfer := []
  out : List Transfer := []
  deriving DecidableEq, Repr

/-- A unit of the injection queue (R91): landed or still requested; next: requested for the following run (R226). -/
structure InjUnit where
  unit : Nat
  /-- Its data has been read and is on the way; a packet of it has been discarded (R222, R464). -/
  asked : Bool := false
  lost : Bool := false
  landed : Bool := false
  forNext : Bool := false
  /-- CONDITIONS bits that its fetch found, for the run that injects it (R669, R223). -/
  cond : Nat := 0
  deriving DecidableEq, Repr

/-- A unit of the return lane: valid, tag, 32 rows of 64 words, poison (R93, R98). -/
structure RetUnit where
  valid : Bool := false
  tag : Nat := 0
  words : List W32 := []
  poison : Bool := false
  deriving DecidableEq, Repr

/-- A unit held by a forward Dasher or a weight buffer: its tag; its data stands in the run's unit store. -/
structure Held where
  valid : Bool := false
  tag : Nat := 0
  poison : Bool := false
  /-- Arrays whose copy of the unit, in their active weight buffer, has a parity error of its own (R98). -/
  arrays : Nat := 0
  deriving DecidableEq, Repr

/-- One core. -/
structure Core where
  /-- S1 to S31 (R230). -/
  sregs : Sparse W64 := []
  streams : Sparse Stream := []
  /-- MK1 to MK7 (R165). -/
  masks : Sparse (BitVec 128) := []
  vl : Nat := 128
  /-- The Pail: word at slot × 128 + lane (R168). -/
  pail : Sparse W32 := []
  pailPoison : Sparse Bool := []
  maskPoison : Sparse Bool := []
  pc : Nat := 0
  loops : List LoopRec := []
  /-- The last pass of the innermost loop has ended; its expiry is due (R253). -/
  loopDone : Bool := false
  /-- Branch in flight: target, bundle ends left (R251). -/
  branch : Option (Nat × Nat) := none
  sched : Nat := 0
  stepNo : Nat := 0
  /-- Counts of IDLE still to pass (R254). -/
  idle : Nat := 0
  /-- A run has started on the core and END has not issued (R275, R255). -/
  issuing : Bool := false
  ended : Bool := false
  queue : List Due := []
  gates : List Gate := []
  /-- Unmet SEMWAITs that hold the core (R313). -/
  waits : List Gate := []
  /-- STEPPING periods of the run (R300), and the items that are due: the count at which an item's contract ends, and the STEPPING
      periods that must have passed by then. -/
  stall : Nat := 0
  stallDue : List (Nat × Nat) := []
  /-- Hold cycles without a cause that the next bundle still waits for (R302). -/
  pause : Nat := 0
  /-- The count at which they are due: that of the bundle after the STEP. -/
  pauseFrom : Nat := 0
  /-- The core's period of the present epoch count has passed; periods it has passed since a raise that has not stopped it (R290). -/
  ticked : Bool := false
  raiseAge : Nat := 0
  /-- Periods since the generators were set from the seed (R196, R197). -/
  genAge : Nat := 0
  acc : Sparse W32 := []
  accPoison : Sparse Bool := []
  /-- Count from which a row is readable (R74). -/
  accReady : Sparse Nat := []
  /-- Tiles of OP tables (UT, tile) that another array than their entry names has computed (R242). -/
  misTiles : List (Nat × Nat) := []
  arrays : Sparse Arr := []
  /-- Rows written in the present step, by array × 2048 + row (R134). -/
  accStep : List (Nat × Nat) := []
  fwd : Held := {}
  wbufActive : Held := {}
  lastStep : Option Nat := none
  ret : RetUnit := {}
  retPrev : RetUnit := {}
  /-- Return round: step within it, round number, table (R94, R120). -/
  round : Option (Nat × Nat × Nat) := none
  injq : List InjUnit := []
  /-- Unit index of the next request of the injection queue (R91). -/
  injNext : Nat := 0
  stores : List StoreOp := []
  deliveries : List DeliveryOp := []
  churnErr : Nat := 0
  vecErr : Nat := 0
  /-- FIRST_SLOT, OFFSET of CORE_SPAD_ERR_ADDR and FIRST_Q were recorded in the present period: a lower one of the same period replaces
      them (R618). -/
  vecNow : Bool := false
  spadNow : Bool := false
  ladleNow : Bool := false
  /-- Banks whose wide port a scheduled user has used in the present period (R206). -/
  wideNow : List Nat := []
  spadErr : Nat := 0
  spadErrAddr : Nat := 0
  ladleErr : Nat := 0
  ladleErrTag : Nat := 0
  semErr : Nat := 0
  ladle : Sparse LadleQ := []
  /-- The queue that the Ladle's round-robin served last (R222). -/
  ladleTurn : Nat := 7
  holdTotal : Nat := 0
  holdCause : Sparse Nat := []
  /-- The stop count S of a held core (R290). -/
  stopped : Option Nat := none
  /-- Cause 1, 2 or 3 raised by a late item (R288); the queue, where an LDI met it full (R221). -/
  late : Option (Nat × Option Nat) := none
  hazard : W64 := 0
  hazardCount : Nat := 0
  hazardDetail : W32 := 0
  /-- In debug mode, the counts at which the run's bundles issued and their indices, for CORE_HAZARD.BUNDLE (R305). -/
  trail : List (Nat × Nat) := []
  sems : Sparse Nat := []
  gcopy : Sparse Nat := []
  /-- The changes of the present period: index, value at its start, net amount; the error register without them (R311). -/
  semNet : List SemNet := []
  semErr0 : Nat := 0
  /-- SEMSUBs of the present period: the count, the count of the bundle, GLOBAL, index (R304). -/
  semSubs : List (Nat × Nat × Bool × Nat) := []
  /-- Conditions of the run found on this core: CONDITIONS bits of R587. -/
  cond : Nat := 0
  deriving DecidableEq, Repr

end Sys2Proof.Machine
end

