-- ==== Sys2Proof/Machine/ProgState.lean ====
section
/-! DEFINITION. The fuse map and what a bind puts in force (00, 03, 05, 08, 11). -/

namespace Sys2Proof.Machine

/-- The fuse map (R3, R78, R629). -/
structure Fuse where
  /-- Bit c: physical core c is fused off. -/
  fusedOff : BitVec 160
  grade : Nat
  stepping : Nat
  routerFail : BitVec 160
  /-- CORE_ARRAY_REPAIRn of core c at 4c + n (R77). -/
  repair : Sparse W32
  /-- EXCESS_i of item i (R298). -/
  excess : Sparse Nat
  /-- Fuse ceiling of each region's top step, by region; 0 where not listed (R627). -/
  ceiling : Sparse Nat
  serial : W64
  pubkey : Sparse Byte
  bootKeyDigest : BitVec 256
  deriving DecidableEq, Repr

/-- A tensor descriptor (R146). -/
structure TensorDesc where
  handle : Nat
  fmt : Nat
  layout : Nat
  ndim : Nat
  scaleAxis : Nat
  lifetime : Nat
  hint : Nat
  pin : Nat
  weight : Bool
  dims : List Nat
  /-- KIND and AXIS of each dimension. -/
  shard : List (Nat × Nat)
  pinAddr : Nat
  /-- Every reserved byte, bit and field is zero. -/
  rsvOk : Bool
  deriving DecidableEq, Repr

/-- A placed tensor (R337, R351): addresses are device addresses, a scratchpad part in the self window. -/
structure Placed where
  desc : TensorDesc
  /-- 0 scratchpad, 1 stacks, 2 Bulk tank. -/
  tier : Nat
  addr : Nat
  nAddr : Nat
  scaleAddr : Nat
  nScaleAddr : Nat
  bytes : Nat
  moved : Bool := false
  /-- Local extents (R149). -/
  local_ : List Nat
  deriving DecidableEq, Repr

/-- A table declaration with its plan (R271, R345). -/
structure TablePlan where
  ut : Nat
  opKeep : Bool
  add : Bool
  doneSem : Nat
  wOff : Nat
  wMul : Nat
  wMod : Nat
  tOff : Nat
  tMul : Nat
  tMod : Nat
  blockMask : Nat
  rowMaskInit : Nat
  rsvOk : Bool
  deriving DecidableEq, Repr

/-- A resolved table (R341 to R349). -/
structure Table where
  ut : Nat
  op : Bool
  handle : Nat
  act : Nat
  plan : TablePlan
  /-- Local offset of the table; of its second section; its units or tiles. -/
  base : Nat
  base2 : Nat
  count : Nat
  /-- Unskipped tiles of an OP table (R127). -/
  tiles : Nat := 0
  /-- Tiles per unit, K units and N blocks (R344). -/
  m : Nat := 1
  kUnits : Nat := 1
  nBlocks : Nat := 1
  /-- Injects the N copy (R110). -/
  nCopy : Bool := false
  deriving DecidableEq, Repr

/-- A bound program (R266, R564). -/
structure Prog where
  bundles : Sparse BundleW
  nBundles : Nat
  entries : List Nat
  templates : List Template
  tables : List Table
  tensors : List Placed
  check : W32
  digest : List Byte
  debug : Bool
  tb : Nat
  /-- Bundles whose stored bits are damaged (R279). -/
  bad : List Nat := []
  /-- The shard group table has been loaded since the bind (R565). -/
  shardLoaded : Bool := false
  deriving DecidableEq, Repr

/-- A weight unit on the forward lane: data, scale bytes (R70, R140). -/
structure UnitData where
  data : List Byte
  scales : List Byte
  poison : Bool
  deriving DecidableEq, Repr

/-- The run in progress (R275, R566). -/
structure RunState where
  /-- Its command, 0 where none waits for it. -/
  cmd : Nat
  entry : Nat
  args : List W64
  /-- The injected table, if any (R91). -/
  inj : Option Nat
  /-- Table of the forward lane's units: their number N. -/
  units : Nat := 0
  /-- The lanes' contents are unspecified (R261, R262). -/
  laneBroken : Bool := false
  /-- Common SEMRD samples: count, index, value (R264). -/
  semrd : List (Nat × Nat × Nat) := []
  /-- Count at which END issued or issue stopped (R587). -/
  endCount : Option Nat := none
  /-- First core that found a condition (R587). -/
  firstCore : Option Nat := none
  /-- Outcome codes of remote operations (R320, R562): STATUS values. -/
  remote : List Nat := []
  /-- CONDITIONS bits not tied to a core (R587). -/
  cond : Nat := 0
  /-- Issue was stopped by R279 or R306: the context is restarted without reseeding. -/
  restart : Bool := false
  /-- The run is held under SEM_WAIT and a context switch or bind ends it (R323, R330, log 46). -/
  cut : Bool := false
  /-- Outcomes of recent branches and LOOP counts by schedule count (R22, R304). -/
  outcomes : List (Nat × Nat) := []
  /-- A divergence was found: issue stops after the bundle (R306). -/
  diverged : Bool := false
  /-- The first bundle has issued: the start of R275 has taken place. -/
  started : Bool := false
  /-- The memory as the run started: a row mask written since reads as the old or the new value (R130). -/
  mem0 : List Host.Cell := []
  deriving DecidableEq, Repr

/-! ### The thread and ring positions (R79 to R82) -/

/-- The core at thread order t (R79). -/
def coreAtThread (t : Nat) : Nat :=
  if t < 80 then
    let x := t / 5
    let y := if x % 2 = 0 then 4 - t % 5 else t % 5
    16 * y + x
  else
    let x := 15 - (t - 80) / 5
    let y := if x % 2 = 1 then 5 + t % 5 else 9 - t % 5
    16 * y + x

/-- Thread order of core c (R79). -/
def threadOf (c : Nat) : Nat :=
  let x := c % 16
  let y := c / 16
  if y ≤ 4 then 5 * x + (if x % 2 = 0 then 4 - y else y)
  else 80 + 5 * (15 - x) + (if x % 2 = 1 then y - 5 else 9 - y)

/-- Quarter of core c (R17). -/
def quarterOf (c : Nat) : Nat := 2 * (c / 16 / 5) + c % 16 / 8

/-- Clock region of core c (R17). -/
def regionOf (c : Nat) : Nat := 4 * quarterOf c + c % 16 % 8 / 2

/-- Core c is one of the active cores (R3). -/
def Fuse.active (f : Fuse) (c : Nat) : Bool := c < 160 && !f.fusedOff.getLsbD c

/-- Active cores in thread order, that is by ring position (R80). -/
def Fuse.ring (f : Fuse) : List Nat := ((List.range 160).map coreAtThread).filter f.active

/-- G: the number of active cores. -/
def Fuse.g (f : Fuse) : Nat := f.ring.length

/-- Ring position of core c (R80). -/
def Fuse.pos (f : Fuse) (c : Nat) : Nat :=
  (((List.range (threadOf c)).map coreAtThread).filter f.active).length

/-- The core at ring position p. -/
def Fuse.coreAt (f : Fuse) (p : Nat) : Nat := f.ring.getD p 0

/-- First thread order of quarter q (R79). -/
def quarterStart : Nat → Nat
  | 0 => 0 | 1 => 40 | 3 => 80 | _ => 120

/-- Ring position of the injection Dasher of quarter q (R82). -/
def Fuse.injPos (f : Fuse) (q : Nat) : Nat :=
  let p := (((List.range (quarterStart q)).map coreAtThread).filter f.active).length
  (p + 3) / 4 * 4

/-- The quarter that core c injects for (R82). -/
def Fuse.injQuarter (f : Fuse) (c : Nat) : Option Nat :=
  if f.active c then (List.range 4).find? (fun q => f.injPos q == f.pos c) else none

/-- The excess of a contract item (R298). -/
def Fuse.excessOf (f : Fuse) (i : Nat) : Nat := Sparse.get 0 f.excess i

end Sys2Proof.Machine
end

