-- ==== Sys2Proof/Machine/State.lean ====
section
/-! DEFINITION. The state of the block, its faults and refusals, and the state after reset. -/

namespace Sys2Proof.Machine

/-- What stops the block. No rule of the spec stops it, so nothing raises one: unused, safe. -/
inductive Fault where
  /-- Raised by no meaning; safe. -/
  | none
  deriving DecidableEq, Repr

/-- Why a command has no meaning. -/
inductive Refusal where
  /-- The dispatcher refuses a command that is not modelled yet; safe. -/
  | notModelled (mnemonic : String)
  deriving DecidableEq, Repr

/-- Who waits for the acknowledgement of a write (R315, R533). -/
inductive Owner where
  | transfer (core q id : Nat)
  | store (core id : Nat)
  | delivery (core id : Nat)
  /-- A write that a command's result waits for (R550). -/
  | cmd (id : Nat)
  /-- The record of an event ring with a count (R549). -/
  | record (ring count : Nat)
  /-- A block of a Press job's result (R441). -/
  | press (cmd : Nat)
  /-- A clip's data or record of the decode engine's job (R407). -/
  | clip (engine clip : Nat)
  /-- An attestation report (R636). -/
  | report
  /-- A WRITE message of another device that is being carried out (R486). -/
  | message (id : Nat)
  /-- A host access or another write nobody waits for. -/
  | none
  deriving DecidableEq, Repr

/-- A Griby message: the header fields of R469 and the body. -/
structure Msg where
  kind : Nat
  hops : Nat
  dst : Nat
  src : Nat
  incarn : Nat
  tag : Nat
  addr : Nat
  arg : Nat
  body : List MByte := []
  /-- LEN of a header whose body has not arrived yet. -/
  len : Nat := 0
  deriving DecidableEq, Repr

/-- One flit slot: its channel, its message, none where it is idle, and which of the message's slots it is (R467, R470, R471). -/
structure GSlot where
  whey : Bool
  msg : Option Msg
  part : Nat
  parts : Nat
  deriving DecidableEq, Repr

/-- A control-lane item (R468). -/
inductive LaneItem where
  | credit (whey : Bool) (n : Nat)
  | ack (seq : Nat)
  | nak (seq : Nat)
  | header (m : Msg)
  | identity (self incarn port : Nat)
  deriving DecidableEq, Repr

/-- A Griby port (R465 to R477). state: 0 down, 1 training, 2 up, 3 failed. -/
structure Port where
  upReq : Bool := false
  laneInv : Nat := 0
  state : Nat := 0
  failCause : Nat := 0
  rtt : Nat := 0
  /-- VALID, SELF, INCARN, port number of the far end. -/
  far : Option (Nat × Nat × Nat) := none
  cnt : Sparse Nat := []
  creditBulk : Nat := 0
  creditWhey : Nat := 0
  /-- Slots formed and not yet sent, of the Whey channel and of bulk bodies; control-lane items not yet sent whole, with the bits left;
      headers sent whose bodies have not begun; slots sent and not acknowledged, by sequence number (R468, R471, R473). -/
  wheyq : List GSlot := []
  outq : List GSlot := []
  lane : List (LaneItem × Nat) := []
  hdrs : Nat := 0
  replay : List (Nat × GSlot) := []
  txSeq : Nat := 0
  /-- The next sequence number expected; after an uncorrectable codeword, slots are discarded until the replay; a credit item of the last
      slot has been applied (R474). The last ack applied. -/
  rxSeq : Nat := 0
  rxNak : Bool := false
  credited : Bool := false
  lastAck : Nat := 255
  /-- Replays from one slot without progress (R476). -/
  replays : Nat := 0
  replayFrom : Option Nat := none
  /-- Headers of the bulk messages whose bodies are expected, first first (R471). -/
  headers : List Msg := []
  /-- UP_REQ has been raised and training has not begun. -/
  want : Bool := false
  /-- Slots received and held (R472). -/
  rxHeld : Nat := 0
  deriving DecidableEq, Repr

/-- What leaves the device (log 2). -/
inductive Out where
  /-- A flit slot with its sequence number: its channel and its 256 body bytes. -/
  | slot (port seq : Nat) (whey : Bool) (body : List Byte)
  | item (port : Nat) (i : LaneItem)
  /-- The completion of a host access: error code and data. -/
  | reply (err : Nat) (data : List Byte)
  /-- An interrupt message of an event ring. -/
  | interrupt (vector : Nat)
  /-- A write to host memory that carried POISON (R616). -/
  | hostPoison (addr len : Nat)
  | i3c (data : List Byte)
  | jtag (bits : Nat)
  /-- A read request or other packet whose target is outside the model's memory. -/
  | resend (port : Nat)
  deriving DecidableEq, Repr

/-- Who issued a remote semaphore operation (R317, R320). -/
inductive RemoteBy where
  | core (c : Nat)
  /-- A signal with SEM_KIND 3 of a transfer; cmd 0 where a program issued it. -/
  | transfer (c q cmd id : Nat)
  | command (id : Nat)
  deriving DecidableEq, Repr

/-- A remote semaphore operation not yet acknowledged (R317 to R320). -/
structure RemoteOp where
  id : Nat
  by_ : RemoteBy
  /-- The issuing core (0 and its number) or ring (1 and its number), whose operations on one semaphore keep their order (R317). -/
  key : Nat × Nat
  /-- The target: this device, or a peer. -/
  self : Bool
  peer : Nat
  /-- Physical core, or 255 for a device-global semaphore (R263). -/
  core : Nat
  idx : Nat
  amount : Int
  incarn : Nat
  /-- Epoch of issue (R319). -/
  since : Nat
  /-- The outcome at the target once it has been reached (R320); its packet, or the answer's, has been discarded (R464). -/
  outcome : Option Nat := none
  lost : Bool := false
  deriving DecidableEq, Repr

/-- A packet on the mesh (R455). -/
inductive Packet where
  /-- A read response from address src that carries piece p of a transfer, with the destination of the data. -/
  | data (owner : Owner) (src p dst : Nat) (bytes : List MByte)
  /-- A write; addF32: the store mode ADD (R123). -/
  | write (owner : Owner) (addr : Nat) (bytes : List MByte) (addF32 : Bool)
  /-- The acknowledgement of a write at an address. -/
  | ack (owner : Owner) (addr : Nat)
  /-- A message for another device on its way from one Griby port to another (R480). -/
  | fwd (src dst : Nat) (m : Msg)
  deriving DecidableEq, Repr

/-- A memory controller's registers: stack k, or the Bulk tank (R357 to R379). -/
structure MemUnit where
  ready : Bool := false
  rate : Nat := 0
  temp : Nat := 0
  ref2x : Bool := false
  quiesce : Bool := false
  quiesced : Bool := false
  /-- VALID, KIND and ADDR of MEM_ERR_ADDR. -/
  errAddr : Option (Nat × Nat) := none
  /-- The epoch count at which that error was found (R618). -/
  errAt : Nat := 0
  cnt : Sparse Nat := []
  chFail : Nat := 0
  cap : Nat := 0
  cfg : Nat := 0
  deriving DecidableEq, Repr

/-- The hold root's registers and the episode (R229, R290 to R297, R511, R661). -/
structure HoldState where
  freeze : Bool := false
  total : Nat := 0
  cause : Sparse Nat := []
  episodes : Nat := 0
  skewMax : Nat := 0
  /-- An episode is in progress; its smallest and largest stop count so far. -/
  episode : Bool := false
  sMin : Nat := 0
  sMax : Nat := 0
  /-- The release epoch E once announced (R291). -/
  release : Option Nat := none
  /-- A raise is on its way to the cores that have not stopped (R289, R290). -/
  raising : Bool := false
  /-- The epoch count at which the conditions of the release first held (R291). -/
  ready : Option Nat := none
  throttle : Bool := false
  /-- Regions that raise CROSSING (R296). -/
  crossing : List Nat := []
  /-- The change hold is raised (R511). -/
  change : Bool := false
  deriving DecidableEq, Repr

/-- A command ring (R537 to R543). state: 0 disabled, 1 running, 2 error. -/
structure CRing where
  base : Nat := 0
  log2 : Nat := 4
  prio : Bool := false
  evt : Nat := 0
  en : Bool := false
  state : Nat := 0
  err : Nat := 0
  head : Nat := 0
  tail : Nat := 0
  seq : Nat := 0
  /-- Descriptors read and not yet delivered, head first (R540). -/
  descs : List Desc := []
  /-- The delivered command that holds back the next delivery (R541). -/
  blocked : Option Nat := none
  deriving DecidableEq, Repr

/-- An event ring (R551 to R554). -/
structure ERing where
  base : Nat := 0
  log2 : Nat := 4
  en : Bool := false
  head : Nat := 0
  tail : Nat := 0
  intEn : Bool := false
  armed : Bool := false
  vector : Nat := 0
  lost : Nat := 0
  /-- The post buffer, oldest first (R552). -/
  buf : List (List Byte) := []
  deriving DecidableEq, Repr

/-- A completion or ring-error record that has not been posted (R552). -/
structure WaitRec where
  ring : Nat
  kind : Nat
  status : Nat
  slot : Nat
  tag : Nat
  detail : List Byte
  /-- The command it completes; 0 for a ring error. -/
  cmd : Nat
  deriving DecidableEq, Repr

/-- A delivered command whose record has not been posted (R556). -/
structure Cmd where
  id : Nat
  ring : Nat
  /-- Ring count. -/
  count : Nat
  desc : Desc
  /-- Commands that a fence waits for (R585). -/
  fence : List Nat := []
  /-- Bytes written by a Ladle copy, its descriptor's TAG (R587); general progress. -/
  bytes : Nat := 0
  ttag : Nat := 0
  /-- STATUS values of conditions found on the way (R562). -/
  found : List Nat := []
  /-- The command's work has ended with DETAIL bytes; it completes once its writes are acknowledged (R550). -/
  ended : Option (List Byte) := none
  outst : Nat := 0
  /-- The record is made and waits to be posted. -/
  posting : Bool := false
  deriving DecidableEq, Repr

/-- A write to host memory that has not been acknowledged (R533). -/
structure HostWrite where
  id : Nat
  addr : Nat
  bytes : List MByte
  owner : Owner
  deriving DecidableEq, Repr

/-- A context change under way (R322, R560, R564, R580). -/
structure Ctx where
  /-- 0 bind, 1 re-placement, 2 context switch. -/
  kind : Nat
  cmd : Nat
  seed : W64
  prog : Option Prog
  /-- Tables and moved contents to write, then the report. -/
  writes : List (Nat × List MByte) := []
  /-- Its completion detail, but for the epoch (R587). -/
  detail : List Byte := []
  /-- A debug bind waits for a change to STEP 1 (R302): 0 no, 1 not requested yet. -/
  stepDown : Nat := 0
  deriving DecidableEq, Repr

/-- A clock region (R503 to R524, R608 to R612). -/
structure Region where
  step : Nat := 5
  top : Nat := 0
  topCal : Nat := 5
  /-- 0 where the record gives none (R597). -/
  driftLimit : Nat := 0
  drift : Nat := 0
  exhausted : Bool := false
  /-- Stopped by a stopped change (R518). -/
  stopped : Bool := false
  jit : Bool := false
  duty : Bool := false
  temp : Nat := 0
  /-- λ (R296); epoch counts without a period since reset; numbers of the region's recent stretched periods (R521). -/
  lag : Nat := 0
  lost : Nat := 0
  /-- A trip has found budget: the next period is stretched. half: the present period takes one epoch count (0), or is a stretched
      one in its first (1) or second (2) count (R521). -/
  trip : Bool := false
  half : Nat := 0
  window : List Nat := []
  stretched : Nat := 0
  denied : Nat := 0
  /-- The standby PLL has locked (R510). -/
  locked : Bool := false
  deriving DecidableEq, Repr

/-- A synchronised change that has been accepted (R509 to R516). stage: 0 locking, 1 locks checked, 2 change hold
    raised, 3 switched. -/
structure Change where
  step : Nat
  cfg : Nat
  n : Nat
  hw : Bool
  stage : Nat := 0
  deriving DecidableEq, Repr

/-- The clock block's registers (16). -/
structure Clk where
  refSrc : Bool := false
  refPort : Nat := 0
  useSrc : Bool := false
  usePort : Nat := 0
  switching : Bool := false
  /-- The selected reference has stopped: nothing runs (R492). -/
  lost : Bool := false
  cfg : Nat := 0
  fchgRing : Nat := 0
  fchgCfg : Nat := 0
  fchgStep : Nat := 0
  fchgN : Nat := 0
  change : Option Change := none
  fchgHw : Bool := false
  fchgResult : Nat := 0
  fchgDone : Bool := false
  /-- A change that the device will request once the steps are no longer mixed (R610). -/
  wanted : Option Nat := none
  ecfBusy : Bool := false
  ecfResult : Nat := 0
  ecfStep : Nat := 5
  ecfRegion : Nat := 0
  /-- The accepted stopped change: region and step (R518). -/
  ecfPend : Option (Nat × Nat) := none
  /-- The Bulk tank trains (R500). -/
  btTraining : Bool := false
  enCrm : Nat := 0
  enGrb : Nat := 0
  enMisc : Nat := 0
  gaugeEpoch : Nat := 0
  /-- Calibrated L at (boundary × 2 + direction) × 8 + step (R522, R599); direction 0 from side A into side B. -/
  lat : Sparse Nat := []
  deriving DecidableEq, Repr

/-- Start-up and the UCIe link (R526, R527, R592 to R602). -/
structure Boot where
  /-- Reset has been released and start-up has begun. -/
  started : Bool := false
  done : Bool := false
  failed : Bool := false
  fail : Nat := 0
  recBad : Nat := 0
  phase : Nat := 0
  modules : Nat := 0
  rate : Bool := false
  replays : Nat := 0
  /-- Successive failures of the present flit (R527). -/
  flitFails : Nat := 0
  deriving DecidableEq, Repr

/-- The mesh's test registers (R459 to R464). -/
structure MeshRegs where
  service : Bool := false
  refuse : Nat := 0
  updown : Bool := false
  decl : BitVec 160 := 0
  err : Nat := 0
  /-- The epoch count of the first error: of errors of one cycle the lowest router is recorded (R618). -/
  errAt : Nat := 0
  cnt0 : Nat := 0
  cnt1 : Nat := 0
  deriving DecidableEq, Repr

/-- A transfer that a check-value unit snoops: the next piece to absorb, the CRC register once the first has been, pieces that have arrived
    ahead of it (R419, R421). -/
structure Snoop where
  core : Nat
  queue : Nat
  id : Nat
  next : Nat := 0
  reg : Option Nat := none
  held : List (Nat × List MByte) := []
  deriving DecidableEq, Repr

/-- A check-value unit (R418 to R423). reg: the CRC register of the host block; snoops: the transfers that are snooped, in the order of
    their start. -/
structure Cv where
  core : Nat := 0
  queue : Nat := 0
  fold : Nat := 0
  src : Nat := 0
  poly : Nat := 0
  seq : W64 := 0
  reg : Nat := 0
  resBase : Nat := 0
  par : Bool := false
  feedErr : Bool := false
  opened : Bool := false
  snoops : List Snoop := []
  deriving DecidableEq, Repr

/-- A Stirrer plan (R413). -/
structure Plan where
  n : Nat
  per : Nat
  pool : Nat
  slot : Nat
  templ : Nat
  targets : Nat
  nt : Nat
  nbuf : Nat
  bufStride : Nat
  dstStride : Nat
  rsvOk : Bool
  deriving DecidableEq, Repr

/-- The epoch command in progress (R412 to R417): batches dealt out and not yet full, with their transfers left. -/
structure Epoch where
  cmd : Nat
  plan : Plan
  /-- The template's descriptor. -/
  templ : LadleDesc
  /-- Target entries: core, queue, FULL_SEM, FREE_SEM, DST_BASE. -/
  targets : List (Nat × Nat × Nat × Nat × Nat)
  /-- Samples emitted; batches for which a credit has been taken; batches completed. -/
  emitted : Nat := 0
  credits : Nat := 0
  batches : Nat := 0
  left : List (Nat × Nat) := []
  deriving DecidableEq, Repr

/-- A Press group table (R425 to R427). -/
structure PressGroup where
  valid : Bool := false
  gen : Nat := 0
  p : Nat := 0
  ring : List Nat := []
  self : Nat := 0
  failed : Bool := false
  deriving DecidableEq, Repr

/-- One block's record (R36, R435, R449). -/
structure PressRec where
  block : Nat
  scale : Nat
  headroom : Nat
  words : List W32
  poison : Bool := false
  deriving DecidableEq, Repr

/-- A sampled block's tree at one member (R443). -/
structure SkimAcc where
  block : Nat
  /-- Children's messages still to come; the own contribution has been added. -/
  left : Nat
  own : Bool := false
  words : List W32 := []
  scale : Nat := 0
  headroom : Nat := 0
  /-- Lap 2's total at the owner. -/
  total : Option PressRec := none
  deriving DecidableEq, Repr

/-- A Press job and its slot (R429 to R450). -/
structure PressJob where
  cmd : Nat
  tag : Nat
  group : Nat
  mode : Nat
  sat : Bool
  skim : Nat
  src : Nat
  srcFmt : Nat
  dst : Nat
  dstFmt : Nat
  nb : Nat
  mult : W32
  /-- Trigger: armed, semaphore, threshold, CONSUME (R324). -/
  armed : Bool
  trigSem : Nat
  thresh : Nat
  consume : Bool
  sig : Option (Bool × Nat × Nat × Nat)
  /-- Table, headroom and engines of the start (R425, R428, R433). -/
  gen : Nat := 0
  p : Nat := 0
  ring : List Nat := []
  self : Nat := 0
  h : Nat := 0
  engines : List Nat := []
  /-- Messages returned to this member (R437). -/
  returned : List Msg := []
  /-- Trees of sampled blocks that are not finished; comparisons left as root (R441, R443). -/
  skims : List SkimAcc := []
  compare : Nat := 0
  /-- Blocks whose result has been written: their number, and which (R448). -/
  written : Nat := 0
  done : List Nat := []
  /-- Writes not yet acknowledged, and the epoch count of the last acknowledgement (R315). -/
  outst : Nat := 0
  doneAt : Nat := 0
  range : Bool := false
  poison : Bool := false
  /-- Skim mismatches and the first mismatched block (R444). -/
  mism : Nat := 0
  mismFirst : Option Nat := none
  /-- Epoch of the last message (R446). -/
  since : Nat := 0
  dropSignal : Bool := false
  /-- Chunks that this member has still to begin; blocks of them at which an engine will meet a parity error (R449). -/
  todo : List Nat := []
  par : List Nat := []
  deriving DecidableEq, Repr

/-- The Press registers, groups and jobs (14). -/
structure Press where
  tmoExp : Nat := 31
  err : Nat := 0
  skimFirst : Option (Nat × Nat) := none
  cnt : Sparse Nat := []
  groups : Sparse PressGroup := []
  jobs : List PressJob := []
  /-- Completed jobs whose part in a tree is not over (R443). -/
  old : List PressJob := []
  /-- Messages granted by each peer; messages that wait for a grant: peer, flow, message (R488). -/
  grants : Sparse Nat := []
  waiting : List (Nat × Nat × Msg) := []
  /-- Aborts already forwarded: group, GEN, JOB_TAG, position (R447). -/
  aborts : List (Nat × Nat × Nat × Nat) := []
  deriving DecidableEq, Repr

/-- An ingest job on a decode engine (R386 to R411). -/
structure Ingest where
  /-- The command; 0 where the engine is free. -/
  cmd : Nat := 0
  sem : Option Nat := none
  /-- The check-value unit named by the profile. -/
  cv : Option Nat := none
  /-- Clips written and not yet signalled: clip, writes not yet acknowledged; the epoch count of the last acknowledgement (R315). -/
  clips : List (Nat × Nat) := []
  doneAt : Nat := 0
  written : Nat := 0
  dropped : Nat := 0
  pics : Nat := 0
  auxLost : Nat := 0
  truncated : Bool := false
  /-- Pass-through writes not yet acknowledged. -/
  auxOut : Nat := 0
  /-- Conditions of the record. -/
  found : List Nat := []
  deriving DecidableEq, Repr

/-- The maintenance window (R380 to R383). -/
structure Maint where
  stack : Nat := 0
  cmd : Nat := 0
  row : Nat := 0
  bank : Nat := 0
  pc : Nat := 0
  data : W64 := 0
  remaining : Nat := 0
  result : Nat := 0
  done : Bool := false
  busy : Bool := false
  deriving DecidableEq, Repr

/-- A loop-back that runs (R621 to R625): target, number, depth, bytes and seed; bytes compared, bits in error. -/
structure LoopTest where
  cmd : Nat
  target : Nat
  unit : Nat
  depth : Nat
  len : Nat
  seed : Nat
  /-- Bytes that have not returned within 10 ms, by offset (R625). -/
  lost : List Nat := []
  deriving DecidableEq, Repr

/-- The security block (R629 to R640). Requests wait in the order of their GO writes: true for a report. -/
structure Sec where
  nonce : List W64 := [0, 0, 0, 0]
  attAddr : Nat := 0
  bootAddr : Nat := 0
  attBusy : Bool := false
  attDone : Bool := false
  attResult : Nat := 0
  bootBusy : Bool := false
  bootDone : Bool := false
  bootResult : Nat := 0
  queue : List Bool := []
  /-- The report captured and being written; its writes not yet acknowledged. -/
  report : Option (List Byte) := none
  repOut : Nat := 0
  /-- BOOT_DIGEST once a check has passed (R639). -/
  bootDigest : Option (List Byte) := none
  /-- The calibration record as phase 2 read it (R633). -/
  calImage : Sparse Byte := []
  deriving DecidableEq, Repr

/-- The I3C target and the rail telemetry (R641 to R643). A rail: mV, 10 mA, mW, samples. -/
structure Mgmt where
  strap : Nat := 0
  dynAddr : Option Nat := none
  offset : Nat := 0
  /-- The item captured when its first byte was read: offset and bytes. -/
  item : Option (Nat × List Byte) := none
  rails : List (Nat × Nat × Nat × Nat) := List.replicate 8 (0, 0, 0, 0)
  deriving DecidableEq, Repr

/-- The test access port (R644). -/
structure Jtag where
  /-- 0 BYPASS, 1 IDCODE, 2 SAMPLE/PRELOAD, 3 EXTEST, 4 CLAMP, 5 HIGHZ (log 12). -/
  instr : Nat := 1
  boundary : List Bool := []
  /-- After EXTEST, CLAMP or HIGHZ the device is not to be used before a reset (R645). -/
  driven : Bool := false
  deriving DecidableEq, Repr

/-- A reserved range of the Cellar (R339): START, END, EN. -/
structure Reserved where
  en : Bool := false
  start : Nat := 0
  stop : Nat := 0
  deriving DecidableEq, Repr

/-- The deadlock detector (R327 to R330). quiet: it has fired and no progress has been made since. -/
structure Dld where
  en : Bool := true
  ring : Nat := 0
  k : Nat := 32
  fired : Bool := false
  fires : Nat := 0
  snap : Nat := 0
  quiet : Bool := false
  deriving DecidableEq, Repr

/-- The state of the block. -/
structure State where
  pending : List Instr := []
  free : Nat := 0
  fuse : Fuse
  mem : List Host.Cell := []
  /-- Words of stacks and Bulk tank, by address / 8: 0 clean, 1 single-bit error, 2 uncorrectable, 3 poison mark. -/
  ecc : Sparse Nat := []
  /-- Scratchpad bytes with a parity error or the poison mark, by device address (R209, R613). -/
  bytePar : Sparse Bool := []
  /-- Stacks 0 to 7; 8: the Bulk tank. -/
  memUnits : Sparse MemUnit := []
  /-- GRB_PWINw: EN and PEER (R484). -/
  pwin : Sparse (Bool × Nat) := []
  /-- GRB_SELF (R478). -/
  grbSelf : Nat := 0
  cores : Sparse Core := []
  prog : Option Prog := none
  run : Option RunState := none
  /-- Units of the run that have landed, by tag (R70, R86). -/
  units : Sparse UnitData := []
  gsems : Sparse Nat := []
  gsemErr : Nat := 0
  /-- The hub's changes of the present period, and its error register without them (R311). -/
  gsemNet : List SemNet := []
  gsemErr0 : Nat := 0
  /-- Device-global semaphores whose change is on its way to the core controllers, with the epoch count of the change (R314). -/
  gsemSent : List (Nat × Nat) := []
  /-- Banks of scratchpads, 32 times the core and the bank, that the host has accessed in the present period (R208). -/
  hostBanks : List Nat := []
  mesh : List (Nat × Packet) := []
  meshId : Nat := 0
  ports : Sparse Port := []
  /-- GRB_CTL and GRB_RSEM_CTL.TMO_EXP (R319, R480, R483). -/
  grbCtl : Nat := 0xF0000
  grbSelfValid : Bool := false
  tmoExp : Nat := 24
  outbox : List Out := []
  /-- Remote operations that await acknowledgement, in order of issue (R317). -/
  remote : List RemoteOp := []
  remoteId : Nat := 0
  /-- The device's incarnation (R318), GRB_PEERi entries: INCARN and further fields as words (R478). -/
  incarn : Nat := 0
  peers : Sparse W64 := []
  /-- CLK_EPOCH (R508). -/
  epoch : Nat := 0
  /-- The seed of the context's generators (R197). -/
  seed : W64 := 0
  hold : HoldState := {}
  crings : Sparse CRing := []
  erings : Sparse ERing := []
  /-- Record numbers of the fixed sources (R548). -/
  seqs : Sparse Nat := []
  waitRecs : List WaitRec := []
  cmds : List Cmd := []
  cmdId : Nat := 1
  /-- Round-robin pointers of the two service levels (R542). -/
  turn : Nat × Nat := (0, 0)
  hostWrites : List HostWrite := []
  /-- Register writes to core windows that wait for a region's clock: offset, bytes, value (R16, R650). -/
  cfgWait : List (Nat × Nat × Nat) := []
  linkDown : Bool := false
  ctx : Option Ctx := none
  /-- The command of the re-placement that waits for a step boundary (R354). -/
  replacing : Option Nat := none
  /-- MEM_ECC_CTL (R377, R379): SCRUB_EN and DEMAND_WB are 1 after reset. -/
  memEccCtl : Nat := 3
  /-- Messages sent to peers and not yet acknowledged, by TAG, with the epoch at which they left (R486, R487). -/
  writesOut : List (Nat × Owner × Nat) := []
  /-- WRITE messages of other devices whose writes are not all acknowledged: number, header, writes left (R486). -/
  writesIn : List (Nat × Msg × Nat) := []
  regions : Sparse Region := []
  clk : Clk := {}
  boot : Boot := {}
  meshRegs : MeshRegs := {}
  /-- The calibration record (R603); an unlisted byte reads 0 (log 5). -/
  flash : Sparse Byte := []
  press : Press := {}
  dld : Dld := {}
  /-- Shard group table: MEMBERS and COORD of the four axes (R576). -/
  shard : List (Nat × Nat) := [(1, 0), (1, 0), (1, 0), (1, 0)]
  /-- Ring and count of the last run delivered (R226). -/
  lastRun : Option (Nat × Nat) := none
  cvs : Sparse Cv := []
  epochCmd : Option Epoch := none
  /-- Epoch commands that wait for it, in delivery order (R413). -/
  epochQueue : List Nat := []
  /-- Ingest jobs that wait for an engine, as commands in delivery order; jobs on engines (R386). -/
  ingestQ : List Nat := []
  engines : Sparse Ingest := []
  crmErr : Nat := 0
  clipsWritten : Nat := 0
  clipsDropped : Nat := 0
  /-- Periods with pending work and no progress (R329). -/
  noProgress : Nat := 0
  maint : Maint := {}
  /-- Hard-repair resources left, by (stack × 64 + pseudo-channel) × 32 + bank; 2 where not listed (R626, log 10). -/
  hardLeft : Sparse Nat := []
  /-- Soft repairs in force: bank key and row (R382). -/
  softReps : List (Nat × Nat) := []
  /-- Refreshes postponed, by (unit × 64 + channel) × 32 + bank (R368). -/
  postponed : Sparse Nat := []
  /-- The loop-back that runs; TST_LB_STATUS: LANE and OFFSET of the first mismatch; TST_GRB_REFLECT (R624, R625). -/
  loopTest : Option LoopTest := none
  lbStatus : Option (Nat × Nat) := none
  reflect : Nat := 0
  sec : Sec := {}
  mgmt : Mgmt := {}
  jtag : Jtag := {}
  /-- CEL_RSVn (R352). -/
  rsv : Sparse Reserved := []
  deriving DecidableEq, Repr

/-- The fuse map of the modelled part (log 4): a WSV9-144 whose fused-off cores are the last ones in thread order of each
    clock region, with no failed router, no excess, and every fuse ceiling at STEP 0 (R3, R77, R627). -/
def resetFuse : Fuse :=
  { fusedOff := BitVec.ofNat 160 (((List.range 160).filter (fun c => threadOf c % 10 = 9)).foldl (fun m c => m + 2 ^ c) 0)
    grade := 144, stepping := 0, routerFail := 0, repair := [], excess := [], ceiling := [], serial := 0, pubkey := []
    bootKeyDigest := 0 }

/-- The device right after a device reset (R591), before start-up, with a fuse map. Host memory and what has left the device
    are not the device's. DESIGN CHOICE: the generators' seed is 0, since a reset carries none (R173, R197, log 71). -/
def State.ofReset (fuse : Fuse) (incarn : Nat) : State :=
  { fuse := fuse, incarn := incarn
    regions := (List.range 16).filterMap (fun r =>
      if Sparse.get 0 fuse.ceiling r = 0 then none else some (r, { top := Sparse.get 0 fuse.ceiling r })) }

/-- The machine right after reset. -/
def State.reset : State := State.ofReset resetFuse 0

end Sys2Proof.Machine
end

