-- ==== Sys2Proof/Machine/Mem.lean ====
section
/-! DEFINITION. The bytes of the device address space, their poison marks, and which addresses exist
(R7, R200, R201, R214, R259, R360, R361, R484, R532, R536, R613). -/

namespace Sys2Proof.Machine

/-- While the selected reference is lost the device does nothing at all (R492): the outcome of a command that needs its
    clocks. -/
def live (s : State) (o : Host.Outcome State Fault Refusal) : Host.Outcome State Fault Refusal := if s.clk.lost then .next s else o

/-! ### Bytes and little-endian words -/

/-- What an unlisted byte reads as: 0 (R202, R601; host memory: log 3). -/
def unlisted : Byte := 0

/-- The byte at a device address. -/
def State.byteAt (s : State) (a : Nat) : Byte := Sparse.get unlisted s.mem a

/-- n bytes from a device address. -/
def State.bytesAt (s : State) (a n : Nat) : List Byte := (List.range n).map (fun i => s.byteAt (a + i))

/-- The bytes written one by one, lowest address first. -/
def putBytes (m : List Host.Cell) (a : Nat) : List Byte → List Host.Cell
  | [] => m
  | b :: t => putBytes (Sparse.set unlisted m a b) (a + 1) t

/-- The little-endian value of bytes (R7). -/
def leNat : List Byte → Nat
  | [] => 0
  | b :: t => b.toNat + 256 * leNat t

/-- n little-endian bytes of a value (R7). -/
def leBytes : Nat → Nat → List Byte
  | 0, _ => []
  | n + 1, v => BitVec.ofNat 8 v :: leBytes n (v / 256)

/-- n bytes at offset o of a byte list, as a number. -/
def leAt (b : List Byte) (o n : Nat) : Nat := leNat ((b.drop o).take n)

/-- n bytes at offset o of a descriptor, as a number (R7, R555). -/
def fieldAt (d : Desc) (o n : Nat) : Nat := d.toNat / 2 ^ (8 * o) % 2 ^ (8 * n)

/-- Bits hi to lo of a number. -/
def bits (v hi lo : Nat) : Nat := v / 2 ^ lo % 2 ^ (hi + 1 - lo)

/-- Bit i of a number. -/
def bitOf (v i : Nat) : Bool := v / 2 ^ i % 2 = 1

/-- v with bit i set. -/
def setBit (v i : Nat) : Nat := if bitOf v i then v else v + 2 ^ i

/-- Pairwise or of two bit sets of n bits. -/
def orBits (v w : Nat) : Nat := v ||| w

/-- v without the bits of w (W1C). -/
def clearBits (v w : Nat) : Nat := v - (v &&& w)

/-! ### Windows -/

/-- Start of the scratchpad window of core c (R201). -/
def spadBase (c : Nat) : Nat := 0x20000000000 + c * 0x04000000

/-- Bytes of a scratchpad (R200). -/
def spadSize : Nat := 0x02000000

/-- Is the address in the self window (R259). -/
def inSelf (a : Nat) : Bool := 0x203FC000000 ≤ a && a < 0x20400000000

/-- The address that core c reaches through the self window (R259). -/
def resolveSelf (c a : Nat) : Nat := if inSelf a then spadBase c + (a - 0x203FC000000) else a

/-- Is the address in a scratchpad window (R201). -/
def inSpad (a : Nat) : Bool := 0x20000000000 ≤ a && a < 0x20000000000 + 160 * 0x04000000

/-- Is the address in the stacks or the Bulk tank (R360, R361). -/
def inWordMem (a : Nat) : Bool := a < 0x0C000000000 || (0x10000000000 ≤ a && a < 0x20000000000)

/-- First host address (R532). -/
def hostBase : Nat := 0x800000000000

/-- Is the address host memory (R532). -/
def inHost (a : Nat) : Bool := hostBase ≤ a && a < 2 * hostBase

/-- Is the address in a peer window (R484). -/
def inPeer (a : Nat) : Bool := 0x400000000000 ≤ a && a < hostBase

/-- The Bulk tank's unit. -/
def State.bt (s : State) : MemUnit := Sparse.get {} s.memUnits 8

/-- The region of the address space that holds a, as a first and a last-plus-one address, if it exists and is
    enabled; dst: as a destination, which a peer window may be (R214, R485). -/
def State.span (s : State) (dst : Bool) (a : Nat) : Option (Nat × Nat) :=
  if a < 0x0C000000000 then some (0, 0x0C000000000)
  else if 0x10000000000 ≤ a ∧ a < 0x20000000000 then
    if s.bt.ready ∧ a < 0x10000000000 + s.bt.cap then some (0x10000000000, 0x10000000000 + s.bt.cap) else none
  else if inSpad a then
    let c := (a - 0x20000000000) / 0x04000000
    if s.fuse.active c ∧ a < spadBase c + spadSize then some (spadBase c, spadBase c + spadSize) else none
  else if inPeer a then
    let w := (a - 0x400000000000) / 0x40000000000
    let p := Sparse.get (false, 0) s.pwin w
    if dst ∧ p.1 ∧ p.2 ≠ s.grbSelf then some (0x400000000000 + w * 0x40000000000, 0x400000000000 + (w + 1) * 0x40000000000)
    else none
  else if inHost a then some (hostBase, 2 * hostBase)
  else none

/-- The test of R214 on bytes lo to hi, reached by core c's Ladle or store path. -/
def State.rangeOk (s : State) (dst : Bool) (c lo hi : Nat) : Bool :=
  match s.span dst (resolveSelf c lo) with
  | some (_, e) => lo ≤ hi && (resolveSelf c lo) + (hi - lo) < e
  | none => false

/-- The same test for a party that has no self window (R559). -/
def State.rangeOkDev (s : State) (dst : Bool) (lo hi : Nat) : Bool :=
  match s.span dst lo with
  | some (_, e) => lo ≤ hi && hi < e
  | none => false

/-! ### Poison -/

/-- Is the byte marked, parity-damaged or in an uncorrectable word (R371, R209, R613). -/
def State.byteBad (s : State) (a : Nat) : Bool :=
  if inSpad a then Sparse.get false s.bytePar a
  else if inWordMem a then 2 ≤ Sparse.get 0 s.ecc (a / 8)
  else false

/-- Is any of n bytes bad. -/
def State.anyBad (s : State) (a n : Nat) : Bool := (List.range n).any (fun i => s.byteBad (a + i))

/-- The byte at an address with its mark. -/
def State.mbyteAt (s : State) (a : Nat) : MByte := (s.byteAt a, s.byteBad a)

/-- n marked bytes from an address. -/
def State.mbytesAt (s : State) (a n : Nat) : List MByte := (List.range n).map (fun i => s.mbyteAt (a + i))

/-- Bytes with one mark. -/
def markAll (bad : Bool) (bs : List Byte) : List MByte := bs.map (fun b => (b, bad))

/-- Is any byte marked. -/
def anyMarked (bs : List MByte) : Bool := bs.any (fun b => b.2)

/-- The check bits of word w after a write of marked bytes at a: marked where a byte is, clean where the whole word
    is written, else a part of a bad word leaves the mark (R371 to R374). -/
def eccWord (ecc : Sparse Nat) (a : Nat) (bs : List MByte) (w : Nat) : Nat :=
  if (List.range 8).any (fun j => a ≤ 8 * w + j && (bs.getD (8 * w + j - a) (0, false)).2) then 3
  else if !(a ≤ 8 * w && 8 * w + 8 ≤ a + bs.length) && 2 ≤ Sparse.get 0 ecc w then 3
  else 0

/-- The check bits after a write (R371). -/
def eccAfter (ecc : Sparse Nat) (a : Nat) (bs : List MByte) : Sparse Nat :=
  Sparse.setRange 0 ecc (a / 8) (fun i => eccWord ecc a bs (a / 8 + i)) ((a + bs.length + 7) / 8 - a / 8)

/-- Marked bytes stored at a device address (R371, R613, R615). -/
def State.storeBytes (s : State) (a : Nat) (bs : List MByte) : State :=
  { s with
    mem := putBytes s.mem a (bs.map Prod.fst)
    bytePar := if inSpad a then Sparse.setRange false s.bytePar a (fun i => (bs.getD i (0, false)).2) bs.length else s.bytePar
    ecc := if inWordMem a && bs.length != 0 then eccAfter s.ecc a bs else s.ecc }

/-- Free bytes for contents that are undefined (R355, R448). -/
def State.freeRange (s : State) (a n : Nat) : List MByte := markAll false ((List.range n).map (fun i => Config.freeByte s.free a i))

/-- Something leaves the device. -/
def State.emit (s : State) (o : Out) : State := { s with outbox := s.outbox ++ [o] }

/-! ### Cores -/

/-- The core with physical ID c. -/
def State.core (s : State) (c : Nat) : Core := Sparse.get {} s.cores c

/-- Core c replaced. -/
def State.setCore (s : State) (c : Nat) (k : Core) : State := { s with cores := Sparse.set {} s.cores c k }

/-- Every active core changed by f. -/
def State.mapCores (s : State) (f : Nat → Core → Core) : State :=
  { s with cores := Sparse.ofFn {} Config.nPhys (fun c => if s.fuse.active c then f c (s.core c) else s.core c) }

/-- One byte of core c's scratchpad, by local offset (R200, R250). -/
def State.spadByte (s : State) (c off : Nat) : Byte := s.byteAt (spadBase c + off % spadSize)

/-- n bytes of core c's scratchpad, a local offset taken from 25 bits (R171, R250). -/
def State.spadBytes (s : State) (c off n : Nat) : List Byte := (List.range n).map (fun i => s.spadByte c (off + i))

/-- Is any of n scratchpad bytes bad. -/
def State.spadBad (s : State) (c off n : Nat) : Bool :=
  (List.range n).any (fun i => Sparse.get false s.bytePar (spadBase c + (off + i) % spadSize))

/-- The bank of a local offset (R200). -/
def bankOf (off : Nat) : Nat := off % spadSize / 0x100000

/-- A byte's parity error recorded: its bank, and the first one's offset, the lowest of its period (R209, R618). -/
def Core.spadParity (k : Core) (off : Nat) : Core :=
  let first := k.spadErr = 0
  { k with
    spadErr := setBit k.spadErr (bankOf off)
    spadErrAddr := if first || (k.spadNow && decide (off % spadSize < k.spadErrAddr % 2 ^ 25)) then 2 ^ 31 + off % spadSize else k.spadErrAddr
    spadNow := k.spadNow || first
    cond := setBit k.cond 0 }

/-- Every parity error found in n bytes at off (R209). -/
def State.spadCheck (s : State) (c off n : Nat) (k : Core) : Core :=
  if s.spadBad c off n then
    ((List.range n).filter (fun i => Sparse.get false s.bytePar (spadBase c + (off + i) % spadSize))).foldl (fun k i => k.spadParity (off + i)) k
  else k

end Sys2Proof.Machine
end

