-- ==== Sys2Proof/Machine/Regions.lean ====
section
/-! DEFINITION. The clock regions: their periods, the calibrated crossings between neighbours, and which regions must raise CROSSING
(16 R503 to R524, 09 R296). -/

namespace Sys2Proof.Machine

/-- Region r. -/
def State.region (s : State) (r : Nat) : Region := Sparse.get {} s.regions r

/-- Region r replaced. -/
def State.setRegion (s : State) (r : Nat) (g : Region) : State := { s with regions := Sparse.set {} s.regions r g }

/-- Every region changed by f. -/
def State.mapRegions (s : State) (f : Nat → Region → Region) : State :=
  { s with regions := Sparse.ofFn {} 16 (fun r => f r (s.region r)) }

/-- The region's clock ends a period with the present epoch count: it is not stopped (R518), and the count is not the first of the
    two that a stretched period takes (R521). -/
def Region.ticks (g : Region) : Bool := !g.stopped && g.half != 1

/-- Core c's region ends a period with the present epoch count. -/
def State.clockTicks (s : State) (c : Nat) : Bool := (s.region (regionOf c)).ticks

/-- Core c's region clock runs (R518). -/
def State.clocked (s : State) (c : Nat) : Bool := !(s.region (regionOf c)).stopped

/-- Periods of region 0's clock since reset: the epoch counts but for those in which it had none (R319, R329). -/
def State.periods0 (s : State) : Nat := s.epoch - (s.region 0).lost

/-- The region after an epoch count: a stretched period takes two counts and, once over, adds 1 to λ; the period after a trip is
    stretched (R296, R521). lost counts the epoch counts without a period. -/
def Region.pass (g : Region) : Region :=
  if g.stopped then { g with lost := g.lost + 1 }
  else if g.half = 1 then { g with half := 2, lost := g.lost + 1 }
  else { g with half := if g.trip then 1 else 0, trip := false, lag := if g.half = 2 then g.lag + 1 else g.lag }

/-- The boundary between two neighbouring regions, and its direction from a to b (R524). -/
def boundary (a b : Nat) : Option (Nat × Nat) :=
  let lo := min a b
  let d := if a < b then 0 else 1
  if max a b = lo + 1 ∧ lo % 8 ≠ 7 then some (7 * (lo / 8) + lo % 8, d)
  else if max a b = lo + 8 then some (14 + lo, d)
  else none

/-- The calibrated latency from region a into region b at the present step, 8 where none is known. -/
def State.latency (s : State) (a b : Nat) : Nat :=
  match boundary a b with
  | some (n, d) => Sparse.get 8 s.clk.lat ((2 * n + d) * 8 + (s.region b).step)
  | none => 8

/-- Region b must raise CROSSING: its own λ is 9, or the λ of a region it receives from exceeds its own by more than the crossing's
    slack (R296). -/
def State.crosses (s : State) (b : Nat) : Bool :=
  decide (9 ≤ (s.region b).lag) || (List.range 16).any (fun a =>
    (boundary a b).isSome && decide ((s.region b).lag + (8 - s.latency a b) < (s.region a).lag))

/-- Regions that must raise CROSSING. -/
def State.crossings (s : State) : List Nat := (List.range 16).filter s.crosses

end Sys2Proof.Machine
end

