-- ==== Sys2Proof/Machine/Ops.lean ====
section
/-! DEFINITION. Shared operations of the core program: registers and early reads, the queue of results,
hazards, which cores issue a bundle (08, 09). -/

namespace Sys2Proof.Machine

/-! ### Free values (log 1) -/

/-- A site of a free value: schedule count, core and index. -/
def site (n c i : Nat) : Nat := ((n * 256 + c) * 2 ^ 24) + i

/-- A free word of w bits. -/
def freeWord (w k st : Nat) : BitVec w := (Config.freeBits k st).setWidth w

/-- A free 64-bit word. -/
def free64 (k st : Nat) : W64 := Config.freeBits k st

/-- A free 32-bit word. -/
def free32 (k st : Nat) : W32 := freeWord 32 k st

/-- n free bytes. -/
def freeBytes (k st n : Nat) : List Byte := (List.range n).map (Config.freeByte k st)

/-! ### Results on the way -/

/-- Does the event write scalar register r. -/
def Micro.toS (r : Nat) : Micro → Bool
  | .land (.sreg _ d _) => d == r
  | .land (.semRead _ d) => d == r
  | .narrowRead _ _ _ d => d == r
  | _ => false

/-- Does the event write Pail slot v. -/
def Micro.toSlot (v : Nat) : Micro → Bool
  | .land (.slot d _ _ _) => d == v
  | .land (.fill d _ _ _) => d == v
  | .fillUnit f => f.slot == v
  | _ => false

/-- Does the event write a lane of Pail slot v, any one or a given one: a MOVSV writes one lane (R256). -/
def Micro.toLane (v : Nat) (lane : Option Nat) : Micro → Bool
  | .land (.fill d b [_] _) => d == v && lane.all (· == b)
  | m => m.toSlot v

/-- Does the event write mask m. -/
def Micro.toMask (m : Nat) : Micro → Bool
  | .land (.mask d _ _) => d == m
  | _ => false

/-- Does the event write stream register a. -/
def Micro.toStream (a : Nat) : Micro → Bool
  | .land (.stream d _) => d == a
  | _ => false

/-- A result that a bundle before count n produces is still on its way (R237): a read is early. DESIGN CHOICE: also where a newer, shorter
    result has landed in the register since (log 70). -/
def Core.early (k : Core) (n : Nat) (p : Micro → Bool) : Bool := k.queue.any (fun d => d.issued < n && p d.what)

/-- An event put in the queue; events of one count keep the order of issue. -/
def Core.push (k : Core) (at_ issued : Nat) (w : Micro) : Core := { k with queue := k.queue ++ [⟨at_, issued, w⟩] }

/-- A result readable lat counts after issue at n: it lands at the end of period n + lat − 1 (R237, R285). -/
def Core.land (k : Core) (n lat : Nat) (e : Landed) : Core := k.push (n + lat - 1) n (.land e)

/-! ### Contracts longer than the stepping allows (R298, R300) -/

/-- The contract of a table item (R285). -/
def contractOf : Nat → Nat
  | 0 => 1 | 1 => 3 | 2 => 1 | 3 => 6 | 4 => 8 | 5 => 1 | 6 => 2 | 7 => 4 | 8 => 2 | 9 => 4 | 10 => 12 | 11 => 12
  | 12 => 10 | 13 => 64 | 14 => 20 | 15 => 2 | 16 => 8 | 17 => 4 | 18 => 3 | 19 => 12 | 20 => 2 | 21 => 4
  | 22 => 6 | 23 => 2 | _ => 3

/-- Item i counted from count n (its contract plus extra): where its excess is not 0, no count passes from its contract's end on
    until that many STEPPING periods have passed since (R300). Items whose waits overlap wait together, so stalls count once. -/
def Core.contract (k : Core) (f : Fuse) (i n extra : Nat) : Core :=
  if f.excessOf i = 0 then k else { k with stallDue := k.stallDue ++ [(n + contractOf i + extra, k.stall + f.excessOf i)] }

/-- An item due at or before the core's present count is not physically ready (R300). -/
def Core.stepping (k : Core) : Bool := k.stallDue.any (fun e => decide (e.1 ≤ k.sched) && decide (k.stall < e.2))

/-- The core's count waits for an item or for the hold cycles that a STEP adds in debug mode (R300, R302). -/
def Core.stalls (k : Core) : Bool := (k.pause != 0 && decide (k.pauseFrom ≤ k.sched)) || k.stepping

/-! ### Hazards (R304, R305) -/

/-- The index of the bundle that issued at a count of the run: one of the trail, or the present one. -/
def Core.bundleOf (k : Core) (issued : Nat) : Nat := match k.trail.find? (fun e => e.1 == issued) with
  | some e => e.2
  | none => k.pc

/-- A hazard at count n that the bundle issued at a count revealed, recorded in debug mode only. -/
def Core.hazardOf (k : Core) (debug : Bool) (n issued kind detail : Nat) : Core :=
  if debug then
    { k with
      hazardCount := min (k.hazardCount + 1) (2 ^ 64 - 1)
      cond := setBit k.cond 4
      hazard := if bitOf k.hazard.toNat 31 then k.hazard
                else BitVec.ofNat 64 (n % 2 ^ 32 * 2 ^ 32 + 2 ^ 31 + kind * 2 ^ 24 + k.bundleOf issued)
      hazardDetail := if bitOf k.hazard.toNat 31 then k.hazardDetail else BitVec.ofNat 32 detail }
  else k

/-- A hazard that the bundle at count n reveals as it issues. -/
def Core.hazardAt (k : Core) (debug : Bool) (n kind detail : Nat) : Core := k.hazardOf debug n n kind detail

/-- EARLY_READ on a scalar register, slot, mask or stream register (R304). -/
def Core.checkRead (debug : Bool) (n cls num : Nat) (k : Core) : Core :=
  let p := match cls with
    | 0 => Micro.toS num
    | 1 => Micro.toSlot num
    | 2 => Micro.toMask num
    | _ => Micro.toStream num
  if k.early n p then k.hazardAt debug n 3 (cls * 2 ^ 12 + num) else k

/-- EARLY_READ on a slot's lane, or on all its lanes. -/
def Core.checkLane (debug : Bool) (n : Nat) (k : Core) (x : Nat × Option Nat) : Core :=
  if k.early n (Micro.toLane x.1 x.2) then k.hazardAt debug n 3 (2 ^ 12 + x.1) else k

/-- The reads of one instruction checked one by one. -/
def Core.checkReads (k : Core) (debug : Bool) (n : Nat) (l : List (Nat × Nat)) : Core :=
  l.foldl (fun k p => Core.checkRead debug n p.1 p.2 k) k

/-! ### Registers -/

/-- Scalar register r as a bundle at count n reads it: S0 is 0 (R230); an early read is free (R237). -/
def Core.readS (k : Core) (fr c n r : Nat) : W64 :=
  if r = 0 then 0
  else if k.early n (Micro.toS r) then free64 fr (site n c r)
  else Sparse.get 0 k.sregs r

/-- Scalar register r set; S0 is not (R230). -/
def Core.writeS (k : Core) (r : Nat) (v : W64) : Core :=
  if r = 0 then k else { k with sregs := Sparse.set 0 k.sregs r v }

/-- Stream register a (R237). -/
def Core.readStream (k : Core) (fr c n a : Nat) : Stream :=
  if k.early n (Micro.toStream a) then
    let f := free64 fr (site n c (64 + a))
    { base := f.toNat % 2 ^ 25, rowPitch := free32 fr (site n c (96 + a)), arrayPitch := free32 fr (site n c (128 + a)),
      fmt := (free32 fr (site n c (160 + a))).toNat % 32 }
  else Sparse.get {} k.streams a

/-- Mask register m: MK0 is all ones (R165). -/
def Core.readMask (k : Core) (fr c n m : Nat) : BitVec 128 :=
  if m = 0 then BitVec.allOnes 128
  else if k.early n (Micro.toMask m) then
    (free64 fr (site n c (192 + m))) ++ (free64 fr (site n c (200 + m)))
  else Sparse.get 0 k.masks m

/-- Lane i of slot v (R168, R237). -/
def Core.lane (k : Core) (fr c n v i : Nat) : W32 :=
  if k.early n (Micro.toLane v (some i)) then free32 fr (site n c (1024 + v * 128 + i))
  else Sparse.get 0 k.pail (v * 128 + i)

/-- The Pail's slot v marked or not (R193). -/
def Core.slotPoison (k : Core) (v : Nat) : Bool := Sparse.get false k.pailPoison v

/-- A marked slot read: FIRST_SLOT holds the lowest of the first period (R193, R618). -/
def Core.slotParity (k : Core) (v : Nat) : Core :=
  let first := !bitOf k.vecErr 0
  { k with
    vecErr := if first || (k.vecNow && decide (v < k.vecErr / 2 ^ 16)) then setBit (k.vecErr % 2 ^ 16) 0 + v * 2 ^ 16 else k.vecErr
    vecNow := k.vecNow || first
    cond := setBit k.cond 0 }

/-- Is the mask marked (R193). MK0 holds no bits. -/
def Core.maskPois (k : Core) (m : Nat) : Bool := m != 0 && Sparse.get false k.maskPoison m

/-- An error of a transfer on queue q: kind 0 ADDR_ERR, 1 DESC_ERR, 2 POISON; the first records its queue and TAG. -/
def Core.ladleFail (k : Core) (q kind tag : Nat) : Core :=
  let first := k.ladleErr % 2 ^ 24 = 0
  let lower := k.ladleNow && decide (q < k.ladleErr / 2 ^ 24 % 8)
  { k with
    ladleErr := if first then 2 ^ (8 * kind + q) + q * 2 ^ 24
      else if lower then setBit (k.ladleErr % 2 ^ 24 + q * 2 ^ 24) (8 * kind + q) else setBit k.ladleErr (8 * kind + q)
    ladleErrTag := if first || lower then tag else k.ladleErrTag
    ladleNow := k.ladleNow || first }

/-! ### Issue -/

/-- The program in force was bound in debug mode (R301). -/
def State.debug (s : State) : Bool := match s.prog with
  | some p => p.debug
  | none => false

/-- Core c issues the bundle at count n: it runs, is not held, idle, ended, stalled or at a loop's expiry, and its region has a
    period that has not passed on the core yet (R280). -/
def State.issues (s : State) (n c : Nat) : Bool :=
  let k := s.core c
  s.fuse.active c && k.issuing && !k.ended && k.sched == n && k.stopped == none && k.idle == 0 && !k.loopDone
    && !k.ticked && !k.stalls && s.clockTicks c

/-- Every core that issues the bundle at count n, changed by f. -/
def State.issue (s : State) (n : Nat) (f : State → Nat → Core → Core) : State :=
  { s with
    cores := Sparse.ofFn {} Config.nPhys (fun c => if s.issues n c then f s c (s.core c) else s.core c)
    free := s.free + 1
    noProgress := 0 }

end Sys2Proof.Machine
end

