-- ==== Sys2Proof/Machine/Fetch.lean ====
section
/-! DEFINITION. The bundles that the cores fetch, and the encoding of every slot's instruction (08 R234 to R265): an instruction is the
command of a slot of the bundle at the cores' program counters. -/

namespace Sys2Proof.Machine

/-! ### Slots of a bundle (R234) -/

/-- The matrix slot of a bundle (R234). -/
def slotMatrix (b : Nat) : Nat := b % 2 ^ 56
/-- The vector slot. -/
def slotVector (b : Nat) : Nat := b / 2 ^ 56 % 2 ^ 72
/-- The scalar slot. -/
def slotScalar (b : Nat) : Nat := b / 2 ^ 128 % 2 ^ 48
/-- The move slot. -/
def slotMove (b : Nat) : Nat := b / 2 ^ 176 % 2 ^ 40
/-- The sync slot. -/
def slotSync (b : Nat) : Nat := b / 2 ^ 216 % 2 ^ 40

/-- A slot's word. -/
inductive SlotWord where
  | matrix (w : Nat)
  | vector (w : Nat)
  /-- A mask operation: MK and ZERO, which it ignores, may hold anything (R246). -/
  | maskOp (w : Nat)
  | scalar (w : Nat)
  | move (w : Nat)
  | sync (w : Nat)
  /-- A NOP in some slot (R235); any: whatever the bundle holds. -/
  | nop (any : Bool)
  deriving DecidableEq, Repr

/-- Does the bundle hold the slot word. -/
def SlotWord.heldBy (b : Nat) : SlotWord → Bool
  | .matrix w => slotMatrix b == w
  | .vector w => slotVector b == w
  | .maskOp w => slotVector b - slotVector b / 2 ^ 16 % 16 * 2 ^ 16 == w
  | .scalar w => slotScalar b == w
  | .move w => slotMove b == w
  | .sync w => slotSync b == w
  | .nop any => any || slotMatrix b == 0 || slotVector b == 0 || slotScalar b == 0 || slotMove b == 0 || slotSync b == 0

/-- The bundle at a program counter of the program in force. -/
def State.bundleAt (s : State) (pc : Nat) : Nat := match s.prog with
  | some p => (Sparse.get 0 p.bundles pc).toNat
  | none => 0

/-- Some core issues the bundle at count n, and the bundle of every core that does holds the slot word (R234, R280). -/
def State.fetches (s : State) (n : Nat) (w : SlotWord) : Bool :=
  let cs := (List.range Config.nPhys).filter (s.issues n)
  !cs.isEmpty && cs.all (fun c => w.heldBy (s.bundleAt (s.core c).pc))

/-- The outcome of a slot's instruction where the bundle at count n holds it; else nothing happens. -/
def fetched (s : State) (n : Nat) (w : SlotWord) (o : Host.Outcome State Fault Refusal) : Host.Outcome State Fault Refusal :=
  if s.clk.lost || !s.fetches n w then .next s else o

/-! ### Encodings -/

/-- A vector source's 17 bits (R244). -/
def VSrc.word (v : Sys2Proof.VSrc) : Nat := v.slot + v.ls.toNat * 2 ^ 9 + v.sel * 2 ^ 10

/-- The vector slot of opcode op (R244, R245). -/
def vWord (op : Nat) (v : VFields) : SlotWord :=
  .vector (op + v.vd * 2 ^ 7 + v.mask * 2 ^ 16 + v.zero.toNat * 2 ^ 19 + VSrc.word v.va * 2 ^ 20 + VSrc.word v.vb * 2 ^ 37 + VSrc.word v.vc * 2 ^ 54)

/-- A mask operation on masks or on a scalar register in the field of source A (R245, R246). -/
def mWord (op md a b : Nat) : SlotWord := .maskOp (op + md * 2 ^ 7 + a * 2 ^ 20 + b * 2 ^ 37)

/-- Register form (R248). -/
def rWord (op sd sa sb : Nat) : SlotWord := .scalar (op + sd * 2 ^ 6 + sa * 2 ^ 11 + sb * 2 ^ 16)

/-- Immediate form. -/
def iWord (op sd sa imm : Nat) : SlotWord := .scalar (op + sd * 2 ^ 6 + sa * 2 ^ 11 + imm * 2 ^ 16)

/-- Branch form. -/
def bWord (op sa sb target : Nat) : SlotWord := .scalar (op + sa * 2 ^ 11 + sb * 2 ^ 16 + target * 2 ^ 24)

/-- MOP (R239). -/
def mopWord (mode arrays : Nat) (acc : Bool) (rows as bs ut stride su : Nat) : SlotWord :=
  .matrix (1 + mode * 2 ^ 4 + arrays * 2 ^ 6 + acc.toNat * 2 ^ 10 + rows * 2 ^ 11 + as * 2 ^ 23 + bs * 2 ^ 27 + ut * 2 ^ 31 + stride * 2 ^ 35 + su * 2 ^ 46)

/-- FILL (R256). -/
def fillWord (slot : Nat) (laneBase c128 : Bool) (fmt sa : Nat) : SlotWord :=
  .move (1 + slot * 2 ^ 5 + laneBase.toNat * 2 ^ 14 + c128.toNat * 2 ^ 15 + fmt * 2 ^ 16 + sa * 2 ^ 21)

/-- STORE. -/
def storeWord (tmpl sa src sb : Nat) (loc : Bool) (sem : Nat) (sig : Bool) : SlotWord :=
  .move (2 + tmpl * 2 ^ 5 + sa * 2 ^ 11 + src * 2 ^ 16 + sb * 2 ^ 25 + loc.toNat * 2 ^ 30 + sem * 2 ^ 31 + sig.toNat * 2 ^ 39)

/-- MOVSV (3) and MOVVS (4). -/
def movWord (op slot lane r : Nat) : SlotWord := .move (op + slot * 2 ^ 5 + lane * 2 ^ 14 + r * 2 ^ 21)

/-- SETAS. -/
def setasWord (as sa sb sc fmt : Nat) : SlotWord := .move (5 + as * 2 ^ 5 + sa * 2 ^ 9 + sb * 2 ^ 14 + sc * 2 ^ 19 + fmt * 2 ^ 24)

/-- MPOP. -/
def mpopWord (mask sd : Nat) : SlotWord := .move (6 + mask * 2 ^ 5 + sd * 2 ^ 8)

/-- SEMWAIT (1), SEMADD (2), SEMSUB (3): GLOBAL, INDEX, SA, IMM16 (R260). -/
def semWord (op : Nat) (glob : Bool) (idx sa imm : Nat) : SlotWord := .sync (op + glob.toNat * 2 ^ 5 + idx * 2 ^ 6 + sa * 2 ^ 16 + imm * 2 ^ 21)

/-- RSEMADD (4), RSEMSUB (5). -/
def rsemWord (op : Nat) (glob : Bool) (idx sa sb : Nat) : SlotWord := .sync (op + glob.toNat * 2 ^ 5 + idx * 2 ^ 6 + sa * 2 ^ 16 + sb * 2 ^ 21)

/-- STEP. -/
def stepWord (retStart : Bool) (rt : Nat) : SlotWord := .sync (8 + retStart.toNat * 2 ^ 5 + rt * 2 ^ 6)

/-- LDI. -/
def ldiWord (q sa : Nat) : SlotWord := .sync (9 + q * 2 ^ 5 + sa * 2 ^ 8)

end Sys2Proof.Machine
end

