-- ==== Sys2Proof/Machine/Routes.lean ====
section
/-! DEFINITION. The mesh's routers: attachment, ports, routes, and the routes that a stopped region holds up (15 R452 to R463, 16 R518).
Sets of routers are words of 160 bits, one per physical core. -/

namespace Sys2Proof.Machine

/-- A set of routers. -/
abbrev Routers := BitVec 160

/-- Router of mesh coordinates (x, y). -/
def routerAt (x y : Nat) : Nat := 16 * y + x

/-- Row of an edge block's quarter. -/
def edgeRow (q : Nat) : Nat := 5 * (q / 2)

/-- Column of an edge block's quarter. -/
def edgeCol (q : Nat) : Nat := if q % 2 = 0 then 0 else 15

/-- Router of stack k (R453). -/
def stackRouter (k : Nat) : Nat := if k < 4 then routerAt (4 * k + 2) 0 else routerAt (4 * (k - 4) + 2) 9

/-- Router of Bulk tank channel c (R453). -/
def bulkRouter (c : Nat) : Nat := let q := [0, 2, 1, 3].getD (c / 4) 0; routerAt (edgeCol q) (edgeRow q + c % 4)

/-- Router of Griby port n (R453). -/
def gribyRouter (n : Nat) : Nat := routerAt (edgeCol (n / 6)) (edgeRow (n / 6) + 5 * (n % 6) / 6)

/-- The attachment routers of R453. -/
def attachments : List Nat :=
  (List.range 8).map stackRouter ++ (List.range 16).map bulkRouter ++ (List.range 24).map gribyRouter
  ++ (List.range 4).map (fun q => routerAt (edgeCol q) (edgeRow q + 2))
  ++ (List.range 4).map (fun u => routerAt (6 + u) 0) ++ [routerAt 7 0, routerAt 7 9, routerAt 8 9]

/-- The set of a list of routers. -/
def routerSet (l : List Nat) : Routers := l.foldl (fun m r => m ||| (1#160 <<< r)) 0

/-- Routers of column x. -/
def columnSet (x : Nat) : Routers := routerSet ((List.range 10).map (fun y => routerAt x y))

/-- A set with its neighbours, within the good routers (R452). -/
def spread (good m : Routers) : Routers :=
  (m ||| (m <<< 16) ||| (m >>> 16) ||| ((m &&& ~~~(columnSet 15)) <<< 1) ||| ((m &&& ~~~(columnSet 0)) >>> 1)) &&& good

/-- f of a set, with the set's number worked out first. -/
def evaluated {α : Type} (m : Routers) (f : Routers → α) : α := match m.toNat with
  | 0 => f 0
  | k + 1 => f (BitVec.ofNat 160 (k + 1))

/-- Routers within k hops of a set. -/
def within (good : Routers) : Nat → Routers → Routers
  | 0, m => m
  | k + 1, m => evaluated (spread good m) (within good k)

/-- The routers that have not failed (R461). -/
def State.goodRouters (s : State) : Routers := ~~~(s.fuse.routerFail ||| s.meshRegs.decl)

/-- The good router with the lowest core ID: the root of the up-down rule (R462). -/
def rootOf (good : Routers) : Nat := ((List.range 160).find? (fun r => good.getLsbD r)).getD 0

/-! ### Routes (R462) -/

/-- The neighbours of a router, lowest ID first. -/
def neighbours (r : Nat) : List Nat :=
  (if r < 16 then [] else [r - 16]) ++ (if r % 16 = 0 then [] else [r - 1]) ++ (if r % 16 = 15 then [] else [r + 1])
    ++ (if 144 ≤ r then [] else [r + 16])

/-- Level of a good router: its hop distance from the root (R462). -/
def levelOf (good : Routers) (r : Nat) : Nat :=
  ((List.range 160).find? (fun k => (within good k (routerSet [rootOf good])).getLsbD r)).getD 160

/-- A hop from a to b goes up (R462). -/
def goesUp (good : Routers) (a b : Nat) : Bool :=
  decide (levelOf good b < levelOf good a) || (levelOf good b == levelOf good a && decide (b < a))

/-- A legal path of at most k hops leads from a to d; up: it may still go up. -/
def legalPath (good : Routers) (d : Nat) : Nat → Nat → Bool → Bool
  | 0, a, _ => a == d
  | k + 1, a, up => a == d || (neighbours a).any (fun b => good.getLsbD b
      && (if goesUp good a b then up && legalPath good d k b true else legalPath good d k b false))

/-- The next router and whether the route may still go up, on the shortest legal path from a to d, the lowest-numbered where
    several tie (R462). -/
def upDownHop (good : Routers) (d a : Nat) (up : Bool) : Option (Nat × Bool) :=
  match (List.range 320).find? (fun k => legalPath good d k a up) with
  | some (k + 1) => ((neighbours a).find? (fun b => good.getLsbD b
      && (if goesUp good a b then up && legalPath good d k b true else legalPath good d k b false))).map (fun b => (b, up && goesUp good a b))
  | _ => none

/-- The next router from a to d with no router failed: in x, then in y (R462). -/
def xyHop (a d : Nat) : Nat :=
  if a % 16 < d % 16 then a + 1 else if d % 16 < a % 16 then a - 1
  else if a / 16 < d / 16 then a + 16 else if d / 16 < a / 16 then a - 16 else a

/-- The next router on the service route (R462). -/
def State.nextHop (s : State) (d a : Nat) (up : Bool) : Option (Nat × Bool) :=
  if s.goodRouters = BitVec.allOnes 160 then some (xyHop a d, true) else upDownHop s.goodRouters d a up

/-- The routers of the service route from a to d, both with it, k hops at most. -/
def State.routeFrom (s : State) (d : Nat) : Nat → Nat → Bool → List Nat
  | 0, a, _ => [a]
  | k + 1, a, up =>
    if a = d then [a]
    else match s.nextHop d a up with
      | some (b, up') => a :: s.routeFrom d k b up'
      | none => [a]

/-! ### Ports (R453, R518) -/

/-- The port of the mesh that serves an address: a core's, a stack's, a Bulk tank channel's (R201, R360, R361); toward a peer one per
    window, toward the host one per 256-byte unit, since the spec names neither (log 75). -/
def portOf (a : Nat) : Nat :=
  if inSpad a then (a - 0x20000000000) / 0x04000000
  else if a < 0x0C000000000 then 200 + a / 0x1800000000
  else if a < 0x20000000000 then 210 + a / 4096 % 16
  else if inPeer a then 230 + (a - 0x400000000000) / 0x40000000000
  else 1000 + a / 256

/-- The router at which a port attaches; none for a port that stands for several attachments (R453, log 75). -/
def portRouter (p : Nat) : Option Nat :=
  if p < 160 then some p
  else if p < 200 then none
  else if p < 208 then some (stackRouter (p - 200))
  else if p < 210 then none
  else if p < 226 then some (bulkRouter (p - 210))
  else if p < 400 then none
  else if p < 424 then some (gribyRouter (p - 400))
  else none

/-- Router r lies in a region whose clock is stopped for a stopped change. -/
def State.routerStopped (s : State) (r : Nat) : Bool := (s.region (regionOf r)).stopped

/-- The router that serves an address stands in a stopped region: what goes there waits (R518). -/
def State.portStopped (s : State) (a : Nat) : Bool := ((portRouter (portOf a)).map s.routerStopped).getD false

/-- The route between two ports leads through a stopped region: what travels on it waits (R518). Of a port without a router of its own
    nothing is known, and the other end decides. -/
def State.routeStopped (s : State) (src dst : Nat) : Bool :=
  (List.range 16).any (fun r => (s.region r).stopped) &&
  (match portRouter src, portRouter dst with
    | some a, some d => (s.routeFrom d 160 a true).any s.routerStopped
    | some a, none => s.routerStopped a
    | none, some d => s.routerStopped d
    | none, none => false)

/-- The controller of a semaphore stands in a stopped region: the hub's, for core 255, in region 0, or the core's (R518). -/
def State.semStopped (s : State) (core : Nat) : Bool :=
  (core == 255 && (s.region 0).stopped) || (decide (core < 160) && !s.clocked core)

end Sys2Proof.Machine
end

