-- ==== Sys2Proof/Machine/RingOps.lean ====
section
/-! DEFINITION. Records, event rings, interrupt messages, delivery and completion of commands (17, 18 R555 to
R562, R587). -/

namespace Sys2Proof.Machine

/-! ### Rings -/

/-- Command ring r. -/
def State.cring (s : State) (r : Nat) : CRing := Sparse.get {} s.crings r

/-- Command ring r replaced. -/
def State.setCring (s : State) (r : Nat) (k : CRing) : State := { s with crings := Sparse.set {} s.crings r k }

/-- Event ring e. -/
def State.ering (s : State) (e : Nat) : ERing := Sparse.get {} s.erings e

/-- Event ring e replaced. -/
def State.setEring (s : State) (e : Nat) (k : ERing) : State := { s with erings := Sparse.set {} s.erings e k }

/-! ### Records (R546 to R549, R552) -/

/-- A record without its PHASE (R546). -/
def recordBytes (kind source seq status slot tag : Nat) (detail : List Byte) : List Byte :=
  leBytes 1 0 ++ leBytes 1 kind ++ leBytes 2 source ++ leBytes 4 seq ++ leBytes 2 status ++ leBytes 2 slot ++ leBytes 4 tag
    ++ (detail ++ List.replicate 16 0).take 16

/-- Room in an enabled event ring (R551). -/
def ERing.room (e : ERing) : Bool := e.en && decide ((e.tail + 2 ^ 32 - e.head) % 2 ^ 32 < 2 ^ e.log2)

/-- A write to host memory leaves; it counts once it is acknowledged (R533). A poisoned byte marks the whole (R616). -/
def State.hostWrite (s : State) (a : Nat) (bs : List MByte) (o : Owner) : State :=
  let s' := { s with hostWrites := s.hostWrites ++ [⟨s.meshId, a, bs, o⟩], meshId := s.meshId + 1 }
  if anyMarked bs then s'.emit (.hostPoison a bs.length) else s'

/-- A record written into the next slot with its PHASE (R547). -/
def State.writeRecord (s : State) (e : Nat) (rec : List Byte) : State :=
  let k := s.ering e
  let phase : Byte := if k.tail / 2 ^ k.log2 % 2 = 0 then 1 else 0
  (s.setEring e { k with tail := (k.tail + 1) % 2 ^ 32 }).hostWrite (hostBase + k.base + 32 * (k.tail % 2 ^ k.log2))
    (markAll false (phase :: rec.drop 1)) (.record e k.tail)

/-- A record enters its event ring, or the post buffer; none where both are full (R552). -/
def State.post (s : State) (e : Nat) (rec : List Byte) : Option State :=
  let k := s.ering e
  if k.buf.isEmpty && k.room then some (s.writeRecord e rec)
  else if k.buf.length < 64 then some (s.setEring e { k with buf := k.buf ++ [rec] })
  else none

/-- An event record of a fixed source: it takes the source's next number; with the post buffer full it is discarded
    and counted (R548, R552). -/
def State.postEvent (s : State) (e kind source status : Nat) (detail : List Byte) : State :=
  let seq := Sparse.get 0 s.seqs source
  let s' := { s with seqs := Sparse.set 0 s.seqs source ((seq + 1) % 2 ^ 32) }
  match s'.post e (recordBytes kind source seq status 0 0 detail) with
  | some t => t
  | none => let k := s'.ering e
            s'.setEring e { k with lost := min (k.lost + 1) (2 ^ 64 - 1) }

/-- A command is over: the ring it held back goes on. -/
def State.endCmd (s : State) (id : Nat) : State :=
  if id = 0 then s
  else
    match s.cmds.find? (fun c => c.id == id) with
    | none => s
    | some c =>
      let r := s.cring c.ring
      let s' := { s with cmds := s.cmds.filter (fun c => c.id != id), noProgress := 0 }
      if r.blocked = some id then s'.setCring c.ring { r with blocked := none } else s'

/-- A waiting completion or ring-error record posted, if there is room (R549, R552). -/
def State.postWait (s : State) (w : WaitRec) : Option State :=
  let r := s.cring w.ring
  match s.post r.evt (recordBytes w.kind w.ring r.seq w.status w.slot w.tag w.detail) with
  | some t => some ((t.setCring w.ring { r with seq := (r.seq + 1) % 2 ^ 32 }).endCmd w.cmd)
  | none => none

/-- Waiting records posted in order of completion, those of a full event ring left waiting. -/
def flushList : List WaitRec → State → State
  | [], s => s
  | w :: t, s =>
    match s.postWait w with
    | some s' => flushList t s'
    | none => flushList t { s with waitRecs := s.waitRecs ++ [w] }

/-- Every waiting record that can be posted is. -/
def State.flush (s : State) : State := flushList s.waitRecs { s with waitRecs := [] }

/-- A record waits at its source and is posted as soon as it can be. -/
def State.addWait (s : State) (w : WaitRec) : State := { s with waitRecs := s.waitRecs ++ [w] }.flush

/-- Records leave a post buffer while the ring has room (R552). -/
def drain (e : Nat) : Nat → State → State
  | 0, s => s
  | f + 1, s =>
    let k := s.ering e
    match k.buf with
    | [] => s
    | rec :: rest =>
      if k.room then drain e f ((s.setEring e { k with buf := rest }).writeRecord e rec) else s

/-- The post buffer of ring e drained, then the records that wait at their sources, then what they let in. -/
def State.drainRing (s : State) (e : Nat) : State := drain e 64 ((drain e 64 s).flush)

/-- The record of a ring with a count is visible: an armed ring sends its message (R553). -/
def State.recordVisible (s : State) (e : Nat) : State :=
  let k := s.ering e
  if k.intEn ∧ k.armed then (s.setEring e { k with armed := false }).emit (.interrupt k.vector) else s

/-- A command ring put into error, with its record (R539, R543). -/
def State.ringError (s : State) (r err : Nat) : State :=
  let k := s.cring r
  let s' := s.setCring r { k with state := 2, err := err, descs := [] }
  s'.addWait ⟨r, 7, err, k.head % 2 ^ 16, 0, [], 0⟩

/-! ### Completion (R550, R556, R561, R562) -/

/-- The order of R562. -/
def statusRank : List Nat :=
  [0x21, 0x22, 0x20, 0x03, 0x51, 0x50, 0x30, 0x31, 0x32, 0x33, 0x02, 0x01, 0x05, 0x52]

/-- The first of the conditions found, in the order of R562; a status outside the order stands as it is. -/
def firstStatus (l : List Nat) : Nat :=
  match statusRank.find? (fun x => l.contains x) with
  | some x => x
  | none => l.headD 0

/-- Command id. -/
def State.cmd (s : State) (id : Nat) : Option Cmd := s.cmds.find? (fun c => c.id == id)

/-- Command id changed by f. -/
def State.modCmd (s : State) (id : Nat) (f : Cmd → Cmd) : State :=
  { s with cmds := s.cmds.map (fun c => if c.id = id then f c else c) }

/-- The command with its work ended and its writes acknowledged makes its record (R550). -/
def State.tryPost (s : State) (id : Nat) : State :=
  match s.cmd id with
  | some c =>
    match c.ended with
    | some d =>
      if c.outst = 0 ∧ !c.posting then
        let s' := s.modCmd id (fun c => { c with posting := true })
        s'.addWait ⟨c.ring, 1, firstStatus c.found, c.count % 2 ^ 16, fieldAt c.desc 4 4, d, id⟩
      else s
    | none => s
  | none => s

/-- A command's work ends with conditions and DETAIL bytes. -/
def State.complete (s : State) (id : Nat) (found : List Nat) (detail : List Byte) : State :=
  (s.modCmd id (fun c => { c with found := c.found ++ found, ended := some detail })).tryPost id

/-! ### Delivery (R541 to R544, R556, R557) -/

/-- Bytes o to o + n - 1 of the descriptor are zero. -/
def zeroAt (d : Desc) (o n : Nat) : Bool := fieldAt d o n == 0

/-- The rows of the table of operations that a descriptor can belong to: its class, KIND or OP; none for a reserved
    class, which is refused with DESC_ERROR (R556, R557). -/
inductive Row where
  | bind | replace | run | ladle | ingest | stirrer | press | groupLoad | shardLoad | semWait | semAdd | semSub | switch_
  | calRead | calWrite | loopback | gauge | fence
  deriving DecidableEq, Repr

/-- The row of a descriptor. -/
def rowOf (d : Desc) : Option Row :=
  let op := fieldAt d 8 1
  match fieldAt d 0 1 with
  | 0x01 => some (if bitOf (fieldAt d 42 1) 1 then .replace else .bind)
  | 0x02 => some .run
  | 0x03 => some .ladle
  | 0x04 => some .ingest
  | 0x05 => some .stirrer
  | 0x06 => some .press
  | 0x07 => if op = 0 then some .groupLoad else if op = 1 then some .shardLoad else none
  | 0x08 => if op = 0 then some .semWait else if op = 1 then some .semAdd else if op = 2 then some .semSub else none
  | 0x09 => some .switch_
  | 0x0A => if op = 1 then some .calRead else if op = 2 then some .calWrite else if op = 3 then some .loopback
            else if op = 4 then some .gauge else none
  | 0x0B => some .fence
  | _ => none

/-- A Churn or mesh loop-back is in progress; it counts as a run (R583). -/
def State.laneTest (s : State) : Bool :=
  s.cmds.any (fun c => fieldAt c.desc 0 1 == 0x0A && fieldAt c.desc 8 1 == 3 && decide (4 ≤ fieldAt c.desc 9 1) && c.ended.isNone)

/-- No run, bind, re-placement or context switch is in progress (R544). -/
def State.planeFree (s : State) : Bool := s.run.isNone && s.ctx.isNone && s.replacing.isNone && !s.laneTest

/-- The present context has ended and the next has not started (R321, R322): no transfer starts, semaphores refuse. -/
def State.switching (s : State) : Bool := match s.ctx with
  | some x => x.stepDown != 1
  | none => false

/-- All regions run at one step (R519). -/
def State.mixed (s : State) : Bool :=
  (List.range 16).any (fun r => (Sparse.get {} s.regions r).step != (Sparse.get {} s.regions 0).step
    || (Sparse.get {} s.regions r).stopped)

/-- A synchronised change stands between its hold and its release (R514). -/
def State.changeHolds (s : State) : Bool := match s.clk.change with
  | some c => 2 ≤ c.stage
  | none => false

/-- The program in force was bound in debug mode and a region still runs at STEP 0 (R302). -/
def State.tooFast (s : State) : Bool := (match s.prog with
    | some p => p.debug
    | none => false) && (List.range 16).any (fun r => (Sparse.get {} s.regions r).step == 0)

/-- A run may start (R302, R514, R519, R544). -/
def State.runGate (s : State) : Bool := s.planeFree && !s.mixed && !s.changeHolds && !s.tooFast

/-- The run is held under SEM_WAIT: every active core has stopped and a wait is unmet; a context switch or a bind may end it (R323, R330,
    log 46). -/
def State.heldByWait (s : State) : Bool :=
  s.run.isSome && s.hold.release.isNone && s.fuse.ring.all (fun c => (Sparse.get {} s.cores c).stopped.isSome)
    && s.fuse.ring.any (fun c => !(Sparse.get {} s.cores c).waits.isEmpty)

/-- A bind or a context switch may be delivered (R514, R544); a re-placement only between runs (R354). -/
def State.contextGate (s : State) : Bool :=
  (s.run.isNone || s.heldByWait) && s.ctx.isNone && s.replacing.isNone && !s.laneTest && !s.changeHolds

/-- A calibration-and-test command is in progress (R556). -/
def State.calBusy (s : State) : Bool := s.cmds.any (fun c => fieldAt c.desc 0 1 == 0x0A && c.ended.isNone)

/-- May the head command of a ring be delivered now, as its class says (R354, R541, R556). pressOk: a job slot, and a
    trigger entry where the descriptor asks for one, are free. -/
def State.ready (s : State) (pressOk : Desc → Bool) (d : Desc) : Bool :=
  match rowOf d with
  | some .bind | some .switch_ => s.contextGate
  | some .replace => s.planeFree && !s.changeHolds
  | some .run => s.runGate
  | some .press => pressOk d && s.replacing.isNone
  | some .ladle | some .ingest => s.replacing.isNone
  | some .loopback => !s.calBusy && (fieldAt d 9 1 < 4 || s.runGate)
  | some .calRead | some .calWrite | some .gauge => !s.calBusy
  | _ => true

/-- The head descriptor of a running ring that no delivered command blocks. -/
def CRing.headOk (k : CRing) : Option Desc := if k.en ∧ k.state = 1 ∧ k.blocked = none then k.descs.head? else none

/-- A job slot, and a trigger entry where one is asked for, are free (R326, R431). -/
def State.pressRoom (s : State) (d : Desc) : Bool :=
  decide (s.press.jobs.length < 256)
  && (!bitOf (fieldAt d 12 2) 10 || decide ((s.press.jobs.filter (fun j => j.armed)).length < 256))

/-- Rings whose head can be delivered, in the order of service: PRIO = 1 first, round-robin within a level (R542). -/
def State.served (s : State) : List Nat :=
  let can := fun (r : Nat) => match (s.cring r).headOk with
    | some d => s.ready s.pressRoom d
    | none => false
  let level := fun (p : Bool) (t : Nat) =>
    ((List.range 64).map (fun i => (t + 1 + i) % 64)).filter (fun r => (s.cring r).prio == p && can r)
  level true s.turn.1 ++ level false s.turn.2

/-- The head command of ring r is delivered: HEAD moves past it (R541); its command, and the state. -/
def State.takeHead (s : State) (r : Nat) (d : Desc) : State × Nat :=
  let k := s.cring r
  let c : Cmd := { id := s.cmdId, ring := r, count := k.head, desc := d }
  let s' := s.setCring r { k with head := (k.head + 1) % 2 ^ 32, descs := k.descs.drop 1 }
  ({ s' with
      cmds := s'.cmds ++ [c], cmdId := s'.cmdId + 1, noProgress := 0
      turn := if k.prio then (r, s'.turn.2) else (s'.turn.1, r) }, s.cmdId)

/-- Head commands of reserved classes, in their turn, are refused with DESC_ERROR (R557). -/
def refuseReserved : Nat → State → State
  | 0, s => s
  | f + 1, s =>
    match s.served with
    | [] => s
    | r :: _ =>
      match (s.cring r).headOk with
      | none => s
      | some d =>
        if rowOf d = none then
          let t := s.takeHead r d
          refuseReserved f (t.1.complete t.2 [1] [])
        else s

/-- Delivery of ring r's head command where it belongs to a row, is ready and is first in the order of service;
    then f, with the command's number; else nothing happens (R541, R542). -/
def State.deliver (s : State) (r : Nat) (row : Row) (f : State → Desc → Nat → State) : State :=
  let s := refuseReserved 512 s
  match s.served.head?, (s.cring r).headOk with
  | some r', some d =>
    if r' = r ∧ rowOf d = some row then
      let t := s.takeHead r d
      f t.1 d t.2
    else s
  | _, _ => s

/-- A delivered command blocks its ring (R541). -/
def State.block (s : State) (id : Nat) : State :=
  match s.cmd id with
  | some c =>
    let k := s.cring c.ring
    s.setCring c.ring { k with blocked := some id }
  | none => s

/-- DETAIL bytes from fields of given sizes. -/
def detailOf (l : List (Nat × Nat)) : List Byte := l.flatMap (fun p => leBytes p.1 p.2)

/-! ### Semaphore-wait commands (R316) -/

/-- Value of the local semaphore that a semaphore-operation descriptor names (R577). -/
def State.namedSem (s : State) (d : Desc) : Nat :=
  let idx := fieldAt d 10 2
  if fieldAt d 9 1 = 1 then Sparse.get 0 s.gsems idx else Sparse.get 0 (s.core (fieldAt d 16 1)).sems idx

/-- Wait commands whose condition is met complete with the value that met it (R316, R587); one on a semaphore of a stopped region waits
    (R518). -/
def State.waitsMet (s : State) : State :=
  (s.cmds.filter (fun c => rowOf c.desc == some .semWait && c.ended.isNone)).foldl (fun s c =>
    if fieldAt c.desc 12 4 ≤ s.namedSem c.desc ∧ !s.semStopped (fieldAt c.desc 16 1) then s.complete c.id [] (leBytes 4 (s.namedSem c.desc)) else s) s

end Sys2Proof.Machine
end

