-- ==== Sys2Proof/Machine/Matrix.lean ====
section
/-! DEFINITION. Array operations: element streams, the three modes, tables, accumulator rows (03, 04, 11). -/

namespace Sys2Proof.Machine

/-! ### Elements in bytes (R31, R32) -/

/-- Element i of packed elements of an element code. -/
def elemAt (code : Nat) (bs : List Byte) (i : Nat) : Nat :=
  let b := elemBits code
  leAt bs (i * b / 8) 5 / 2 ^ (i * b % 8) % 2 ^ b

/-- Bytes of n packed elements. -/
def packedBytes (code n : Nat) : Nat := (n * elemBits code + 7) / 8

/-- Line bytes LB (R135). -/
def lineBytes (code : Nat) : Nat := 8 * elemBits code

/-- Packed bytes of a list of element words. -/
def packElems (code : Nat) (ws : List Nat) : List Byte :=
  let b := elemBits code
  let v := ws.foldr (fun w acc => acc * 2 ^ b + w % 2 ^ b) 0
  leBytes ((ws.length * b + 7) / 8) v

/-! ### Operand pairs (R46, R71, R114) -/

/-- Is the format a floating pair operand of 8 bits: FP8, plain or MX. -/
def isFp8 (f : Nat) : Bool := f % 16 == 3 || f % 16 == 4
/-- FP6 or FP4, plain or MX. -/
def isFp64 (f : Nat) : Bool := f % 16 == 5 || f % 16 == 6 || f % 16 == 7

/-- The pair of R46: some true for INT32 accumulation, some false for FP32, none where it is refused. -/
def pairKind (a b : Nat) : Option Bool :=
  if a = b ∧ (a = 0 ∨ a = 1 ∨ a = 2 ∨ a = 0x18) then some false
  else if (isFp8 a && (isFp8 b || isFp64 b)) || (isFp64 a && (isFp8 b || isFp64 b)) then some false
  else if (a = 8 ∧ (b = 8 ∨ b = 9)) ∨ (a = 9 ∧ (b = 8 ∨ b = 9)) then some true
  else none

/-- Tiles per weight load unit (R70); none where the code has no unit. -/
def tilesPerUnit (fmt : Nat) : Option Nat :=
  match fmt % 16 with
  | 0 => some 1 | 1 => some 1 | 2 => some 1 | 3 => some 2 | 4 => some 2 | 5 => some 4 | 6 => some 4 | 7 => some 4
  | 8 => some 2 | 9 => some 4 | _ => none

/-- Lane beats T of a unit of the format (R70). -/
def laneBeats (fmt : Nat) : Nat :=
  match fmt % 16 with
  | 0 => 128 | 5 => 96 | 6 => 96 | _ => 64

/-- Cycles per activation row (R71). -/
def rowCycles (w a : Nat) : Nat :=
  if w % 16 = 0 then 8
  else if isFp64 w ∧ isFp8 a then 2
  else if w = 9 ∧ a = 8 then 2
  else 1

/-- Batch rows per cycle in OP mode; 0 stands for one row in 8 cycles (R114). -/
def opRate (a b : Nat) : Nat :=
  if a % 16 = 0 then 0
  else if elemBits (a % 16) = 16 then 1
  else if elemBits (a % 16) = 8 ∨ elemBits (b % 16) = 8 then 2
  else 4

/-! ### Placed tensors and scales (R136 to R144, R337) -/

/-- The tensor of a handle. -/
def Prog.tensor (p : Prog) (h : Nat) : Option Placed := p.tensors.find? (fun t => t.desc.handle == h)

/-- The table with number ut. -/
def Prog.table (p : Prog) (ut : Nat) : Option Table := p.tables.find? (fun t => t.ut == ut)

/-- ⌈a/b⌉. -/
def ceilDiv (a b : Nat) : Nat := (a + b - 1) / b

/-- Product of a list. -/
def prod (l : List Nat) : Nat := l.foldl (· * ·) 1

/-- Stored line count of one data copy of a local part (R136, R139). -/
def copyLines (layout : Nat) (dims : List Nat) : Nat :=
  let n := dims.length
  let c := ceilDiv (dims.getD (n - 1) 1) 64
  if layout = 0 then prod (dims.take (n - 1)) * c
  else prod (dims.take (n - 2)) * ceilDiv (dims.getD (n - 2) 1) 64 * c * 64

/-- Bytes of one data copy (R337). -/
def copyBytes (layout fmt : Nat) (dims : List Nat) : Nat := copyLines layout dims * lineBytes (fmt % 16)

/-- Indices of the outer dimensions of an outer number, last dimension fastest. -/
def outerIdx : List Nat → Nat → List Nat
  | [], _ => []
  | d :: t, n => n / prod t % d :: outerIdx t n

/-- Linear number of outer indices. -/
def outerNum (dims idx : List Nat) : Nat := (dims.zip idx).foldl (fun a p => a * p.1 + p.2) 0

/-- Offset in the scale plane of the byte that scales element e of line l (R142 to R144); axis: the blocked
    dimension. -/
def scaleOffset (layout : Nat) (dims : List Nat) (axis l e : Nat) : Nat :=
  let n := dims.length
  if layout = 1 then
    if axis + 1 = n then 128 * (l / 64) + 2 * (l % 64) + e / 32
    else 128 * (l / 64) + 2 * e + l % 64 / 32
  else if axis + 1 = n then 2 * l + e / 32
  else
    let cb := ceilDiv (dims.getD (n - 1) 1) 64
    let idx := outerIdx (dims.take (n - 1)) (l / cb)
    let idx := idx.set axis (idx.getD axis 0 / 32)
    let sd := (dims.take (n - 1)).set axis (ceilDiv (dims.getD axis 1) 32)
    (outerNum sd idx * cb + l % cb) * 64 + e

/-- Bytes of the scale plane of one copy (R142 to R144, R337). -/
def scaleBytes (layout : Nat) (dims : List Nat) (axis : Nat) : Nat :=
  let n := dims.length
  if layout = 1 then copyLines layout dims * 2
  else if axis + 1 = n then 2 * copyLines layout dims
  else prod ((dims.take (n - 1)).set axis (ceilDiv (dims.getD axis 1) 32)) * ceilDiv (dims.getD (n - 1) 1) 64 * 64

/-- The blocked axis of a copy: SCALE_AXIS, or that of the K or N copy of a twin weight (R148). -/
def Placed.axis (t : Placed) (n : Bool) : Nat :=
  if t.desc.weight then (if n then t.desc.ndim - 1 else t.desc.ndim - 2) else t.desc.scaleAxis

/-- Data copies of a placed tensor: start, scale plane start, is the N copy. -/
def Placed.copies (t : Placed) : List (Nat × Nat × Bool) :=
  (t.addr, t.scaleAddr, false) :: (if t.nAddr = 0 then [] else [(t.nAddr, t.nScaleAddr, true)])

/-- The block-scaled copy of format fmt that wholly holds len bytes at a device address and is blocked along its last dimension or along
    another: the tensor, the copy's start, its scale plane, its axis (R672). DESIGN CHOICE: where several such copies share the bytes (R335),
    the first in handle order (log 67). -/
def Prog.copyAt (p : Prog) (fmt a len : Nat) (lastAxis : Bool) : Option (Placed × Nat × Nat × Nat) :=
  p.tensors.findSome? (fun t =>
    if fmtIsMX t.desc.fmt ∧ t.desc.fmt = fmt then
      (t.copies.find? (fun c => decide (c.1 ≤ a ∧ a + len ≤ c.1 + copyBytes t.desc.layout t.desc.fmt t.local_)
        && (t.axis c.2.2 + 1 == t.desc.ndim) == lastAxis)).map (fun c => (t, c.1, c.2.1, t.axis c.2.2))
    else none)

/-- Is element e of stored line l of a copy padding: an index at or beyond its dimension (R136, R139). -/
def isPad (layout : Nat) (dims : List Nat) (l e : Nat) : Bool :=
  let n := dims.length
  let last := dims.getD (n - 1) 1
  let nb := ceilDiv last 64
  if layout = 1 then
    let k := dims.getD (n - 2) 1
    decide (last ≤ l / 64 % nb * 64 + e) || decide (k ≤ l / 64 / nb % ceilDiv k 64 * 64 + l % 64)
  else decide (last ≤ l % nb * 64 + e)

/-- The placed tensor, of a format that is not block-scaled, one of whose copies wholly holds len bytes at a device address, and the
    copy's start. -/
def Prog.plainAt (p : Prog) (fmt a len : Nat) : Option (Placed × Nat) :=
  p.tensors.findSome? (fun t =>
    if t.desc.fmt = fmt then
      (t.copies.find? (fun c => decide (c.1 ≤ a ∧ a + len ≤ c.1 + copyBytes t.desc.layout t.desc.fmt t.local_))).map (fun c => (t, c.1))
    else none)

/-- Device address of the scale byte of the element at byte offset and index e of a line at device address a in
    the copy that holds it. -/
def scaleAddrOf (t : Placed) (start plane axis a e : Nat) : Nat :=
  plane + scaleOffset t.desc.layout t.local_ axis ((a - start) / lineBytes (t.desc.fmt % 16)) e

/-- The self-window address of a local offset (R259). -/
def selfAddr (off : Nat) : Nat := 0x203FC000000 + off % spadSize

/-- n elements of format fmt at local offset off of core c, as values; a block-scaled operand takes its scales
    from the plane of the placed tensor that holds it (R44, R141), blocked along its last dimension for WS and TR and along another for OP
    (R105, R117), and is free where none does (log 23). -/
def State.readElems (s : State) (c n cnt fmt off : Nat) (lastAxis : Bool) : List Num :=
  let code := fmt % 16
  let bs := s.spadBytes c off (packedBytes code cnt)
  if fmtIsMX fmt then
    match s.prog.bind (fun p => p.copyAt fmt (selfAddr off) (packedBytes code cnt) lastAxis) with
    | some (t, start, plane, axis) =>
      (List.range cnt).map (fun e =>
        let la := selfAddr off + e / 64 * lineBytes code
        let sc := s.byteAt (resolveSelf c (scaleAddrOf t start plane axis la (e % 64)))
        decodeMX code (elemAt code bs e) sc.toNat)
    | none => (List.range cnt).map (fun e => f32 (free32 s.free (site n c (0x200000 + e))))
  else (List.range cnt).map (fun e => decodeElem code (elemAt code bs e))

/-! ### Units -/

/-- Element (k, col) of tile t of a unit (R139, R140, R144). -/
def UnitData.elem (u : UnitData) (fmt : Nat) (nCopy : Bool) (t k col : Nat) : Num :=
  let code := fmt % 16
  let w := elemAt code (u.data.drop ((t * 64 + k) * lineBytes code)) col
  if fmtIsMX fmt then
    let sc := (u.scales.getD (128 * t + (if nCopy then 2 * k + col / 32 else 2 * col + k / 32)) 0).toNat
    decodeMX code w sc
  else decodeElem code w

/-- An integer of a value that is one. -/
def Num.toI : Num → Int
  | .fin s m e => signed s (m * 2 ^ e.toNat)
  | _ => 0

/-- One accumulation step of operand lists (R49 to R52). -/
def accStepOf (int : Bool) (acc : W32) (xs ws : List Num) : W32 :=
  if int then intStep acc ((xs.zip ws).map (fun p => p.1.toI * p.2.toI))
  else fpStep acc ((xs.zip ws).map (fun p => p.1.mul p.2))

/-! ### Accumulator memory (R73, R74, R98) -/

/-- Key of accumulator word: array, row, column. -/
def accKey (a row col : Nat) : Nat := (a * 2048 + row % 2048) * 64 + col

/-- Row of array a written at count n. -/
def Core.writeAcc (k : Core) (n a row : Nat) (ws : List W32) (poison : Bool) : Core :=
  { k with
    acc := Sparse.setRange 0 k.acc (accKey a row 0) (fun j => ws.getD j 0) 64
    accPoison := Sparse.set false k.accPoison (a * 2048 + row % 2048) poison
    accReady := Sparse.set 0 k.accReady (a * 2048 + row % 2048) (n + 20) }

/-- Word of an accumulator row as the arrays see it. -/
def Core.accWord (k : Core) (a row col : Nat) : W32 := Sparse.get 0 k.acc (accKey a row col)

/-- The row is not readable at count n: fewer than 20 periods have passed since its last activation row, or an OP operation that has taken
    batch rows for it still runs (R74, R119). -/
def Core.accEarly (k : Core) (n a row : Nat) : Bool :=
  decide (n < Sparse.get 0 k.accReady (a * 2048 + row % 2048)) || (match (Sparse.get {} k.arrays a).run with
    | some o => o.op.mode == 2 && o.live && decide (0 < o.next)
        && (List.range 64).any (fun i => o.rowMask.getLsbD i && (o.accBase + i) % 2048 == row % 2048)
    | none => false)

/-- The 64 words of a row as the store path or the return Dasher reads them at count n: free before the row is
    readable (R74). -/
def Core.readAcc (k : Core) (fr c n a row : Nat) : List W32 :=
  (List.range 64).map (fun j =>
    if k.accEarly n a row then free32 fr (site n c (0x400000 + accKey a row j))
    else k.accWord a row j)

/-- Row updates of an array operation: the old row under ACC and FIRST, the new words, the conflict of R134 in a step that has begun,
    poison (R73, R98, R102, R134). -/
def Core.updateAcc (k : Core) (fr c n a row id issued : Nat) (debug garbage poison fresh : Bool) (f : Nat → W32 → W32) : Core :=
  let key := a * 2048 + row % 2048
  let bad := !fresh && Sparse.get false k.accPoison key
  let clash := k.lastStep.isSome && k.accStep.any (fun p => p.1 == key && p.2 != id)
  let ws := (List.range 64).map (fun j =>
    if garbage || clash then free32 fr (site n c (0x800000 + accKey a row j))
    else f j (if fresh then 0 else k.accWord a row j))
  let k := k.writeAcc n a row ws (poison || bad)
  let k := { k with accStep := (key, id) :: k.accStep }
  let k := if bad then { k with churnErr := setBit k.churnErr (8 + a), cond := setBit k.cond 0 } else k
  if clash then k.hazardOf debug n issued 9 (key % 2 ^ 13) else k

/-! ### Starting an operation (R240, R241, R243) -/

/-- Weight format of a unit table. -/
def State.tableFmt (s : State) (ut : Nat) : Nat :=
  match s.prog with
  | some p => match p.table ut with
    | some t => match p.tensor t.handle with
      | some d => d.desc.fmt
      | none => 0
    | none => 0
  | none => 0

/-- The pair an operation forms. -/
def State.opPair (s : State) (op : MopOp) : Option Bool :=
  if op.mode = 2 then pairKind op.as.fmt op.bs.fmt else pairKind (s.tableFmt op.ut) op.as.fmt

/-- The row mask of the tile entry e at off in core c's scratchpad, as a run reads it: where it was written during the run, each
    bit is free to be the old or the new one (R126, R130). -/
def State.rowMask (s : State) (c n off : Nat) (e : List Byte) : W64 :=
  let now := BitVec.ofNat 64 (leAt e 8 8)
  match s.run with
  | some r =>
    let old := BitVec.ofNat 64 (leNat ((List.range 8).map (fun i => Sparse.get unlisted r.mem0 (spadBase c + (off + 8 + i) % spadSize))))
    now ^^^ ((old ^^^ now) &&& free64 s.free (site n c (0xE00000 + off / 32)))
  | none => now

/-- The operation an array starts at count n: the table entry of its active unit or tile, whether rows are
    processed (R88, R240, R241, R349, R350), and the core after the reads of the table. -/
def State.startOp (s : State) (c a n : Nat) (garbage : Bool) (op : MopOp) (k : Core) : Core :=
  let g := garbage || (s.opPair op).isNone
  let put := fun (k : Core) (ao : ArrayOp) =>
    { k with arrays := Sparse.set {} k.arrays a { run := some ao, queue := none } }
  match s.prog.bind (fun p => p.table op.ut) with
  | none => put k { op := op, start := n, live := false, garbage := g }
  | some t =>
    if op.mode = 2 then
      let u := op.tile + a
      let e := s.spadBytes c (t.base + 32 * u) 32
      if t.count ≤ u then put k { op := op, start := n, live := false, garbage := g }
      else if s.spadBad c (t.base + 32 * u) 32 then
        put (s.spadCheck c (t.base + 32 * u) 32 k) { op := op, start := n, live := false }
      else
        let acc := leAt e 16 2
        let fresh := bitOf acc 15 || !op.acc
        let k := { k with misTiles := if acc / 2 ^ 12 % 4 != a then (op.ut, u) :: k.misTiles.filter (· != (op.ut, u))
                            else if fresh then k.misTiles.filter (· != (op.ut, u)) else k.misTiles }
        put k { op := op, start := n, live := !bitOf acc 14, garbage := g, tag := u, accBase := acc % 2048,
                first := bitOf acc 15, rowMask := s.rowMask c n (t.base + 32 * u) e }
    else
      let h := k.wbufActive
      let off := t.base + 16 * h.tag
      let e := s.spadBytes c off 16
      if !h.valid || t.op || decide (t.count ≤ h.tag) then put k { op := op, start := n, live := false, garbage := g }
      else if s.spadBad c off 16 then put (s.spadCheck c off 16 k) { op := op, start := n, live := false }
      else
        let acc := if op.mode = 0 then leAt e 8 2 else leAt e 10 2
        let sl := (if op.mode = 0 then leAt e 0 4 else leAt e 4 4) % 2 ^ 25
        let bad := h.poison || bitOf h.arrays a
        let k := if bad then { k with churnErr := setBit k.churnErr (4 + a), cond := setBit k.cond 0 } else k
        let broken := match s.run with
          | some r => r.laneBroken
          | none => false
        put k { op := op, start := n, live := true, garbage := g || broken, tag := h.tag, poison := bad,
                slice := sl, accBase := acc % 2048, first := bitOf acc 15 }

/-- A MOP reaches array a at count n: it starts, is queued, or finds the queue full (R243). -/
def State.mopArray (s : State) (c n : Nat) (op : MopOp) (k : Core) (a : Nat) : Core :=
  if !bitOf op.arrays a then k
  else
    let ar := Sparse.get {} k.arrays a
    match ar.run, ar.queue with
    | none, none => s.startOp c a n false op k
    | _, none => { k with arrays := Sparse.set {} k.arrays a { run := ar.run, queue := some (op, false) } }
    | r, some (q, _) =>
      let ar := { run := r.map (fun o => { o with garbage := true }), queue := some (q, true) }
      { k with arrays := Sparse.set {} k.arrays a ar }

/-- The arrays that a MOP names whose queue is full (R243, R304). -/
def Core.queuesFull (k : Core) (op : MopOp) : List Nat :=
  (List.range 4).filter (fun a => bitOf op.arrays a && (Sparse.get {} k.arrays a).queue.isSome)

/-- A queued MOP of array a starts if no operation runs (R243). -/
def State.startQueued (s : State) (c n : Nat) (k : Core) (a : Nat) : Core :=
  let ar := Sparse.get {} k.arrays a
  match ar.run, ar.queue with
  | none, some (op, g) => s.startOp c a n g op k
  | _, _ => k

/-! ### Rows -/

/-- x limited by a 25-bit local offset from a signed sum. -/
def offOf (i : Int) : Nat := (i % (spadSize : Nat)).toNat

/-- Local offset of row i of array a in a WS or TR operation (R240). -/
def ArrayOp.rowOff (o : ArrayOp) (a i : Nat) : Nat :=
  offOf ((o.op.as.base + o.slice : Nat) + (a : Int) * o.op.as.arrayPitch.toInt + (i : Int) * o.op.as.rowPitch.toInt)

/-- Local offset of the X line of batch row r (R241). -/
def ArrayOp.xOff (o : ArrayOp) (r : Nat) : Nat := offOf ((o.op.as.base : Int) + (r : Int) * o.op.as.rowPitch.toInt)

/-- Local offset of the dY line of batch row r for array a (R241). -/
def ArrayOp.yOff (o : ArrayOp) (a r : Nat) : Nat :=
  offOf ((o.op.bs.base : Int) + (a : Int) * o.op.bs.arrayPitch.toInt + (r : Int) * o.op.bs.rowPitch.toInt)

/-- Cycles per row in WS and TR, by the table's weight format. -/
def State.opCycles (s : State) (o : ArrayOp) : Nat := rowCycles (s.tableFmt o.op.ut) o.op.as.fmt

/-- Elements of one activation row: the unit's K depth in WS, 64 in TR (R103, R107). -/
def State.rowElems (s : State) (o : ArrayOp) : Nat :=
  if o.op.mode = 1 then 64 else 64 * ((tilesPerUnit (s.tableFmt o.op.ut)).getD 1)

/-- Batch rows taken by the end of count n (R114). -/
def ArrayOp.rowsBy (o : ArrayOp) (n : Nat) : Nat :=
  let r := opRate o.op.as.fmt o.op.bs.fmt
  min o.op.rows (if r = 0 then (n + 1 - o.start) / 8 else (n + 1 - o.start) * r)

/-- Rows whose last cycle is not after count n. -/
def State.rowsBy (s : State) (o : ArrayOp) (n : Nat) : Nat :=
  if o.op.mode = 2 then o.rowsBy n else min o.op.rows ((n + 1 - o.start) / s.opCycles o)

/-- A row of a WS operation applied to its accumulator row (R103, R72). -/
def State.wsRow (s : State) (c n a i : Nat) (free : Bool) (o : ArrayOp) (k : Core) : Core :=
  let fmt := s.tableFmt o.op.ut
  let m := (tilesPerUnit fmt).getD 1
  let nc := match s.prog.bind (fun p => p.table o.op.ut) with
    | some t => t.nCopy
    | none => false
  let u := Sparse.get ⟨[], [], false⟩ s.units o.tag
  let x := s.readElems c n (64 * m) o.op.as.fmt (o.rowOff a i) true
  let bad := s.spadBad c (o.rowOff a i) (packedBytes (o.op.as.fmt % 16) (64 * m))
  let k := s.spadCheck c (o.rowOff a i) (packedBytes (o.op.as.fmt % 16) (64 * m)) k
  let int := (s.opPair o.op).getD false
  k.updateAcc s.free c n a (o.accBase + i * o.op.stride) (o.start + 1) o.op.issued s.debug (o.garbage || free) (o.poison || bad)
    (o.first || !o.op.acc) (fun col acc =>
      (List.range m).foldl (fun acc t =>
        accStepOf int acc ((x.drop (64 * t)).take 64) ((List.range 64).map (fun kk => u.elem fmt nc t kk col))) acc)

/-- A row of a TR operation applied to its m accumulator rows (R107). -/
def State.trRow (s : State) (c n a i : Nat) (free : Bool) (o : ArrayOp) (k : Core) : Core :=
  let fmt := s.tableFmt o.op.ut
  let m := (tilesPerUnit fmt).getD 1
  let nc := match s.prog.bind (fun p => p.table o.op.ut) with
    | some t => t.nCopy
    | none => false
  let u := Sparse.get ⟨[], [], false⟩ s.units o.tag
  let y := s.readElems c n 64 o.op.as.fmt (o.rowOff a i) true
  let bad := s.spadBad c (o.rowOff a i) (packedBytes (o.op.as.fmt % 16) 64)
  let k := s.spadCheck c (o.rowOff a i) (packedBytes (o.op.as.fmt % 16) 64) k
  let int := (s.opPair o.op).getD false
  (List.range m).foldl (fun k t =>
    k.updateAcc s.free c n a (o.accBase + i * o.op.stride + t) (o.start + 1) o.op.issued s.debug (o.garbage || free) (o.poison || bad)
      (o.first || !o.op.acc) (fun kk acc =>
        accStepOf int acc y ((List.range 64).map (fun col => u.elem fmt nc t kk col)))) k

/-- A whole group of 64 batch rows applied to the tile (R116, R126). -/
def State.opGroup (s : State) (c n a grp : Nat) (o : ArrayOp) (k : Core) : Core :=
  let int := (s.opPair o.op).getD false
  (List.range 64).foldl (fun k kk =>
    if o.rowMask.getLsbD kk then
      k.updateAcc s.free c n a (o.accBase + kk) (o.start + 1) o.op.issued s.debug o.garbage o.poison
        (grp == 0 && (o.first || !o.op.acc)) (fun col acc =>
          accStepOf int acc (o.gx.reverse.map (fun r => r.getD kk .nan)) (o.gy.reverse.map (fun r => r.getD col .nan)))
    else k) k

/-- One batch row taken by an OP operation (R113, R116). -/
def State.opRow (s : State) (c n a : Nat) (free : Bool) (o : ArrayOp) (k : Core) : ArrayOp × Core :=
  let r := o.next
  let lb := fun f => lineBytes (f % 16)
  let bad := s.spadBad c (o.xOff r) (lb o.op.as.fmt) || s.spadBad c (o.yOff a r) (lb o.op.bs.fmt)
  let k := s.spadCheck c (o.xOff r) (lb o.op.as.fmt) (s.spadCheck c (o.yOff a r) (lb o.op.bs.fmt) k)
  let o := { o with
    next := r + 1
    garbage := o.garbage || free
    poison := o.poison || bad
    gx := s.readElems c n 64 o.op.as.fmt (o.xOff r) false :: o.gx
    gy := s.readElems c n 64 o.op.bs.fmt (o.yOff a r) false :: o.gy }
  if (r + 1) % 64 = 0 then ({ o with gx := [], gy := [] }, s.opGroup c n a (r / 64) o k) else (o, k)

/-- Rows taken one after another. -/
def State.opRows (s : State) (c n a : Nat) (free : Bool) : Nat → ArrayOp × Core → ArrayOp × Core
  | 0, p => p
  | j + 1, p => s.opRows c n a free j (s.opRow c n a free p.1 p.2)

/-- Array a in the period of count n: the rows due, and the end of the operation after its last row (R71, R114,
    R243). conf: banks with two scheduled wide accesses in the period (R205); ahead: the rows are read before a store
    has written them (R286). -/
def State.arrayTick (s : State) (c n : Nat) (conf : Nat → Bool) (ahead : Bool) (k : Core) (a : Nat) : Core :=
  let ar := Sparse.get {} k.arrays a
  match ar.run with
  | none => k
  | some o =>
    let k := if ahead then k.hazardOf s.debug n o.op.issued 3 (5 * 2 ^ 12 + bankOf (if o.op.mode = 2 then o.xOff o.next else o.rowOff a o.next)) else k
    let due := s.rowsBy o n - o.next
    let (o, k) :=
      if due = 0 then (o, k)
      else if o.live = false then ({ o with next := o.next + due }, k)
      else if o.op.mode = 2 then
        let hit := fun (off fmt : Nat) => conf (bankOf off) || conf (bankOf (off + lineBytes (fmt % 16) - 1))
        s.opRows c n a (ahead || (List.range due).any (fun j => hit (o.xOff (o.next + j)) o.op.as.fmt || hit (o.yOff a (o.next + j)) o.op.bs.fmt))
          due (o, k)
      else
        let lo := o.rowOff a o.next
        let fr := ahead || conf (bankOf lo) || conf (bankOf (lo + packedBytes (o.op.as.fmt % 16) (s.rowElems o) - 1))
        ({ o with next := o.next + 1 },
          if o.op.mode = 0 then s.wsRow c n a o.next fr o k else s.trRow c n a o.next fr o k)
    let fin := o.next = o.op.rows
    let k := { k with arrays := Sparse.set {} k.arrays a { run := if fin then none else some o, queue := ar.queue } }
    if fin ∧ o.live then k.contract s.fuse 14 n 0 else k

/-- Banks that array a uses in the period of count n, each with its user and the count of the user's bundle. A user is a stream: the
    rows that it takes in one period are no conflict, and arrays of one OP operation that run together share the X stream (R113,
    R114, R204, R205; log 18). -/
def State.arrayBanks (s : State) (n : Nat) (k : Core) (a : Nat) : List (Nat × List Nat × Nat) :=
  match (Sparse.get {} k.arrays a).run with
  | none => []
  | some o =>
    if !o.live || decide (o.op.rows ≤ o.next) || decide (n < o.start) then []
    else if o.op.mode = 2 then
      (List.range (s.rowsBy o n - o.next)).flatMap (fun j =>
        let x := o.xOff (o.next + j)
        let y := o.yOff a (o.next + j)
        [(bankOf x, [0, o.op.issued, o.start], o.op.issued), (bankOf (x + lineBytes (o.op.as.fmt % 16) - 1), [0, o.op.issued, o.start], o.op.issued),
         (bankOf y, [1, a], o.op.issued), (bankOf (y + lineBytes (o.op.bs.fmt % 16) - 1), [1, a], o.op.issued)])
    else
      let lo := o.rowOff a o.next
      let hi := lo + packedBytes (o.op.as.fmt % 16) (s.rowElems o) - 1
      [(bankOf lo, [1, a], o.op.issued), (bankOf hi, [1, a], o.op.issued)]

end Sys2Proof.Machine
end

