-- ==== Sys2Proof/Machine/StorePath.lean ====
section
/-! DEFINITION. The store path: exchange network, conversion, destination walk, scale bytes (05, 08). -/

namespace Sys2Proof.Machine

/-! ### Address walks (R159, R212) -/

/-- Index of each level of repetition r, level 0 innermost. -/
def walkIdx : List Level → Nat → List Nat
  | [], _ => []
  | l :: t, r => r % l.count :: walkIdx t (r / l.count)

/-- Offset of repetition r, on the source or the destination side. -/
def walkOff (src : Bool) (ls : List Level) (r : Nat) : Int :=
  ((ls.zip (walkIdx ls r)).map (fun p => (p.2 : Int) * (if src then p.1.src else p.1.dst))).sum

/-- Repetitions of a walk. -/
def walkCount (ls : List Level) : Nat := prod (ls.map (fun l => l.count))

/-- Lowest and highest byte a walk touches (R214). -/
def walkRange (src : Bool) (base run : Nat) (ls : List Level) : Int × Int :=
  let d := ls.map (fun l => ((l.count : Int) - 1) * (if src then l.src else l.dst))
  ((base : Int) + (d.map (fun x => min x 0)).sum, (base : Int) + (d.map (fun x => max x 0)).sum + run - 1)

/-! ### Exchange network (R154) -/

/-- l with the bits of the mask taken from e. -/
def swapBits (mask l e : Nat) : Nat :=
  ((List.range 6).map (fun i => (if bitOf mask i then bitOf e i else bitOf l i).toNat * 2 ^ i)).sum

/-- Word and poison of element e of output line i, after the exchange (R154, R615). -/
def StoreOp.word (st : StoreOp) (i e : Nat) : W32 × Bool :=
  let l := i % 64
  let src := i / 64 * 64 + swapBits st.tmpl.xch l e
  let ln := st.lines.getD src ([], false)
  (ln.1.getD (swapBits st.tmpl.xch e l) 0, ln.2)

/-- A source word as a value (R48, R153). -/
def Template.value (t : Template) (w : W32) : Num := if t.accInt then Num.ofInt w.toInt else f32 w

/-- SAT as the conversion takes it: an integer source always saturates (R59). -/
def Template.satOf (t : Template) : Bool := t.sat || t.accInt

/-- The value of element e of line i as it is converted, and its poison: zero where it is padding (R145, R153). -/
def StoreOp.source (st : StoreOp) (pad : Nat → Nat → Bool) (i e : Nat) : Num × Bool :=
  if pad i e then (.fin false 0 0, false) else (st.tmpl.value (st.word i e).1, (st.word i e).2)

/-- Values of the block of 32 that element e of line i belongs to, with its poison (R145, R156). -/
def StoreOp.block (st : StoreOp) (pad : Nat → Nat → Bool) (i e : Nat) : List Num × Bool :=
  let ws := (List.range 32).map (fun j =>
    if st.tmpl.across then st.source pad (i / 32 * 32 + j) e else st.source pad i (e / 32 * 32 + j))
  (ws.map (fun w => w.1), ws.any (fun w => w.2))

/-- Element word of element e of output line i in the destination format (R54 to R59, R156, R668); zero fill for padding (R153). -/
def StoreOp.elem (st : StoreOp) (pad : Nat → Nat → Bool) (i e : Nat) : Nat :=
  let code := st.tmpl.fmt % 16
  if pad i e then 0
  else if fmtIsMX st.tmpl.fmt then
    ((quantiseBlock code (st.block pad i e).1).2).getD (if st.tmpl.across then i % 32 else e % 32) 0
  else encodeElem code st.tmpl.satOf (st.source pad i e).1

/-- Is element e of output line i poisoned. -/
def StoreOp.bad (st : StoreOp) (pad : Nat → Nat → Bool) (i e : Nat) : Bool :=
  if fmtIsMX st.tmpl.fmt then (st.block pad i e).2 else (st.source pad i e).2

/-- The bytes of output line i with their marks (R153, R615). -/
def StoreOp.lineOut (st : StoreOp) (pad : Nat → Nat → Bool) (i : Nat) : List MByte :=
  let code := st.tmpl.fmt % 16
  let b := elemBits code
  let bs := packElems code ((List.range 64).map (st.elem pad i))
  (List.range bs.length).map (fun j =>
    (bs.getD j 0, (List.range 64).any (fun e => decide (e * b / 8 ≤ j ∧ j ≤ (e * b + b - 1) / 8) && st.bad pad i e)))

/-- Bytes of a store's stream, and the pieces of 16 bytes of line i with their destination offset. -/
def StoreOp.pieces (st : StoreOp) (pad : Nat → Nat → Bool) (i : Nat) : List (Int × List MByte) :=
  let lb := lineBytes (st.tmpl.fmt % 16)
  let bs := st.lineOut pad i
  (List.range (lb / 16)).map (fun j =>
    let o := i * lb + 16 * j
    ((walkOff false st.tmpl.levels (o / st.tmpl.run)) + (o % st.tmpl.run : Nat), (bs.drop (16 * j)).take 16))

/-! ### Destination (R257 to R259, R672) -/

/-- The base as a device address: core c's scratchpad for LOCAL = 1, else the self window resolved. -/
def storeBase (c : Nat) (loc : Bool) (base : Nat) : Nat := if loc then spadBase c + base % spadSize else base

/-- The address under which the placement knows the base (R351, R672). -/
def placeBase (loc : Bool) (base : Nat) : Nat := if loc then selfAddr base else base

/-- The copy a block-scaled store writes into, if it meets both conditions of R672: of several that hold the destination, the first whose
    blocked axis QAXIS matches (log 67). -/
def State.storeCopy (s : State) (t : Template) (loc : Bool) (base : Nat) : Option (Placed × Nat × Nat × Nat) :=
  let r := walkRange false (placeBase loc base) t.run t.levels
  if r.1 < 0 then none
  else s.prog.bind (fun p => p.copyAt t.fmt r.1.toNat (r.2 - r.1 + 1).toNat !t.across)

/-- Is the destination of a store refused (R258, R672). -/
def State.storeRefused (s : State) (c : Nat) (t : Template) (loc : Bool) (base : Nat) : Bool :=
  let r := walkRange false (storeBase c loc base) t.run t.levels
  decide (r.1 < 0) || !s.rangeOk true c r.1.toNat r.2.toNat || (fmtIsMX t.fmt && (s.storeCopy t loc base).isNone)

/-- The address of the first byte of element e of line i of a store, as the placement knows it. -/
def StoreOp.elemAddr (st : StoreOp) (i e : Nat) : Nat :=
  let o := i * lineBytes (st.tmpl.fmt % 16) + e * elemBits (st.tmpl.fmt % 16) / 8
  ((placeBase st.loc st.base : Int) + walkOff false st.tmpl.levels (o / st.tmpl.run) + (o % st.tmpl.run : Nat)).toNat

/-- Where element e of line i of a store stands in a copy that begins at start: line and element. -/
def StoreOp.posIn (st : StoreOp) (start i e : Nat) : Nat × Nat :=
  let code := st.tmpl.fmt % 16
  let d := st.elemAddr i e - start
  (d / lineBytes code, (d % lineBytes code * 8 + e * elemBits code % 8) / elemBits code)

/-- The placed tensor that a store's destination lies in, and the start of its copy (log 69). -/
def State.storeHolder (s : State) (st : StoreOp) : Option (Placed × Nat) :=
  if fmtIsMX st.tmpl.fmt then (s.storeCopy st.tmpl st.loc st.base).map (fun x => (x.1, x.2.1))
  else
    let r := walkRange false (placeBase st.loc st.base) st.tmpl.run st.tmpl.levels
    if r.1 < 0 then none else s.prog.bind (fun p => p.plainAt st.tmpl.fmt r.1.toNat (r.2 - r.1 + 1).toNat)

/-- The elements of a store that are padding of the tensor that its destination lies in (R145, R153, log 69). -/
def State.storePad (s : State) (st : StoreOp) (i e : Nat) : Bool :=
  match s.storeHolder st with
  | some (d, start) => let p := st.posIn start i e
                       isPad d.desc.layout d.local_ p.1 p.2
  | none => false

/-- Line i of a store is a whole line of the copy that begins at start, written in order. -/
def StoreOp.wholeLine (st : StoreOp) (start i : Nat) : Bool :=
  (List.range 64).all (fun e => st.posIn start i e == ((st.posIn start i 0).1, e))

/-- The scale bytes of the blocks that end with line i of a block-scaled store: of blocks of the tensor their scale codes, of others
    free bytes wherever an element of such a block is scaled (R672, log 33). -/
def State.scaleWrites (s : State) (c : Nat) (st : StoreOp) (i : Nat) (d : Placed) (start plane axis : Nat) : List (Nat × List MByte) :=
  let code := st.tmpl.fmt % 16
  let lines := if st.tmpl.across then (List.range 32).map (fun j => i - 31 + j) else [i]
  let place := fun l e => let p := st.posIn start l e
                          plane + scaleOffset d.desc.layout d.local_ axis p.1 p.2
  let whole := lines.all (st.wholeLine start) && (lines.map (fun l => (st.posIn start l 0).1)).eraseDups.length == lines.length
    && lines.all (fun l => (List.range 64).all (fun e => place l e == place i e))
  if st.tmpl.across && i % 32 != 31 then []
  else if whole then
    (if st.tmpl.across then List.range 64 else [0, 32]).map (fun e =>
      let b := st.block (s.storePad st) i e
      (resolveSelf c (place i e), [(BitVec.ofNat 8 (quantiseBlock code b.1).1, b.2)]))
  else (lines.flatMap (fun l => (List.range 64).map (place l))).eraseDups.map (fun a =>
    (resolveSelf c a, [(Config.freeByte s.free (site i c 0xF00000) a, false)]))

/-- The writes of output line i: data pieces, and the scale bytes of blocks that end with the line (R672). -/
def State.lineWrites (s : State) (c : Nat) (st : StoreOp) (i : Nat) : List (Nat × List MByte) :=
  let data := (st.pieces (s.storePad st) i).map (fun p =>
    (resolveSelf c ((storeBase c st.loc st.base : Int) + p.1).toNat, p.2))
  if fmtIsMX st.tmpl.fmt then
    match s.storeCopy st.tmpl st.loc st.base with
    | none => data
    | some (d, start, plane, axis) => data ++ s.scaleWrites c st i d start plane axis
  else data

/-- One more run of a message list, last first: merged with the message before it where its bytes follow on and both are clean, up to 65,536
    bytes (R486, R617). -/
def mergeRun (l : List (Nat × List MByte)) (x : Nat × List MByte) : List (Nat × List MByte) :=
  match l with
  | (b, old) :: t =>
    if !anyMarked old && !anyMarked x.2 && b + old.length == x.1 && decide (old.length + x.2.length ≤ 65536) then (b, old ++ x.2) :: t
    else x :: l
  | [] => [x]

/-- The writes of a whole store outside the compute plane: pieces of its lines, or toward a peer a message for each run, merged where they
    can be (R257, R486, R617). -/
def State.storeWrites (s : State) (c : Nat) (st : StoreOp) : List (Nat × List MByte) :=
  match st.peer with
  | none => (List.range st.tmpl.lines).flatMap (s.lineWrites c st)
  | some _ =>
    let bs := (List.range st.tmpl.lines).flatMap (st.lineOut (s.storePad st))
    let runs := (List.range (walkCount st.tmpl.levels)).map (fun r =>
      (((st.base : Int) + walkOff false st.tmpl.levels r).toNat, (bs.drop (st.tmpl.run * r)).take st.tmpl.run))
    (runs.foldl mergeRun []).reverse

/-- A local store of a bundle before the given count still has to write bytes among len at local offset off (R237, R286, R304 class
    5). -/
def Core.storeAhead (k : Core) (issued off len : Nat) : Bool :=
  k.stores.any (fun st => st.loc && decide (st.id < issued) && (List.range (st.tmpl.lines - st.written)).any (fun i =>
    let lb := lineBytes (st.tmpl.fmt % 16)
    (List.range (lb / 16)).any (fun j =>
      let o := (st.written + i) * lb + 16 * j
      let a := (st.base : Int) + walkOff false st.tmpl.levels (o / st.tmpl.run) + (o % st.tmpl.run : Nat)
      decide (a < (off + len : Nat) ∧ (off : Int) < a + 16))))

/-- An early read of scratchpad recorded (R304). -/
def Core.checkSpad (k : Core) (debug : Bool) (n issued off len : Nat) : Core :=
  if k.storeAhead issued off len then k.hazardOf debug n issued 3 (5 * 2 ^ 12 + bankOf off) else k

/-- X of contract item 21 (R285). -/
def Template.lateBy (t : Template) : Nat :=
  (if t.xch = 0 then 0 else 69) + (if t.across && fmtIsMX t.fmt then 33 else 0)

/-- The words of source line i of a store at count n, and their poison (R257, R74, R158, R615). -/
def Core.storeLine (k : Core) (fr c n : Nat) (st : StoreOp) (i : Nat) : List W32 × Bool :=
  if st.tmpl.srcVec then
    let v := (st.src + i / 2) % 512
    ((List.range 64).map (fun j => k.lane fr c n v (64 * (i % 2) + j)), k.slotPoison v)
  else
    let a := st.src % 4
    let row := st.src / 4 + i
    (k.readAcc fr c n a row, Sparse.get false k.accPoison (a * 2048 + row % 2048))

/-- The errors found by a line taken (R98, R193). -/
def Core.lineErr (k : Core) (st : StoreOp) (bad : Bool) (i : Nat) : Core :=
  if !bad then k
  else if st.tmpl.srcVec then k.slotParity ((st.src + i / 2) % 512)
  else { k with churnErr := setBit k.churnErr (8 + st.src % 4), cond := setBit k.cond 0 }

/-- A store replaced in the list. -/
def Core.putStore (k : Core) (st : StoreOp) : Core :=
  { k with stores := k.stores.map (fun x => if x.id = st.id then st else x) }

/-- The store with an id. -/
def Core.getStore (k : Core) (id : Nat) : Option StoreOp := k.stores.find? (fun x => x.id == id)

/-- A store with no write left and no signal to make is forgotten (R277). -/
def Core.sweepStores (k : Core) : Core :=
  { k with stores := k.stores.filter (fun x => !(x.sent && x.outst == 0 && !x.sig)) }

end Sys2Proof.Machine
end

