-- ==== Sys2Proof/Machine/Tick.lean ====
section
/-! DEFINITION. One period of a core's clock at a schedule count: what is due happens, results land, gates are
tested; the end of a bundle; the passing of time (08, 09, 10). -/

namespace Sys2Proof.Machine

/-! ### Semaphores (R309 to R311, R331) -/

/-- The value after a period's changes: clamped to 0 to 2³² − 1. -/
def SemNet.value (c : SemNet) : Nat := min ((c.start : Int) + c.net).toNat (2 ^ 32 - 1)

/-- The net change goes below 0. -/
def SemNet.under (c : SemNet) : Bool := decide ((c.start : Int) + c.net < 0)

/-- One more amount in the period: added to the semaphore's net sum, which starts at its present value (R311). -/
def addNet (l : List SemNet) (idx cur : Nat) (amount : Int) : List SemNet :=
  if l.any (fun c => c.idx == idx) then l.map (fun c => if c.idx = idx then { c with net := c.net + amount } else c)
  else l ++ [⟨idx, cur, amount⟩]

/-- The period's change of a semaphore. -/
def netOf (l : List SemNet) (idx : Nat) : Option SemNet := l.find? (fun c => c.idx == idx)

/-- An error register after one semaphore's change: a clamp sets its bit, the first one records the index (R331). -/
def semNote (err : Nat) (c : SemNet) : Nat :=
  let note := fun (b : Nat) => if err % 4 = 0 then setBit (err % 2 ^ 16 + c.idx * 2 ^ 16) b else setBit err b
  if c.under then note 0 else if (2 ^ 32 - 1 : Nat) < (c.start : Int) + c.net then note 1 else err

/-- An add or a subtract of one core semaphore: all amounts of the period make one change, clamped (R311, R331). An amount of 0
    changes nothing (R310). -/
def Core.semChange (k : Core) (idx : Nat) (amount : Int) : Core :=
  if amount = 0 then k
  else
    let cur := Sparse.get 0 k.sems idx
    let err0 := if k.semNet.isEmpty then k.semErr else k.semErr0
    let l := addNet k.semNet idx cur amount
    { k with
      sems := Sparse.set 0 k.sems idx ((netOf l idx).map SemNet.value |>.getD cur)
      semNet := l, semErr0 := err0, semErr := l.foldl semNote err0 }

/-- The same at the hub; a changed value is progress and is on its way to the core controllers (R311, R314, R328, R331). -/
def State.gsemChange (s : State) (idx : Nat) (amount : Int) : State :=
  if amount = 0 then s
  else
    let cur := Sparse.get 0 s.gsems idx
    let err0 := if s.gsemNet.isEmpty then s.gsemErr else s.gsemErr0
    let l := addNet s.gsemNet idx cur amount
    { s with
      gsems := Sparse.set 0 s.gsems idx ((netOf l idx).map SemNet.value |>.getD cur)
      noProgress := if (netOf l idx).map SemNet.value |>.any (· != cur) then 0 else s.noProgress
      gsemNet := l, gsemErr0 := err0, gsemErr := l.foldl semNote err0
      gsemSent := if s.gsemSent.any (fun e => e.1 == idx) then s.gsemSent else s.gsemSent ++ [(idx, s.epoch)] }

/-- An add or a subtract of core c's semaphore by a party outside its compute plane; a changed value is progress (R311, R328). -/
def State.csemChange (s : State) (c idx : Nat) (amount : Int) : State :=
  let k := (s.core c).semChange idx amount
  { s.setCore c k with noProgress := if Sparse.get 0 k.sems idx = Sparse.get 0 (s.core c).sems idx then s.noProgress else 0 }

/-- What a trigger consumes comes off after the period's changes have been applied (R325): those changes are closed first. -/
def State.gsemConsume (s : State) (idx amount : Nat) : State :=
  { s with gsemNet := [] }.gsemChange idx (-(amount : Int))

/-- Is a gate's condition met: against the core's semaphore, or its copy of a device-global one (R313, R314). -/
def Core.gateMet (k : Core) (g : Gate) : Bool :=
  g.amount ≤ (if g.glob then Sparse.get 0 k.gcopy g.idx else Sparse.get 0 k.sems g.idx)

/-! ### Results land (R166, R172, R193, R238) -/

/-- A result put into its register. Device-global semaphores change at the hub, not here. -/
def Core.applyLanded (n issued : Nat) (k : Core) : Landed → Core
  | .sreg _ r v => k.writeS r v
  | .slot v which words poison =>
    { k with
      pail := (List.range 128).foldl (fun m i =>
        if which.getLsbD i then Sparse.set 0 m (v * 128 + i) (words.getD i 0) else m) k.pail
      pailPoison := Sparse.set false k.pailPoison v (poison || (k.slotPoison v && which != BitVec.allOnes 128)) }
  | .fill v base words poison =>
    { k with
      pail := Sparse.setRange 0 k.pail (v * 128 + base) (fun i => words.getD i 0) words.length
      pailPoison := Sparse.set false k.pailPoison v (poison || (k.slotPoison v && words.length != 128)) }
  | .mask m v poison =>
    if m = 0 then k
    else { k with masks := Sparse.set 0 k.masks m v, maskPoison := Sparse.set false k.maskPoison m poison }
  | .stream a v => { k with streams := Sparse.set {} k.streams a v }
  | .vl v => { k with vl := v }
  | .semRead idx r => k.writeS r (BitVec.ofNat 64 (Sparse.get 0 k.sems idx))
  | .sem glob idx amount sub =>
    let k := if sub then { k with semSubs := k.semSubs ++ [(n, issued, glob, idx)] } else k
    if glob then k else k.semChange idx amount

/-- Order in which results of one period land: a vector result over a fill (R172), the scalar slot's over another
    (R238), a semaphore's change before its read; of one rank, the one that issued last is kept (log 18). -/
def Landed.rank : Landed → Nat
  | .fill .. => 0
  | .semRead .. => 3
  | .sreg false _ _ => 3
  | .sreg true _ _ => 4
  | .sem .. => 2
  | _ => 1

/-- The results among due events, each with the count of its bundle. -/
def landedOf (l : List Due) : List (Nat × Landed) :=
  l.filterMap (fun d => match d.what with
    | .land e => some (d.issued, e)
    | _ => none)

/-- The slot a result writes. -/
def Landed.slotNo : Landed → Option Nat
  | .slot v .. => some v
  | .fill v .. => some v
  | _ => none

/-- Every result of the period lands; writes to one slot in one period are a hazard, revealed by the bundle that issued last (R172,
    R304). -/
def Core.landAll (debug : Bool) (n : Nat) (l : List (Nat × Landed)) (k : Core) : Core :=
  let k := ((List.range 5).flatMap (fun r => l.filter (fun e => e.2.rank == r))).foldl (fun k e => k.applyLanded n e.1 e.2) k
  let slots := l.filterMap (fun e => e.2.slotNo)
  (slots.eraseDups.filter (fun v => 1 < slots.count v)).foldl (fun k v =>
    k.hazardOf debug n (((l.filter (fun e => e.2.slotNo == some v)).map Prod.fst).foldl max 0) 6 v) k

/-! ### Bank ports (R203 to R208) -/

/-- The bank is one of the table banks (R341, R342). -/
def State.tableBank (s : State) (b : Nat) : Bool :=
  match s.prog with
  | some p => 32 - p.tb ≤ b
  | none => false

/-- Wide uses of banks by the due events of the period, each with its user and the count of the user's bundle (R205). -/
def State.dueBanks (s : State) (c : Nat) (k : Core) (l : List Due) : List (Nat × List Nat × Nat) :=
  l.flatMap (fun d => match d.what with
    | .fillUnit f => [(bankOf (f.start / 128 * 128 + 128 * f.unit), [2, d.issued], d.issued)]
    | .storeWrite id i =>
      match k.getStore id with
      | some st => (s.lineWrites c st i).map (fun p => (bankOf (p.1 - spadBase c), [3, id], d.issued))
      | none => []
    | _ => [])

/-- Does some run of a walk from an address touch bytes lo to hi - 1. -/
def walkHits (src : Bool) (lo hi : Int) (run : Nat) : List Level → Int → Bool
  | [], a => decide (a < hi ∧ lo < a + run)
  | l :: t, a => (List.range l.count).any (fun i => walkHits src lo hi run t (a + (i : Int) * (if src then l.src else l.dst)))

/-- Does an outstanding Ladle transfer of any core, or any core's store outside its plane, touch the bank of core
    c's scratchpad (R207, R257), or has the host used its wide port in this period (R208). -/
def State.outsideUse (s : State) (c b : Nat) : Bool :=
  let lo : Int := (spadBase c + b * 0x100000 : Nat)
  let at_ := fun (src : Bool) (cc base run : Nat) (ls : List Level) => walkHits src lo (lo + 0x100000) run ls (resolveSelf cc base)
  s.hostBanks.contains (32 * c + b)
  || s.cores.any (fun e => e.2.ladle.any (fun q => q.2.out.any (fun t =>
      at_ true e.1 t.desc.src t.desc.run t.desc.levels || at_ false e.1 t.desc.dst t.desc.run t.desc.levels))
    || e.2.stores.any (fun st => !st.loc && at_ false e.1 st.base st.tmpl.run st.tmpl.levels))

/-! ### The events of a period -/

/-- What a period gives beside the core: scratchpad writes by device address, and packets. -/
structure TickOut where
  core : Core
  writes : List (Nat × List MByte) := []
  packets : List Packet := []

/-- Words of a completed fill (R170). -/
def fillWords (f : FillOp) : List W32 :=
  let bs := f.got.drop (f.start % 128)
  (List.range f.count).map (fun i =>
    let w := elemAt f.fmt bs i
    if f.fmt ≤ 7 ∨ f.fmt = 10 then toF32 (decodeElem f.fmt w) else BitVec.ofInt 32 (sext (elemBits f.fmt) w))

/-- Units of 128 bytes that a fill reads (R171). -/
def fillUnits (fmt count start : Nat) : Nat := (start % 128 + packedBytes fmt count + 127) / 128

/-- An early read of scratchpad by the rows array a takes in the period (R304). -/
def State.rowsAhead (s : State) (n : Nat) (k : Core) (a : Nat) : Bool :=
  match (Sparse.get {} k.arrays a).run with
  | none => false
  | some o =>
    o.live && decide (o.next < s.rowsBy o n) &&
      (if o.op.mode = 2 then
        (List.range (s.rowsBy o n - o.next)).any (fun j =>
          k.storeAhead o.op.issued (o.xOff (o.next + j)) (lineBytes (o.op.as.fmt % 16)) ||
            k.storeAhead o.op.issued (o.yOff a (o.next + j)) (lineBytes (o.op.bs.fmt % 16)))
      else k.storeAhead o.op.issued (o.rowOff a o.next) (packedBytes (o.op.as.fmt % 16) (s.rowElems o)))

/-- One due event of the read phase at count n. clash: the bank has two scheduled wide accesses; wide: it has one; who: the count of
    the last bundle that issued one. -/
def State.tickRead (s : State) (c n : Nat) (clash wide : Nat → Bool) (who : Nat → Nat) (o : TickOut) (d : Due) : TickOut :=
  let k := o.core
  match d.what with
  | .fillUnit f =>
    let off := f.start / 128 * 128 + 128 * f.unit
    let fr := clash (bankOf off) || s.tableBank (bankOf off) || k.storeAhead d.issued off 128
    let k := k.checkSpad s.debug n d.issued off 128
    let got := f.got ++ (if fr then freeBytes s.free (site n c f.unit) 128 else s.spadBytes c off 128)
    let f := { f with unit := f.unit + 1, got := got, poison := f.poison || s.spadBad c off 128 }
    let k := s.spadCheck c off 128 k
    if f.unit < f.units then { o with core := k.push (n + 1) d.issued (.fillUnit f) }
    else { o with core := (k.push (n + 7) d.issued (.land (.fill f.slot f.base (fillWords f) f.poison))).contract s.fuse 4 n 0 }
  | .narrowRead off size sgn sd =>
    let a := off / size * size
    let b := bankOf a
    let k := if wide b || s.outsideUse c b then k.hazardOf s.debug n (max d.issued (who b)) 2 b else k
    let taken := wide b || s.outsideUse c b
    let ahead := k.storeAhead d.issued a size
    let k := k.checkSpad s.debug n d.issued a size
    let v : Nat := if taken || s.tableBank b || ahead then (free64 s.free (site n c 300)).toNat % 2 ^ (8 * size)
      else leNat (s.spadBytes c a size)
    let k := if taken then k else s.spadCheck c a size k
    let w : W64 := if sgn then BitVec.ofInt 64 (sext (8 * size) v) else BitVec.ofNat 64 v
    { o with core := k.push (n + 2) d.issued (.land (.sreg true sd w)) }
  | .storeTake id i =>
    match k.getStore id with
    | none => o
    | some st =>
      let ln := k.storeLine s.free c n st i
      let k := k.lineErr st ln.2 i
      let early := if st.tmpl.srcVec then (List.range 64).any (fun j => k.early n (Micro.toLane ((st.src + i / 2) % 512) (some (64 * (i % 2) + j))))
        else k.accEarly n (st.src % 4) (st.src / 4 + i)
      let k := if early then k.hazardOf s.debug n d.issued 3
          (if st.tmpl.srcVec then 2 ^ 12 + (st.src + i / 2) % 512 else 3 * 2 ^ 12 + (st.src / 4 + i) % 2048) else k
      let st := { st with lines := st.lines ++ [ln] }
      let last := i + 1 = st.tmpl.lines
      let st := if last ∧ !st.loc then { st with sent := true, outst := (s.storeWrites c st).length } else st
      let k := k.putStore st
      let k := if st.tmpl.xch != 0 && i % 64 == 63 then k.contract s.fuse 22 n 0 else k
      let k := if st.tmpl.across && fmtIsMX st.tmpl.fmt && i % 32 == 31 then k.contract s.fuse 23 n (if st.tmpl.xch = 0 then 0 else 69) else k
      { o with
        core := if last then k else k.push (n + 1) d.issued (.storeTake id (i + 1))
        packets := if last ∧ !st.loc then o.packets ++ (s.storeWrites c st).map (fun p => Packet.write (.store c id) p.1 p.2 false)
          else o.packets }
  | _ => o

/-- One due event of the write phase. -/
def State.tickWrite (s : State) (c n : Nat) (clash wide : Nat → Bool) (who : Nat → Nat) (o : TickOut) (d : Due) : TickOut :=
  let k := o.core
  match d.what with
  | .narrowWrite off size v =>
    let a := off / size * size
    let b := bankOf a
    let k := if wide b || s.outsideUse c b then k.hazardOf s.debug n (max d.issued (who b)) 2 b else k
    let keep := !wide b && (!(s.outsideUse c b || s.tableBank b) || (free64 s.free (site n c 301)).getLsbD 0)
    { o with
      core := k
      writes := if keep then o.writes ++ [(spadBase c + a % spadSize, markAll false (leBytes size v.toNat))] else o.writes }
  | .storeWrite id i =>
    match k.getStore id with
    | none => o
    | some st =>
      let ws := (s.lineWrites c st i).map (fun p =>
        if clash (bankOf (p.1 - spadBase c)) then
          (p.1, markAll false (freeBytes s.free (site n c (p.1 % 2 ^ 24)) p.2.length)) else p)
      let st := { st with written := st.written + 1, sent := st.written + 1 = st.tmpl.lines, doneAt := s.epoch }
      let k := (k.putStore st).sweepStores
      { o with
        core := if i + 1 < st.tmpl.lines then k.push (n + 1) d.issued (.storeWrite id (i + 1)) else k
        writes := o.writes ++ ws }
  | _ => o

/-- One due event that is neither: idle, end (R254, R255). -/
def Core.tickCtl (k : Core) (d : Due) : Core :=
  match d.what with
  | .idle i => { k with idle := i }
  | .endProg => { k with ended := true }
  | _ => k

/-- The MOPs among due events reach their arrays (R243). -/
def State.tickMops (s : State) (c n : Nat) (l : List Due) (k : Core) : Core :=
  l.foldl (fun k d => match d.what with
    | .mop op =>
      let full := k.queuesFull op
      let k := (List.range 4).foldl (s.mopArray c n op) k
      if full.isEmpty then k else k.hazardOf s.debug n d.issued 7 ((full.map (fun a => 2 ^ a)).sum)
    | _ => k) k

/-- Gates due after count n that are unmet hold the core at n + 1 (R288, R313). -/
def Core.testGates (n : Nat) (k : Core) : Core :=
  let w := k.gates.filter (fun g => g.due ≤ n + 1 && !k.gateMet g)
  { k with
    gates := k.gates.filter (fun g => n + 1 < g.due)
    waits := k.waits ++ w
    stopped := if w.isEmpty then k.stopped else some (n + 1) }

/-- The events due in the period of the core's present count. -/
def Core.dueNow (k : Core) : List Due := k.queue.filter (fun d => d.at_ ≤ k.sched)

/-- Core c as the period of its present count begins: MOPs have reached their arrays and start (R243). -/
def State.coreBegins (s : State) (c : Nat) : Core :=
  let k := s.core c
  s.tickMops c k.sched k.dueNow ((List.range 4).foldl (s.startQueued c k.sched) { k with queue := k.queue.filter (fun d => k.sched < d.at_) })

/-- The scheduled users of banks' wide ports in that period (R205). -/
def State.wideUsers (s : State) (c : Nat) : List (Nat × List Nat × Nat) :=
  ((List.range 4).flatMap (s.arrayBanks (s.core c).sched (s.coreBegins c)) ++ s.dueBanks c (s.coreBegins c) (s.core c).dueNow).eraseDups

/-- The period of core c's present count: MOPs start, scheduled reads and array rows, scheduled writes, results land,
    the count grows, gates are tested (R280, R283). -/
def State.tickCore (s : State) (c : Nat) : TickOut :=
  let n := (s.core c).sched
  let due := (s.core c).dueNow
  let k := s.coreBegins c
  let users := s.wideUsers c
  let wide := fun b => users.any (fun u => u.1 == b)
  let who := fun b => ((users.filter (fun u => u.1 == b)).map (fun u => u.2.2)).foldl max 0
  let clash := fun b => 1 < (users.filter (fun u => u.1 == b)).length
  let k := ((users.map (fun u => u.1)).eraseDups.filter clash).foldl (fun k b => k.hazardOf s.debug n (who b) 1 b) k
  let k := (List.range 4).foldl (fun k a => s.arrayTick c n (fun b => clash b || s.tableBank b) (s.rowsAhead n k a) k a) k
  let o := due.foldl (s.tickRead c n clash wide who) { core := k }
  let o := due.foldl (s.tickWrite c n clash wide who) o
  let k := due.foldl Core.tickCtl (o.core.landAll s.debug n (landedOf due))
  let k := { k with stallDue := k.stallDue.filter (fun e => n < e.1) }
  { o with core := ({ k with sched := n + 1, ticked := true, wideNow := (users.map Prod.fst).eraseDups }).testGates n }

/-- Global semaphore changes that land in core c's present period: index and amount. -/
def State.dueGlobal (s : State) (c : Nat) : List (Nat × Int) :=
  let k := s.core c
  (landedOf (k.queue.filter (fun d => d.at_ ≤ k.sched))).filterMap (fun e => match e.2 with
    | .sem true idx amount _ => some (idx, amount)
    | _ => none)

/-! ### Ports of the mesh (R453, R455, R463) -/

/-- The port at which a write's owner stands. -/
def Owner.port : Owner → Nat
  | .transfer c _ _ => c
  | .store c _ => c
  | .delivery c _ => c
  | .press _ => 250
  | .clip e _ => 260 + e
  | .message _ => 300
  | .cmd _ => 301
  | .record .. => 301
  | .report => 301
  | .none => 302

/-- Source and destination port of a packet. -/
def Packet.route : Packet → Nat × Nat
  | .data o src _ _ _ => (portOf src, o.port)
  | .write o a _ _ => (o.port, portOf a)
  | .ack o a => (portOf a, o.port)
  | .fwd src dst _ => (400 + src, 400 + dst)

/-- Channel and buffer class of a packet: bulk requests 0, bulk responses 1, Whey requests 2, acknowledgements 3 (R454, R455). -/
def Packet.cls : Packet → Nat
  | .data .. => 1
  | .write .. => 0
  | .ack .. => 3
  | .fwd _ _ m => if 0x10 ≤ m.kind then 2 else 0

/-- Packet id cannot arrive yet: an earlier packet of the same class travels between the same ports, and is not overtaken (R463, log 75);
    or its route leads through a stopped region (R518). -/
def State.heldBack (s : State) (id : Nat) (p : Packet) : Bool :=
  (s.mesh.takeWhile (fun q => q.1 != id)).any (fun q => q.2.cls == p.cls && q.2.route == p.route) || s.routeStopped p.route.1 p.route.2

/-- A port holds room to issue one more response (class 1) or acknowledgement (class 3): how much it holds the spec does not say (R455,
    log 75). -/
def State.hasRoom (s : State) (port cls : Nat) : Bool :=
  let n := (s.mesh.filter (fun q => q.2.cls == cls && q.2.route.1 == port)).length
  n == 0 || decide (n ≤ Config.portRoom port)

/-- Packets put on the mesh, numbered in order (R455). -/
def State.send (s : State) (ps : List Packet) : State :=
  { s with mesh := s.mesh ++ (ps.zipIdx s.meshId).map (fun p => (p.2, p.1)), meshId := s.meshId + ps.length }

/-- A period of core c: the core, its scratchpad writes, its packets. -/
def State.runCore (s : State) (c : Nat) : State :=
  let o := s.tickCore c
  let s := s.setCore c o.core
  (o.writes.foldl (fun s w => s.storeBytes w.1 w.2) s).send o.packets

/-! ### The program counter (R251, R253, R276) -/

/-- Where issue goes after a LOOP that is the last bundle of the bodies it lies in: back to the innermost of them that has passes left,
    the new loop not begun, or with all of them over into the new loop's body (R253). -/
def afterLastLoop (pc : Nat) (new : LoopRec) : List LoopRec → Nat × List LoopRec
  | l :: ls =>
    if l.stop = pc then
      if 1 < l.remaining then (l.start, { l with remaining := l.remaining - 1 } :: ls) else afterLastLoop pc new ls
    else (pc + 1, new :: l :: ls)
  | [] => (pc + 1, [new])

/-- After a bundle: a branch's delay bundles, then the loop, then the next bundle. A LOOP's record starts at the bundle after it. -/
def Core.nextPc (k : Core) : Core :=
  match k.branch with
  | some (t, 1) => { k with pc := t, branch := none }
  | br =>
    let k := { k with branch := br.map (fun (b : Nat × Nat) => (b.1, b.2 - 1)) }
    match k.loops with
    | l :: ls =>
      if l.start = k.pc + 1 then { k with pc := (afterLastLoop k.pc l ls).1, loops := (afterLastLoop k.pc l ls).2 } else
      if l.stop = k.pc then
        if 1 < l.remaining then { k with pc := l.start, loops := { l with remaining := l.remaining - 1 } :: ls }
        else { k with loopDone := true }
      else { k with pc := k.pc + 1 }
    | [] => { k with pc := k.pc + 1 }

/-- The program counter has reached NBUNDLES without END (R276). -/
def Core.illegalFetch (k : Core) (nBundles : Nat) : Core :=
  if k.issuing && !k.ended && !k.loopDone && nBundles ≤ k.pc then { k with ended := true, cond := setBit k.cond 5 } else k

/-! ### Hold causes and counters (R228, R288, R327) -/

/-- Hold causes that core c raises now: unmet waits, a late item, its region's crossing (R288). -/
def State.raised (s : State) (c : Nat) : List Nat :=
  let k := s.core c
  (if k.waits.isEmpty then [] else [0]) ++ (k.late.toList.map Prod.fst) ++ (if s.hold.crossing.contains (regionOf c) then [4] else [])

/-- Counters of a list of causes raised by k periods, saturating (R228, R229). -/
def addCauses (m : Sparse Nat) (causes : List Nat) (k : Nat) : Sparse Nat :=
  causes.foldl (fun m c => Sparse.set 0 m c (min (Sparse.get 0 m c + k) (2 ^ 64 - 1))) m

/-- Every cause raised by some source. -/
def State.anyRaised (s : State) : List Nat :=
  ((s.fuse.ring.flatMap s.raised) ++ (if s.hold.throttle then [5] else [])).eraseDups

/-- Every active core has stopped. -/
def State.allStopped (s : State) : Bool := s.fuse.ring.all (fun c => (s.core c).stopped.isSome)

/-- A cause other than STEPPING and CROSSING is raised, or the change hold (R291, R511). -/
def State.keepsHold (s : State) : Bool :=
  s.hold.throttle || s.hold.change || s.fuse.ring.any (fun c => !(s.core c).waits.isEmpty || (s.core c).late.isSome)

/-- Is there pending work for the deadlock detector (R327). -/
def State.pendingWork (s : State) : Bool :=
  s.run.isSome || !s.remote.isEmpty || s.cmds.any (fun c => rowOf c.desc == some .semWait && c.ended.isNone) || s.cores.any (fun e => e.2.ladle.any (fun q => !q.2.waiting.isEmpty || !q.2.out.isEmpty))

/-- After progress the detector may post again (R329). -/
def Dld.settle (d : Dld) (noProgress : Nat) : Dld := { d with quiet := d.quiet && noProgress != 0 }

/-- The detector's count has reached 2^k: noProgress is 0 where the present period has seen progress, else one more than the count (R329). -/
def State.dldDue (s : State) : Bool := s.dld.en && !s.dld.quiet && s.pendingWork && decide (2 ^ s.dld.k < s.noProgress)

/-- Memory units with a write queued count k busy periods (MEM_CNT5). -/
def State.busyUnits (s : State) (k : Nat) : Sparse MemUnit :=
  let us := (s.mesh.filterMap (fun p => match p.2 with
    | .write _ a _ _ => if inWordMem a then some (if a < 0x10000000000 then a / 0x1800000000 else 8) else none
    | _ => none)).eraseDups
  us.foldl (fun m u =>
    let x := Sparse.get {} m u
    Sparse.set {} m u { x with cnt := Sparse.set 0 x.cnt 5 (min (Sparse.get 0 x.cnt 5 + k) (2 ^ 64 - 1)) }) s.memUnits

/-- The spread of an episode's stop counts, and the first stop of one that begins (R290, R297). -/
def State.noteEpisode (s : State) : State :=
  match (s.fuse.ring.filterMap (fun c => (s.core c).stopped)) with
  | [] => s
  | l =>
    let lo := l.foldl min (l.headD 0)
    let hi := l.foldl max 0
    let fresh := !s.hold.episode
    { s with hold := { s.hold with
        episode := true
        sMin := if fresh then lo else min s.hold.sMin lo
        sMax := if fresh then hi else max s.hold.sMax hi
        episodes := if fresh && !s.hold.freeze then min (s.hold.episodes + 1) (2 ^ 64 - 1) else s.hold.episodes
        skewMax := if s.hold.freeze then s.hold.skewMax
          else max s.hold.skewMax (min 255 ((if fresh then hi else max s.hold.sMax hi) - (if fresh then lo else min s.hold.sMin lo))) } }

/-- The hold root takes note of the causes and the stops: a cause raised after E was announced starts a new episode, in which the
    cores that have not resumed keep their stop counts (R294); CROSSING counts as cleared once every core has stopped, and from the
    epoch at which nothing else keeps the hold the release may be announced (R291). -/
def State.settleHold (s : State) : State :=
  let causes := s.keepsHold || !s.hold.crossing.isEmpty
  let h := if s.hold.release.isSome && causes then { s.hold with episode := false, release := none } else s.hold
  let h := { h with raising := h.raising || causes, crossing := if s.allStopped then [] else h.crossing }
  let s := ({ s with hold := h } : State).noteEpisode
  let free := s.hold.episode && s.hold.release.isNone && s.allStopped && !s.keepsHold
  { s with hold := { s.hold with ready := if free then some (s.hold.ready.getD s.epoch) else none } }

/-- The root announces E = e + 8 (R291). -/
def State.announce (s : State) : State :=
  { s with hold := { s.hold with release := some (s.epoch + 8), raising := false, ready := none, crossing := [] } }

/-- The end of an episode; a synchronised change is then complete and posts its event (R515). -/
def State.endEpisode (s : State) : State :=
  let s1 := { s with hold := { s.hold with episode := false, release := none, raising := false, ready := none, sMin := 0, sMax := 0 } }
  match s1.clk.change with
  | some c =>
    if c.stage = 3 then
      let s2 := { s1 with clk := { s1.clk with change := none, fchgResult := 0, fchgDone := true } }
      s2.postEvent s2.clk.fchgRing 4 0x300 0 (detailOf [(8, c.n), (1, c.step), (1, c.cfg), (1, c.hw.toNat)])
    else s1
  | none => s1

/-- The lowest core that has found a condition of the run, once, and the count at which issue ended (R587). -/
def State.noteFirst (s : State) : State :=
  match s.run with
  | some r =>
    let r := if r.firstCore.isNone then
        { r with firstCore := (List.range Config.nPhys).find? (fun c => (s.core c).cond != 0) } else r
    let r := if r.endCount.isNone then
        { r with endCount := (s.fuse.ring.find? (fun c => (s.core c).ended)).map (fun c => (s.core c).sched) } else r
    { s with run := some r }
  | none => s

/-- Issue stops on every active core; the context restarts without reseeding once the run completes (R279, R306). -/
def State.stopIssue (s : State) : State :=
  State.noteFirst
    { s.mapCores (fun _ k => { k with ended := true }) with run := s.run.map (fun r => { r with restart := true, diverged := false }) }

/-- A damaged bundle at the program counter of a core that issues count n (R279). -/
def State.badFetch (s : State) (n : Nat) : Bool :=
  match s.prog with
  | some p => (List.range Config.nPhys).any (fun c => s.issues n c && p.bad.contains (s.core c).pc)
  | none => false

/-- The instruction parity error of R279: marked on the cores that found it, and issue stops. -/
def State.instrParity (s : State) (n : Nat) : State :=
  (s.issue n (fun _ _ k => { k with cond := setBit k.cond 6 })).stopIssue

/-! ### A period of some cores -/

/-- The bundle that a core issues enters its trail, in debug mode. -/
def State.noteBundle (s : State) (c : Nat) : State :=
  if s.debug then
    let k := s.core c
    s.setCore c { k with trail := (k.sched, k.pc) :: k.trail }
  else s

/-- The cores of a list pass one period; bundle: at the end of a bundle, so the program counter moves. The hub takes the changes of all
    of them (R312). A semaphore that changes is progress (R328). -/
def State.period (s : State) (bundle : Bool) (cs : List Nat) : State :=
  let gl := cs.flatMap s.dueGlobal
  let s' := cs.foldl State.runCore (if bundle then cs.foldl State.noteBundle s else s)
  let s' := if bundle then
      let nb := match s.prog with
        | some p => p.nBundles
        | none => 16384
      cs.foldl (fun t c => t.setCore c ((t.core c).nextPc.illegalFetch nb)) s'
    else s'
  let s' := gl.foldl (fun t e => t.gsemChange e.1 e.2) s'
  let moved := cs.any (fun c => decide ((s'.core c).sems ≠ (s.core c).sems))
  ({ s' with noProgress := if moved then 0 else s'.noProgress } : State).noteFirst.waitsMet

/-! ### Time (log 13): the end of an epoch count -/

/-- Core c is to resume: the release epoch and its stop count's distance from the smallest one have been reached, at the start of a
    period of its region (R292). -/
def State.resumeDue (s : State) (c : Nat) : Bool :=
  match s.hold.release, (s.core c).stopped with
  | some e, some sc => s.fuse.active c && decide (e + (sc - s.hold.sMin) ≤ s.epoch) && !(s.region (regionOf c)).stopped
      && (s.region (regionOf c)).half != 2
  | _, _ => false

/-- Core c has ended a loop's last pass and its next bundle waits for that (R253). -/
def State.loopDue (s : State) (c : Nat) : Bool :=
  let k := s.core c
  s.fuse.active c && k.issuing && !k.ended && k.loopDone && k.stopped == none && !k.ticked && s.clockTicks c

/-- The epoch count of the next event of a synchronised change that must happen at one: the check of the locks, the change hold, the
    switch (R510 to R512). -/
def Change.moment (c : Change) : Option Nat :=
  match c.stage with
  | 0 => some (c.n - 64)
  | 1 => some (c.n - 32)
  | 2 => some c.n
  | _ => none

/-- A check-value unit still has bytes of the transfer to absorb or its value to write (R421). -/
def State.cvPending (s : State) (c q id : Nat) : Bool :=
  s.cvs.any (fun e => e.2.snoops.any (fun x => x.core == c && x.queue == q && x.id == id))

/-- Issue was stopped by R279 or R306: the context is about to restart. -/
def State.restarting (s : State) : Bool := match s.run with
  | some r => r.restart
  | none => false

/-- Every write of an outstanding transfer is acknowledged, the last one in an earlier cycle (R218). -/
def State.transferOver (s : State) (c q : Nat) (t : Transfer) : Bool :=
  decide (((t.desc.run + 127) / 128) * prod (t.desc.levels.map (fun l => l.count)) ≤ t.next) && t.reading == 0 && t.outst == 0
    && t.msg.isNone && !s.cvPending c q t.id && decide (t.doneAt < s.epoch) && !t.signalled

/-- It is a transfer's turn to signal in its queue: transfers with a signal make it in the order of their start (R218). -/
def State.signalTurn (s : State) (l : LadleQ) (t : Transfer) : Bool :=
  t.desc.semKind == 0 || t.dropped || s.restarting
    || (l.out.filter (fun x => x.desc.semKind != 0 && !x.dropped)).head?.map (fun x => x.id) == some t.id

/-- A transfer's end is due: its add takes effect in the cycle after the last acknowledgement (R218). -/
def State.signalDue (s : State) : Bool :=
  s.cores.any (fun e => s.clocked e.1 && e.2.ladle.any (fun q => q.2.out.any (fun t => s.transferOver e.1 q.1 t && s.signalTurn q.2 t)))

/-- An event whose moment has come has not happened yet: a frequency change's, a timeout's, the detector's, a
    Ladle transfer's signal (R218, R319, R329, R446, R487). -/
def State.momentDue (s : State) : Bool :=
  (s.clk.change.bind Change.moment).any (fun m => decide (m ≤ s.epoch))
  || s.remote.any (fun o => decide (o.since + 2 ^ s.tmoExp ≤ s.periods0))
  || s.writesOut.any (fun w => decide (w.2.2 + 2 ^ s.tmoExp ≤ s.periods0))
  || s.press.jobs.any (fun j => !j.armed && decide (j.since + 2 ^ s.press.tmoExp ≤ s.periods0))
  || s.dldDue || s.signalDue

/-- The present epoch count may end: every core that must issue a bundle in it has done so, and nothing else that must happen in it
    is left to happen (log 13). -/
def State.mayPass (s : State) : Bool :=
  !(List.range Config.nPhys).any (fun c => s.issues (s.core c).sched c || s.loopDue c || s.resumeDue c) && !s.momentDue

/-- The core is held in the present period (R290). -/
def Core.held (k : Core) : Bool := k.stopped.isSome && !k.ticked

/-- The core's run is not over and it issues nothing in the period: it is idle or has ended, so its count passes (R254, R280). -/
def Core.passes (k : Core) : Bool := k.issuing && !k.ticked && k.stopped.isNone && !k.stalls && (k.ended || k.idle != 0)

/-- The core stalls in the period, under STEPPING or not (R300, R302). -/
def Core.stallsNow (k : Core) : Bool := k.issuing && !k.ticked && k.stopped.isNone && k.stalls

/-- A hold cycle of the core, under some causes (R228, R229). -/
def Core.countHold (k : Core) (freeze : Bool) (causes : List Nat) : Core :=
  if freeze then k else { k with holdTotal := min (k.holdTotal + 1) (2 ^ 64 - 1), holdCause := addCauses k.holdCause causes 1 }

/-- One period of its region on a core: the generators advance (R196); a raise on its way is one period older (R290); a hold cycle is
    counted, under the causes that the core raises (R228) or under STEPPING (R300). -/
def Core.passHold (k : Core) (freeze raising : Bool) (causes : List Nat) : Core :=
  let k := { k with genAge := k.genAge + 1, raiseAge := if raising && k.stopped.isNone then k.raiseAge + 1 else k.raiseAge }
  if k.held then k.countHold freeze causes
  else if k.stallsNow then
    if k.stepping then { k.countHold freeze [6] with stall := k.stall + 1 } else { k.countHold freeze [] with pause := k.pause - 1 }
  else k

/-- The underflows of the period's SEMSUBs, each on the core that issued it (R304, R311). -/
def Core.subHazards (debug : Bool) (hub : List SemNet) (k : Core) : Core :=
  k.semSubs.foldl (fun k e =>
    if ((netOf (if e.2.2.1 then hub else k.semNet) e.2.2.2).map SemNet.under).getD false then
      k.hazardOf debug e.1 e.2.1 5 (if e.2.2.1 then 1024 + e.2.2.2 else e.2.2.2)
    else k) k

/-- The core at the start of the next epoch count: met waits no longer raise SEM_WAIT (R313); a core of a region that raises CROSSING, or
    one that a raise has been on its way to for 12 periods, stops (R288, R290). -/
def Core.passNext (k : Core) (crossing raising : Bool) : Core :=
  let k := { k with
    ticked := false, wideNow := [], vecNow := false, spadNow := false, ladleNow := false, semNet := [], semSubs := [], semErr0 := 0, waits := k.waits.filter (fun g => !(g.met || k.gateMet g)) }
  if k.stopped.isNone && (crossing || (raising && decide (12 ≤ k.raiseAge))) then { k with stopped := some k.sched } else k

/-- The core controllers' copies of the device-global semaphores whose change was made 12 counts ago (R314). -/
def State.copyOld (s : State) : State :=
  let old := s.gsemSent.filter (fun e => decide (e.2 + 12 ≤ s.epoch))
  if old.isEmpty then s
  else
    { s.mapCores (fun _ k => { k with gcopy := old.foldl (fun m e => Sparse.set 0 m e.1 (Sparse.get 0 s.gsems e.1)) k.gcopy }) with
      gsemSent := s.gsemSent.filter (fun e => decide (s.epoch < e.2 + 12)) }

/-- The die-wide counters after a period of region 0: a hold cycle where some core is held or stalls, under every cause that a source
    raises (R228, R297). -/
def State.passTotals (s : State) : HoldState :=
  let held := s.fuse.ring.filter (fun c => (s.core c).held)
  let stall := s.fuse.ring.filter (fun c => (s.core c).stallsNow)
  if s.hold.freeze || (held.isEmpty && stall.isEmpty) || !(s.region 0).ticks then s.hold
  else { s.hold with
    total := min (s.hold.total + 1) (2 ^ 64 - 1)
    cause := addCauses s.hold.cause ((held.flatMap s.raised ++ (if s.hold.crossing.isEmpty then [] else [4])
      ++ (if s.hold.throttle then [5] else []) ++ (if stall.any (fun c => (s.core c).stepping) then [6] else [])).eraseDups) 1 }

/-- The cores that issue nothing but whose counts go on pass their period (R254, R280). -/
def State.passIdle (s : State) : State :=
  let cs := (List.range Config.nPhys).filter (fun c => s.fuse.active c && (s.core c).passes && s.clockTicks c)
  if cs.isEmpty then s
  else (cs.foldl (fun t c => t.setCore c { t.core c with idle := (t.core c).idle - 1 }) s).period false cs

/-- The clocks after an epoch count: stretched periods go on, the count grows by one, λ returns to 0 at E (R296, R508, R521). -/
def State.passClocks (s : State) : State :=
  let s1 := { s.mapRegions (fun _ g => g.pass) with epoch := s.epoch + 1 }
  if s.hold.release == some s1.epoch then s1.mapRegions (fun _ g => { g with lag := 0 }) else s1

/-- A region's λ has grown: the regions that must raise CROSSING do (R296). -/
def State.noteCrossings (s before : State) : State :=
  if (List.range 16).any (fun r => decide ((before.region r).lag < (s.region r).lag)) then
    { s with hold := { s.hold with crossing := (s.hold.crossing ++ s.crossings).eraseDups } }
  else s

/-- The epoch count grows by one (R508). First the cores that issue nothing pass their period, if their region has one; then hold
    cycles, generators and the detector's periods are counted (R196, R228, R329), and the next count begins: stretched periods go on, a
    region may raise CROSSING, cores that a raise has reached stop, and the root takes note; it announces E at the latest 6 counts after
    its conditions hold (R289 to R296). -/
def State.pass (s : State) : State :=
  let p := s.passIdle
  let counted : State := { p.mapCores (fun c k => if p.clockTicks c then k.passHold p.hold.freeze p.hold.raising (p.raised c) else k) with
    hold := p.passTotals
    noProgress := if p.noProgress = 0 then 1 else if p.dld.en && p.pendingWork && (p.region 0).ticks then p.noProgress + 1 else p.noProgress
    dld := p.dld.settle p.noProgress
    memUnits := p.busyUnits 1 }
  let next : State := { counted.passClocks.mapCores (fun c k =>
      (k.subHazards p.debug p.gsemNet).passNext (p.hold.crossing.contains (regionOf c) && p.clockTicks c) p.hold.raising) with gsemNet := [], hostBanks := [] }
  let settled := (next.noteCrossings p).settleHold
  let out := if settled.hold.ready.any (fun e => decide (e + 6 ≤ settled.epoch)) then settled.announce else settled
  out.copyOld.noteFirst.waitsMet

/-- k epoch counts pass, or as many as may. -/
def State.passes : Nat → State → State
  | 0, s => s
  | k + 1, s => if s.mayPass then State.passes k s.pass else s

/-- The end of the bundle at count n on every core that issues it; the epoch count ends with it where nothing else is left to happen. -/
def State.endBundle (s : State) (n : Nat) : State :=
  let cs := (List.range Config.nPhys).filter (s.issues n)
  if cs.isEmpty then s
  else
    let s' := s.period true cs
    let s' := match s'.run with
      | some r => if r.diverged then s'.stopIssue else s'
      | none => s'
    if s'.mayPass then s'.pass else s'

/-- A parity error comes to a core that issues the bundle at count n, or to the bundle at each of their program counters; the store keeps
    that one. A Dasher's and an injection queue's are detected at once, the others when they are read (R98, R193, R279). -/
def State.strike (n : Nat) (s : State) (h : Hit) : State :=
  let at_ := fun (c : Nat) (f : Core → Core) => if s.issues n c then s.setCore c (f (s.core c)) else s
  match h with
  | .bundle =>
    let pcs := (((List.range Config.nPhys).filter (s.issues n)).map (fun c => (s.core c).pc)).eraseDups
    { s with prog := s.prog.map (fun p => { p with bad := pcs ++ p.bad }) }
  | .fwd c => at_ c (fun k => if k.fwd.valid then
      { k with fwd := { k.fwd with poison := true }, churnErr := setBit k.churnErr 0, cond := setBit k.cond 0 } else k)
  | .ret c => at_ c (fun k => if k.ret.valid then
      { k with ret := { k.ret with poison := true }, churnErr := setBit k.churnErr 1, cond := setBit k.cond 0 } else k)
  | .inj c u =>
    if s.issues n c && (s.core c).injq.any (fun i => i.unit == u && i.landed && !i.forNext) then
      let k := s.core c
      let d := Sparse.get ⟨[], [], false⟩ s.units u
      { s.setCore c { k with churnErr := setBit k.churnErr 2, cond := setBit k.cond 0 } with
        units := Sparse.set ⟨[], [], false⟩ s.units u { d with poison := true } }
    else s
  | .wbuf c a => at_ c (fun k => if k.wbufActive.valid then { k with wbufActive := { k.wbufActive with arrays := setBit k.wbufActive.arrays a } } else k)
  | .acc c a row => at_ c (fun k => { k with accPoison := Sparse.set false k.accPoison (a * 2048 + row % 2048) true })
  | .slot c v => at_ c (fun k => { k with pailPoison := Sparse.set false k.pailPoison v true })
  | .mask c m => at_ c (fun k => { k with maskPoison := Sparse.set false k.maskPoison m true })

/-- Several parity errors. -/
def State.strikes (s : State) (n : Nat) (hits : List Hit) : State := hits.foldl (State.strike n) s

/-- A slot's instruction of the bundle at count n, the bundle's last slot or not (R237). -/
def State.slot (s : State) (n : Nat) (last : Bool) (f : State → Nat → Core → Core) : State :=
  if s.badFetch n then s.instrParity n
  else
    let s' := s.issue n f
    if last then s'.endBundle n else s'

end Sys2Proof.Machine
end

