-- ==== Sys2Proof/Machine/Operands.lean ====
section
/-! DEFINITION. Operand forms of the core program: broadcast sources, masks and inactive lanes, immediates, scalar and
vector results (06, 08). -/

namespace Sys2Proof.Machine

/-! ### Vector operands (R166, R179) -/

/-- Lane i of a source operand: its own lane, or lane LANE_SEL for every lane (R179). -/
def Core.src (k : Core) (fr c n : Nat) (v : VSrc) (i : Nat) : W32 :=
  k.lane fr c n v.slot (if v.ls then i else v.sel)

/-- Lane i is active: its mask bit is 1 and it lies below VL (R163, R166). -/
def Core.active (k : Core) (fr c n : Nat) (m i : Nat) : Bool := (k.readMask fr c n m).getLsbD i && decide (i < k.vl)

/-- The lanes of a predicate as a mask (R165). -/
def maskOf (p : Nat → Bool) : BitVec 128 := (BitVec.ofBoolListLE ((List.range 128).map p)).setWidth 128

/-- The errors of reading poisoned slots and masks (R193, R614). -/
def Core.noteVec (k : Core) (slots masks : List Nat) : Core :=
  let k := (slots.filter k.slotPoison).foldl Core.slotParity k
  if masks.any k.maskPois then { k with vecErr := setBit k.vecErr 1, cond := setBit k.cond 0 } else k

/-- The lanes that a source operand reads: all of its slot, or one (R179). -/
def VSrc.lanes (v : VSrc) : Nat × Option Nat := (v.slot, if v.ls then none else some v.sel)

/-- Hazards and parity of a vector instruction's reads. -/
def Core.vecReads (k : Core) (debug : Bool) (n : Nat) (lanes : List (Nat × Option Nat)) (masks : List Nat) : Core :=
  ((lanes.foldl (Core.checkLane debug n) k).checkReads debug n (masks.map (fun m => (2, m)))).noteVec (lanes.map Prod.fst) masks

/-- A vector operation that writes a slot: word op i in each active lane; the others keep theirs or are zero (R166);
    readable lat counts later (R174); poison spreads (R193). ms: masks it reads beside its write mask. -/
def Core.vector (s : State) (n lat item : Nat) (v : VFields) (srcs : List VSrc) (ms : List Nat)
    (op : Core → Nat → Nat → W32) (c : Nat) (k : Core) : Core :=
  let act := fun i => k.active s.free c n v.mask i
  let slots := srcs.map (fun x => x.slot)
  let which := if v.zero then BitVec.allOnes 128 else maskOf act
  let words := (List.range 128).map (fun i => if act i then op k c i else 0)
  let bad := slots.any k.slotPoison || (v.mask :: ms).any k.maskPois
  ((k.vecReads s.debug n (srcs.map VSrc.lanes) (v.mask :: ms)).land n lat (.slot v.vd which words bad)).contract s.fuse item n 0

/-- A vector operation of one source. -/
def Core.vec1 (s : State) (n lat item : Nat) (v : VFields) (f : W32 → W32) : Nat → Core → Core :=
  Core.vector s n lat item v [v.va] [] (fun k c i => f (k.src s.free c n v.va i))

/-- A vector operation of two sources. -/
def Core.vec2 (s : State) (n lat item : Nat) (v : VFields) (f : W32 → W32 → W32) : Nat → Core → Core :=
  Core.vector s n lat item v [v.va, v.vb] [] (fun k c i => f (k.src s.free c n v.va i) (k.src s.free c n v.vb i))

/-- A vector operation of three sources. -/
def Core.vec3 (s : State) (n lat item : Nat) (v : VFields) (f : W32 → W32 → W32 → W32) : Nat → Core → Core :=
  Core.vector s n lat item v [v.va, v.vb, v.vc] [] (fun k c i =>
    f (k.src s.free c n v.va i) (k.src s.free c n v.vb i) (k.src s.free c n v.vc i))

/-! ### Scalar operands (R248, R249) -/

/-- An immediate, sign-extended (R249). -/
def sextImm (imm : W32) : W64 := imm.signExtend 64

/-- A scalar-slot result readable one count later. -/
def Core.scalarRes (s : State) (n sd : Nat) (v : W64) (k : Core) : Core :=
  (k.land n 1 (.sreg true sd v)).contract s.fuse 0 n 0

/-- Register form: SD = SA op SB. -/
def Core.scalarR (s : State) (n sd sa sb : Nat) (f : W64 → W64 → W64) (c : Nat) (k : Core) : Core :=
  (k.checkReads s.debug n [(0, sa), (0, sb)]).scalarRes s n sd (f (k.readS s.free c n sa) (k.readS s.free c n sb))

/-- Immediate form: SD from SA and IMM32. -/
def Core.scalarI (s : State) (n sd sa : Nat) (f : W64 → W64) (c : Nat) (k : Core) : Core :=
  (k.checkReads s.debug n [(0, sa)]).scalarRes s n sd (f (k.readS s.free c n sa))

/-- Local offset of a narrow access: bits [24:0] of SA + IMM32 (R250). -/
def Core.narrowOff (k : Core) (fr c n sa : Nat) (imm : W32) : Nat := (k.readS fr c n sa + sextImm imm).toNat % 2 ^ 25

/-- V of a semaphore instruction (R260). -/
def Core.semAmount (k : Core) (fr c n sa : Nat) (imm : BitVec 16) : Nat :=
  ((k.readS fr c n sa).toNat % 2 ^ 32 + imm.toNat) % 2 ^ 32

end Sys2Proof.Machine
end

