-- ==== Sys2Proof/Machine/Churn.lean ====
section
/-! DEFINITION. The Churn: a step of both lanes, injection, the return round, delivery (03, 04, 08 R261, R262). -/

namespace Sys2Proof.Machine

/-! ### The forward lane (R83 to R92) -/

/-- The unit at ring position p in step st of a run of n units, and the quarter that injected it (R90). -/
def Fuse.unitAt (f : Fuse) (n p st : Nat) : Option Nat :=
  (List.range 4).findSome? (fun q =>
    let d := (p + f.g - f.injPos q) % f.g
    if d ≤ st ∧ st - d < n ∧ (st - d) % 4 = (4 - q) % 4 then some (st - d) else none)

/-- The unit an injector of quarter q injects in step st: unit st if it is the quarter's turn and the run has it (R89). -/
def turnOf (n q st : Nat) : Option Nat := if st < n ∧ (4 - st % 4) % 4 = q then some st else none

/-- The unit that core c must have landed to issue step st. -/
def State.dueUnit (s : State) (c st : Nat) : Option Nat :=
  match s.run, s.fuse.injQuarter c with
  | some r, some q => turnOf r.units q st
  | _, _ => none

/-- The due unit has landed in the injection queue. -/
def Core.hasUnit (k : Core) (u : Nat) : Bool := k.injq.any (fun i => i.unit == u && i.landed && !i.forNext)

/-- Units of the table that a run named by a descriptor injects (R91, R566). -/
def State.descUnits (s : State) (d : Desc) : Option Nat :=
  if fieldAt d 0 1 = 2 ∧ bitOf (fieldAt d 10 1) 7 then
    match s.prog.bind (fun p => p.table (fieldAt d 10 1 % 16)) with
    | some t => if t.op then none else some t.count
    | none => none
  else none

/-- Units of the table whose first units an injection queue may request early: the run that follows the present run
    in its ring, once its descriptor has been read (R226). -/
def State.earlyTable (s : State) : Option Nat :=
  match s.run.bind (fun r => s.cmds.find? (fun c => c.id == r.cmd)) with
  | some c =>
    let r := Sparse.get {} s.crings c.ring
    if r.head = (c.count + 1) % 2 ^ 32 then r.descs.head?.bind s.descUnits else none
  | none => none

/-- Requests of the injection queue after unit u is injected: the unit 16 steps later, or with the last unit's
    request made, the following run's first four (R91, R226). -/
def Core.nextRequest (k : Core) (n u : Nat) (early : Option Nat) (q : Nat) : Core :=
  let k := { k with injq := k.injq.filter (fun i => !(i.unit == u && !i.forNext)) }
  if u + 16 < n then
    let k := { k with injq := k.injq ++ [{ unit := u + 16 }] }
    if u + 20 < n then k
    else match early with
      | some m => { k with injq := k.injq ++ (firstUnits m q).map (fun x => { unit := x, forNext := true }) }
      | none => k
  else k
where
  /-- The first four units of quarter q in a run of m units. -/
  firstUnits (m q : Nat) : List Nat := ((List.range 4).map (fun j => 4 * j + (4 - q) % 4)).filter (fun u => u < m)

/-! ### The return lane (R93 to R95, R118 to R126) -/

/-- The tile of a half-tile tag: index, its entry's bytes, whether a read entry is damaged (R349, R350). -/
def State.tileOf (s : State) (c : Nat) (t : Table) (tag : Nat) : Nat × List Byte × Bool :=
  let lo := t.base2 + 4 * (tag / 2)
  let u := leNat (s.spadBytes c lo 4)
  (u, s.spadBytes c (t.base + 32 * u) 32, s.spadBad c lo 4 || s.spadBad c (t.base + 32 * u) 32)

/-- The contribution of core c to the unit with a tag, at count n: 32 rows, masked rows +0 (R118, R119, R126), free where another array
    computed the tile (R242); the poison it brings (R98, R350). -/
def State.contribution (s : State) (c n : Nat) (k : Core) (t : Table) (tag : Nat) (broken : Bool) : Option (List W32) × Bool :=
  let (u, e, bad) := s.tileOf c t tag
  if bad then (none, true)
  else
    let acc := leAt e 16 2
    let a := acc / 2 ^ 12 % 4
    let row := acc % 2048 + 32 * (tag % 2)
    let mask := (s.rowMask c n (t.base + 32 * u) e).toNat
    let rows := (List.range 32).map (fun r =>
      if broken || k.misTiles.contains (t.ut, u) then (List.range 64).map (fun j => free32 s.free (site n c (0xC00000 + r * 64 + j)))
      else if bitOf mask (32 * (tag % 2) + r) then k.readAcc s.free c n a (row + r) else List.replicate 64 0)
    let poison := (List.range 32).any (fun r =>
      bitOf mask (32 * (tag % 2) + r) && Sparse.get false k.accPoison (a * 2048 + (row + r) % 2048))
    (some rows.flatten, poison)

/-- Rows of the accumulators read by a contribution, as marks of the step (R134). DESIGN CHOICE: a masked row, which contributes +0, counts
    as read (log 65). -/
def State.contribRows (s : State) (c : Nat) (t : Table) (tag : Nat) : List (Nat × Nat) :=
  let (_, e, bad) := s.tileOf c t tag
  if bad then []
  else
    let acc := leAt e 16 2
    (List.range 32).map (fun r => (acc / 2 ^ 12 % 4 * 2048 + (acc % 2048 + 32 * (tag % 2) + r) % 2048, 0))

/-- The errors and hazards of a contribution at count n (R98, R119, R304, R350). -/
def State.contribErr (s : State) (c n : Nat) (t : Table) (tag : Nat) (poison : Bool) (k : Core) : Core :=
  let (u, e, bad) := s.tileOf c t tag
  if bad then
    if s.spadBad c (t.base2 + 4 * (tag / 2)) 4 then s.spadCheck c (t.base2 + 4 * (tag / 2)) 4 k else s.spadCheck c (t.base + 32 * u) 32 k
  else
    let acc := leAt e 16 2
    let a := acc / 2 ^ 12 % 4
    let row := acc % 2048 + 32 * (tag % 2)
    let mask := (s.rowMask c n (t.base + 32 * u) e).toNat
    let k := (List.range 32).foldl (fun k r =>
      if bitOf mask (32 * (tag % 2) + r) && k.accEarly n a (row + r) then k.hazardAt s.debug n 3 (3 * 2 ^ 12 + (row + r) % 2048) else k) k
    if poison then { k with churnErr := setBit k.churnErr (8 + a), cond := setBit k.cond 0 } else k

/-- A received unit plus this core's contribution, received value first (R95); a damaged entry adds nothing and
    poisons the unit (R350). -/
def addUnit (u : RetUnit) (own : Option (List W32)) (poison : Bool) : RetUnit :=
  match own with
  | some ws => { u with words := u.words.zipWith fadd ws, poison := u.poison || poison }
  | none => { u with poison := true }

/-- The writes of a delivered unit: rows by the row mask, in the dW format (R123, R126, R349, R350, R615). -/
def State.deliverWrites (s : State) (c : Nat) (t : Table) (u : RetUnit) : List (Nat × List MByte × Bool) :=
  let (i, e, bad) := s.tileOf c t u.tag
  if bad then []
  else
    let fmt := match s.prog.bind (fun p => p.tensor t.handle) with
      | some d => d.desc.fmt % 16
      | none => 0
    let deliv := leAt e 0 8
    let base := deliv % 2 ^ 52 + 32 * (u.tag % 2) * lineBytes fmt
    let mask := (s.rowMask c 0 (t.base + 32 * i) e).toNat
    ((List.range 32).filter (fun r => bitOf mask (32 * (u.tag % 2) + r))).map (fun r =>
      let ws := (List.range 64).map (fun j => encodeElem fmt false (f32 (u.words.getD (64 * r + j) 0)))
      (resolveSelf c (base + r * lineBytes fmt), markAll u.poison (packElems fmt ws), bitOf deliv 63))

/-! ### The fetch of injected units (R91, R669, R344) -/

/-- Tag under which a unit fetched for the following run is kept until that run starts. -/
def forNextTag (u : Nat) : Nat := u + 2 ^ 40

/-- The table whose units a queue requests: the run's, or that of the run that follows in its ring (R226, R566). -/
def State.injTable (s : State) (forNext : Bool) : Option Table :=
  if forNext then
    match s.run.bind (fun r => s.cmds.find? (fun c => c.id == r.cmd)) with
    | some c => (s.cring c.ring).descs.head?.bind (fun d =>
        if (s.descUnits d).isSome then s.prog.bind (fun p => p.table (fieldAt d 10 1 % 16)) else none)
    | none => none
  else s.run.bind (fun r => r.inj.bind (fun ut => s.prog.bind (fun p => p.table ut)))

/-- The parts that a unit is fetched from: address and bytes of each tile, then of each tile's scale bytes (R344). -/
def injParts (t : Table) (fmt : Nat) (entry : List Byte) : List (Nat × Nat) × List (Nat × Nat) :=
  let tb := 64 * lineBytes (fmt % 16)
  let a := leAt entry 0 8 % 2 ^ 52
  let sc := leAt entry 8 8 % 2 ^ 52
  ((List.range t.m).map (fun i => (a + i * t.nBlocks * tb, tb)),
   if fmtIsMX fmt then (List.range t.m).map (fun i => (sc + i * t.nBlocks * 128, 128)) else [])

/-- The parts of a unit through core c's injection entry for it. -/
def State.unitParts (s : State) (c : Nat) (t : Table) (unit : Nat) : List (Nat × Nat) × List (Nat × Nat) :=
  injParts t (s.tableFmt t.ut) (s.spadBytes c (t.base2 + 16 * (unit / 4)) 16)

/-- A unit lands: it is kept for its run, its request is done, and a core that the hold waits on for it goes on (R91). cond:
    what the fetch found. -/
def State.landUnit (s : State) (c unit : Nat) (forNext : Bool) (u : UnitData) (cond : Nat) : State :=
  let k := s.core c
  let due := !forNext && s.dueUnit c k.stepNo == some unit
  let k : Core := { k with
    injq := k.injq.map (fun i => if i.unit = unit ∧ i.forNext = forNext then { i with landed := true, cond := cond } else i)
    cond := if forNext then k.cond else k.cond ||| cond
    late := match k.late with
      | some (_, none) => if due then none else k.late
      | l => l }
  let key := if forNext then forNextTag unit else unit
  ({ s with units := Sparse.set ⟨[], [], false⟩ s.units key u, noProgress := 0 } : State).setCore c k

/-- The fetch of a requested unit cannot be made: it lands at once, poisoned (R669). What is found wrong counts for the run that injects
    the unit. DESIGN CHOICE: the unit's bytes, which the spec does not give, are free (log 66). -/
def State.landBroken (s : State) (core unit : Nat) (forNext : Bool) (t : Table) : Option State :=
  let k := s.core core
  let off := t.base2 + 16 * (unit / 4)
  let parts := s.unitParts core t unit
  let u : UnitData := ⟨freeBytes s.free (site unit core 314) (t.m * (64 * lineBytes (s.tableFmt t.ut % 16))), freeBytes s.free (site unit core 315) (t.m * 128), true⟩
  if s.spadBad core off 16 then
    some ((s.setCore core { s.spadCheck core off 16 k with cond := k.cond }).landUnit core unit forNext u 1)
  else if !(parts.1 ++ parts.2).all (fun p => s.rangeOk false core p.1 (p.1 + p.2 - 1)) then
    some ((s.setCore core (k.ladleFail 7 0 (free32 s.free (site 0 core 312)).toNat)).landUnit core unit forNext u 2)
  else none

/-- The unit that core c must have landed to step lands now if its fetch cannot be made, so that it raises no hold (R669). -/
def State.landDue (s : State) (c : Nat) : State :=
  match s.dueUnit c (s.core c).stepNo, s.injTable false with
  | some u, some t => if (s.core c).hasUnit u || !(s.core c).injq.any (fun i => i.unit == u && !i.forNext) then s else (s.landBroken c u false t).getD s
  | _, _ => s

/-! ### Rounds -/

/-- The unit that core c receives in its present step: what the next core on the ring sent in the step before (R94). -/
def State.received (s : State) (c st : Nat) : RetUnit :=
  let q := s.core (s.fuse.coreAt ((s.fuse.pos c + 1) % s.fuse.g))
  if q.stepNo = st then q.ret else q.retPrev

/-- What a step does on the return lane of core c at count n: the core, and a unit to deliver with its table
    (R94, R120 to R123). -/
def State.returnStep (s : State) (c n st : Nat) (retStart : Bool) (rt : Nat) (broken : Bool) (k : Core) : Core × Option (Table × RetUnit) :=
  let g := s.fuse.g
  let recv := s.received c st
  let tbl := fun ut => s.prog.bind (fun p => p.table ut)
  let old := match k.round with
    | some (kk, j, ut) => if kk + 1 ≤ g - 1 then some (kk + 1, j, ut) else none
    | none => none
  -- the unit held in this step with this core's contribution
  let held := match old with
    | some (_, _, ut) => match tbl ut with
      | some t => if recv.valid then
          let (own, poison) := s.contribution c n k t recv.tag broken
          let k := { s.contribErr c n t recv.tag poison k with accStep := s.contribRows c t recv.tag ++ k.accStep }
          let k := if recv.poison then { k with churnErr := setBit k.churnErr 1, cond := setBit k.cond 0 } else k
          (k, addUnit recv own poison)
        else (k, {})
      | none => (k, {})
    | none => (k, {})
  let k := held.1
  let last := match old with
    | some (kk, _, _) => kk == g - 1
    | none => false
  let deliver := match old with
    | some (_, _, ut) => if last && held.2.valid then (tbl ut).map (fun t => (t, held.2)) else none
    | none => none
  let sent := if last then {} else held.2
  let k := { k with round := if last then none else old }
  let start : Core × RetUnit := if retStart then
      let j := match old with
        | some (_, j, ut) =>
          -- the product's next round while it has one, else the first of a product of its own (R122)
          if last && ut == rt && decide ((j + 1) * g < ((tbl rt).map (fun t => 2 * t.tiles)).getD 0) then j + 1 else 0
        | none => 0
      match tbl rt with
      | some t =>
        let tag := j * g + s.fuse.pos c
        let k := { k with round := some (0, j, rt) }
        if tag < 2 * t.tiles then
          let (own, poison) := s.contribution c n k t tag broken
          let k := { s.contribErr c n t tag poison k with accStep := s.contribRows c t tag ++ k.accStep }
          match own with
          | some ws => (k, { valid := true, tag := tag, words := ws, poison := poison })
          | none => (k, { valid := true, tag := tag, words := List.replicate 2048 0, poison := true })
        else (k, {})
      | none => (k, sent)
    else (k, sent)
  ({ start.1 with ret := start.2, retPrev := k.ret }, deliver)

/-! ### A step (R261) -/

/-- Running WS and TR operations still have rows when their buffer is loaded again: unspecified results (R69). -/
def Core.overrun (k : Core) (a : Nat) : Core :=
  let ar := Sparse.get {} k.arrays a
  match ar.run with
  | some o => if o.op.mode = 2 then k
    else
      let ar' := { run := some { o with garbage := true }, queue := ar.queue }
      { k with arrays := Sparse.set {} k.arrays a ar' }
  | none => k

/-- Is the unit that core c's forward Dasher takes in its step st poisoned: the unit it injects, or what the core before it on the ring
    held in the step before (R83, R98). -/
def State.takesPoison (s : State) (c st u : Nat) (injects : Bool) : Bool :=
  let q := s.core (s.fuse.coreAt ((s.fuse.pos c + s.fuse.g - 1) % s.fuse.g))
  if injects then (Sparse.get ⟨[], [], false⟩ s.units u).poison
  else if q.stepNo = st then q.fwd.poison else q.wbufActive.poison

/-- A STEP issues too early (R84). -/
def State.stepEarly (s : State) (n : Nat) (k : Core) : Bool :=
  let t := match s.run.bind (fun r => r.inj) with
    | some ut => laneBeats (s.tableFmt ut)
    | none => 64
  match k.lastStep with
  | some l => n < l + t
  | none => false

/-- STEP on core c at count n. Its beats hop, cross and are added on every core, so their excess stalls every core (log 74). late: what a
    unit that has not landed waits behind, 0 for its transfer, 1 a refresh, 2 a link replay (R227). In debug mode the bundle after it waits for 2 more periods (R302). -/
def State.stepCore (s : State) (n : Nat) (retStart : Bool) (rt late : Nat) (c : Nat) (k : Core) : Core × Option (Table × RetUnit) :=
  let st := k.stepNo
  let units := match s.run with
    | some r => r.units
    | none => 0
  match s.dueUnit c st with
  | some u => if k.hasUnit u then go st units (some u) else ({ k with late := some (1 + late % 3, none), stopped := some n }, none)
  | none => go st units none
where
  /-- The step itself, once the unit to inject has landed. -/
  go (st units : Nat) (inj : Option Nat) : Core × Option (Table × RetUnit) :=
    let early := s.stepEarly n k
    let broken := early || (match s.run with
      | some r => r.laneBroken
      | none => false)
    let k := if early then k.hazardAt s.debug n 8 (n - k.lastStep.getD n) else k
    let k := (List.range 4).foldl Core.overrun k
    let held : Held := match s.fuse.unitAt units (s.fuse.pos c) st with
      | some u => { valid := true, tag := u, poison := s.takesPoison c st u inj.isSome }
      | none => {}
    let k := { k with wbufActive := k.fwd, fwd := held, accStep := [] }
    let k := if held.poison then { k with churnErr := setBit (if inj.isSome then setBit k.churnErr 2 else k.churnErr) 0, cond := setBit k.cond 0 } else k
    let k := match inj with
      | some u => k.nextRequest units u s.earlyTable ((s.fuse.injQuarter c).getD 0)
      | none => k
    let (k, d) := s.returnStep c n st retStart rt broken k
    let fmt := match s.run.bind (fun r => r.inj) with
      | some ut => s.tableFmt ut
      | none => 1
    let k := { k with stepNo := st + 1, lastStep := some n, pause := if s.debug then k.pause + 2 else k.pause, pauseFrom := n + 1 }
    (((((k.contract s.fuse 13 n (laneBeats fmt - 64)).contract s.fuse 15 n 0).contract s.fuse 16 n 0).contract s.fuse 17 (n + 2) 0).contract
      s.fuse 17 (n + 8) 0, d)

/-- A delivery put on core c: its writes sent, its semaphore noted (R123, R124). -/
def State.putDelivery (s : State) (n c : Nat) (d : Option (Table × RetUnit)) : State :=
  match d with
  | none => s
  | some (t, u) =>
    let ws := s.deliverWrites c t u
    let k := s.core c
    let dn := if bitOf t.plan.doneSem 15 then some (t.plan.doneSem % 1024) else none
    let k := { k with deliveries := k.deliveries ++ [{ id := n, done := dn, outst := ws.length, doneAt := s.epoch }] }
    (s.setCore c k).send (ws.map (fun w => Packet.write (.delivery c n) w.1 w.2.1 w.2.2))

/-- STEP: buffers swap, Dashers send, injectors inject, a return round may start (R261, R83, R89, R94). A core whose
    unit to inject has not landed stops at this count instead, unless the unit's fetch cannot be made (R91, R288, R669). hits: parity errors
    that are there in its period, as with NOP. A bundle that no core issues is no progress (R328). -/
def execStepChurn (n : Nat) (last retStart : Bool) (rt late : Nat) (hits : List Hit) (s : State) : Host.Outcome State Fault Refusal :=
  fetched s n (stepWord retStart rt) <|
  let cs := (List.range Config.nPhys).filter (s.issues n)
  let s0 := cs.foldl State.landDue (s.strikes n hits)
  if s0.badFetch n then .next (s0.instrParity n)
  else
    let res := cs.map (fun c => (c, s0.stepCore n retStart rt late c (s0.core c)))
    let s1 := s0.issue n (fun s c k => (s.stepCore n retStart rt late c k).1)
    let s2 := res.foldl (fun t r => t.putDelivery n r.1 r.2.2) s1
    let s3 := if cs.any (fun c => s0.stepEarly n (s0.core c)) then
        { s2 with run := s2.run.map (fun r => { r with laneBroken := true }) } else s2
    let live := (res.filter (fun r => r.2.1.stopped.isNone)).map (fun r => r.2.1.stepNo)
    let lo := live.foldl min (live.headD 0)
    let s4 := { s3 with units := if live.isEmpty then s3.units else s3.units.filter (fun e => lo < e.1 + s.fuse.g + 3) }
    let s5 := ({ s4 with noProgress := if live.isEmpty then s.noProgress else 0 } : State).settleHold
    .next (if last then s5.endBundle n else s5)

/-- DELIVERY_SIGNAL: every write of a delivered unit is acknowledged, the last in an earlier cycle; 1 is added to DONE_SEM (R124, R350). -/
def execDeliverySignal (core id : Nat) (s : State) : Host.Outcome State Fault Refusal := live s <|
  let k := s.core core
  .next (match k.deliveries.find? (fun d => d.id == id) with
    | some d =>
      if d.outst = 0 ∧ d.doneAt < s.epoch then
        let s' := s.setCore core { k with deliveries := k.deliveries.filter (fun x => x.id != id) }
        match d.done with
        | some i => (s'.gsemChange i 1).waitsMet
        | none => s'
      else s
    | none => s)

end Sys2Proof.Machine
end

