-- ==== Sys2Proof/Machine/Crc.lean ====
section
/-! DEFINITION. Cyclic redundancy checks: the four of R418, CRC-32C for images and the calibration record
(R267, R597). -/

namespace Sys2Proof.Machine

/-- One bit of a reflected CRC register: shift right, add the reversed polynomial if a one left. -/
def crcRefBit (poly reg : Nat) : Nat := if reg % 2 = 1 then (reg / 2) ^^^ poly else reg / 2

/-- One bit of a plain CRC register of w bits: shift left, add the polynomial if a one left. -/
def crcBit (w poly reg : Nat) : Nat :=
  if bitOf reg (w - 1) then (reg * 2 % 2 ^ w) ^^^ poly else reg * 2 % 2 ^ w

/-- Width, polynomial (reversed where reflected), initial value, reflected, final exclusive-or (R418). -/
def crcParam : Nat → Nat × Nat × Nat × Bool × Nat
  | 0 => (32, 0xEDB88320, 0xFFFFFFFF, true, 0xFFFFFFFF)
  | 1 => (32, 0x82F63B78, 0xFFFFFFFF, true, 0xFFFFFFFF)
  | 2 => (64, 0x42F0E1EBA9EA3693, 0, false, 0)
  | _ => (16, 0x1021, 0xFFFF, false, 0)

/-- f applied n times. -/
def iter {α : Type} (f : α → α) : Nat → α → α
  | 0, x => x
  | n + 1, x => iter f n (f x)

/-- One byte absorbed. -/
def crcByte (k reg : Nat) (b : Byte) : Nat :=
  let p := crcParam k
  if p.2.2.2.1 then iter (crcRefBit p.2.1) 8 (reg ^^^ b.toNat)
  else iter (crcBit p.1 p.2.1) 8 (reg ^^^ (b.toNat * 2 ^ (p.1 - 8)))

/-- Bytes absorbed in order. -/
def crcBytes (k reg : Nat) (bs : List Byte) : Nat := bs.foldl (crcByte k) reg

/-- The register before the first byte. -/
def crcInit (k : Nat) : Nat := (crcParam k).2.2.1

/-- The value of a register. -/
def crcValue (k reg : Nat) : Nat := reg ^^^ (crcParam k).2.2.2.2

/-- CRC-32C of bytes. -/
def crc32c (bs : List Byte) : Nat := crcValue 1 (crcBytes 1 (crcInit 1) bs)

end Sys2Proof.Machine
end

