-- ==== Sys2Proof/Machine/GribyOps.lean ====
section
/-! DEFINITION. Sending on a Griby port: the peer table, the choice of port, slots, credits, the replay buffer
(15 R467 to R482). -/

namespace Sys2Proof.Machine

/-- Port n. -/
def State.port (s : State) (n : Nat) : Port := Sparse.get {} s.ports n

/-- Port n replaced. -/
def State.setPort (s : State) (n : Nat) (p : Port) : State := { s with ports := Sparse.set {} s.ports n p }

/-- A loop-back of the named target runs (R623). -/
def State.testOn (s : State) (target unit : Nat) : Bool := match s.loopTest with
  | some t => t.target == target && t.unit == unit
  | none => false

/-- A port in service: up, not reflecting (R624), not under a far-end loop-back (R623). -/
def State.portUp (s : State) (n : Nat) : Bool :=
  (s.port n).state == 2 && !bitOf s.reflect n && (match s.loopTest with
    | some t => !(t.target == 0 && t.unit == n && t.depth == 2)
    | none => true)

/-- The ports in the peer's PORTMASK that are up, in ascending order (R478, R479). -/
def State.peerPorts (s : State) (peer : Nat) : List Nat :=
  let e := (Sparse.get 0 s.peers peer).toNat
  if bitOf e 63 then (List.range 24).filter (fun n => bitOf e (32 + n) && s.portUp n) else []

/-- The incarnation the peer table holds (R318). -/
def State.peerIncarn (s : State) (peer : Nat) : Nat := (Sparse.get 0 s.peers peer).toNat % 2 ^ 16

/-- HOPS of messages this device originates (R480). -/
def State.hops (s : State) : Nat := bits s.grbCtl 19 16

/-- Is the message kind on the Whey channel (R469). -/
def isWhey (kind : Nat) : Bool := 0x10 ≤ kind

/-- The slots of a message (R470, R471). -/
def slotsOf (m : Msg) : List GSlot :=
  let n := if isWhey m.kind then (if m.body.length ≤ 224 then 1 else 2) else ceilDiv m.body.length 256
  (List.range n).map (fun i => ⟨isWhey m.kind, some m, i, n⟩)

/-- A message's 32-byte header (R469). -/
def Msg.header (m : Msg) : List Byte :=
  leBytes 1 m.kind ++ leBytes 1 m.hops ++ leBytes 2 m.dst ++ leBytes 2 m.src ++ leBytes 2 m.incarn ++ leBytes 4 m.len ++ leBytes 4 m.tag
    ++ leBytes 8 m.addr ++ leBytes 8 m.arg

/-- The 256 body bytes of a slot (R467). A Whey message's header comes first in its slots (R470), a bulk body's last slot is padded with
    zeros (R471); what the spec leaves open of a Whey or an idle slot is free (log 76). -/
def GSlot.bytes (fr seq : Nat) (sl : GSlot) : List Byte :=
  match sl.msg with
  | none => freeBytes fr (site seq 0 316) 256
  | some m =>
    let all := (if sl.whey then m.header else []) ++ m.body.map Prod.fst
    let own := (all.drop (256 * sl.part)).take 256
    own ++ (if sl.whey then freeBytes fr (site seq sl.part 317) (256 - own.length) else List.replicate (256 - own.length) 0)

/-- Bits of a control-lane item (R468). -/
def LaneItem.bits : LaneItem → Nat
  | .credit .. => 16
  | .ack _ => 12
  | .nak _ => 12
  | .header _ => 260
  | .identity .. => 52

/-- The item is a message's header. -/
def LaneItem.isHeader : LaneItem → Bool
  | .header _ => true
  | _ => false

/-- k bits of the control lane are sent: the items whose last bit that is, and what is left (R468). -/
def laneStep : Nat → List (LaneItem × Nat) → List LaneItem × List (LaneItem × Nat)
  | _, [] => ([], [])
  | k, (i, b) :: t => if b ≤ k then (i :: (laneStep (k - b) t).1, (laneStep (k - b) t).2) else ([], (i, b - k) :: t)

/-- The bulk slot that may be sent next: of the body in progress, or of the next body once its header's last bit has been sent, against a
    credit; outside a body, which runs contiguously, an idle one where the control lane has something to send (R471, R472). -/
def Port.bulkSlot (p : Port) : Option (GSlot × Port) :=
  let idle := if p.lane.isEmpty then none else some (⟨false, none, 0, 0⟩, p)
  match p.outq with
  | b :: t =>
    if 0 < p.creditBulk ∧ (b.part ≠ 0 ∨ 0 < p.hdrs) then
      some (b, { p with outq := t, creditBulk := p.creditBulk - 1, hdrs := if b.part = 0 then p.hdrs - 1 else p.hdrs })
    else if b.part ≠ 0 then none else idle
  | [] => idle

/-- The slot that a port sends next: a Whey slot that is ready before every bulk slot (R456, R458, R472). -/
def Port.nextSlot (p : Port) : Option (GSlot × Port) :=
  match p.wheyq with
  | w :: t => if 0 < p.creditWhey then some (w, { p with wheyq := t, creditWhey := p.creditWhey - 1 }) else p.bulkSlot
  | [] => p.bulkSlot

/-- A slot leaves on port n: numbered, kept for replay, with seven bits of the control lane (R467, R473). -/
def State.sendSlot (s : State) (n : Nat) (sl : GSlot) (p : Port) : State :=
  let l := laneStep 7 p.lane
  let q : Port := { p with
    replay := p.replay ++ [(p.txSeq, sl)], txSeq := (p.txSeq + 1) % 256
    cnt := if sl.msg.isSome then Sparse.set 0 p.cnt 0 (min (Sparse.get 0 p.cnt 0 + 1) (2 ^ 64 - 1)) else p.cnt
    lane := l.2, hdrs := p.hdrs + (l.1.filter LaneItem.isHeader).length }
  l.1.foldl (fun s i => s.emit (.item n i)) ((s.setPort n q).emit (.slot n p.txSeq sl.whey (sl.bytes s.free p.txSeq)))

/-- Slots are sent while there is something to send and fewer than 64 are unacknowledged (R473, log 76). -/
def pump (n : Nat) : Nat → State → State
  | 0, s => s
  | f + 1, s =>
    let p := s.port n
    if s.portUp n ∧ p.replay.length < 64 then
      match p.nextSlot with
      | some (sl, q) => pump n f (s.sendSlot n sl q)
      | none => s
    else s

/-- A port sends what it can. -/
def State.pumpPort (s : State) (n : Nat) : State := pump n 64 s

/-- A control-lane item joins those to be sent (R468). -/
def State.sendItem (s : State) (n : Nat) (i : LaneItem) : State :=
  (s.setPort n { s.port n with lane := (s.port n).lane ++ [(i, i.bits)] }).pumpPort n

/-- A message joins the slots of a port; a bulk message's header the control lane (R470, R471). -/
def State.sendOn (s : State) (n : Nat) (m : Msg) : State :=
  let p := s.port n
  if isWhey m.kind then (s.setPort n { p with wheyq := p.wheyq ++ slotsOf m }).pumpPort n
  else (s.setPort n { p with outq := p.outq ++ slotsOf m, lane := p.lane ++ [(.header m, 260)] }).pumpPort n

/-- The port on which a message of a flow leaves for a peer (R479); none where the peer is not reachable (R478). -/
def State.portFor (s : State) (flow dst : Nat) : Option Nat :=
  match s.peerPorts dst with
  | [] => none
  | ps => some (ps.getD (flow % ps.length) 0)

/-- A message goes to a reachable destination by its flow (R478, R479); none where it is not reachable. -/
def State.sendMsg (s : State) (flow : Nat) (m : Msg) : Option State :=
  (s.portFor flow m.dst).map (fun n => s.sendOn n m)

/-- A header for a message of this device to a peer. -/
def State.msgTo (s : State) (peer kind tag addr arg : Nat) (body : List MByte) : Msg :=
  { kind := kind, hops := s.hops, dst := peer, src := s.grbSelf, incarn := s.peerIncarn peer, tag := tag, addr := addr, arg := arg,
    body := body, len := body.length }

end Sys2Proof.Machine
end

