-- ==== Sys2Proof/Machine/Sync.lean ====
section
/-! DEFINITION. The sync slot: semaphore instructions, remote operations at their issuer, LDI (08 R260 to R265,
07 R210 to R221, 10 R309 to R320). STEP stands in Churn. -/

namespace Sys2Proof.Machine

/-- SEMWAIT: the condition is tested against the value after the changes of count n + 2 (R313). -/
def execSemwait (n : Nat) (last glob : Bool) (idx sa : Nat) (imm : BitVec 16) (s : State) : Host.Outcome State Fault Refusal :=
  fetched s n (semWord 1 glob idx sa imm.toNat) <|
  .next (s.slot n last fun s c k =>
    let k := k.checkRead s.debug n 0 sa
    { k with gates := k.gates ++ [⟨n + 3, glob, idx, k.semAmount s.free c n sa imm, false⟩] })

/-- SEM_WAIT_MET: a held core finds its wait's condition met in the present period; its SEM_WAIT cause clears with the next one, even if
    a later subtract lowers the value (R313). -/
def execSemWaitMet (core : Nat) (s : State) : Host.Outcome State Fault Refusal := live s <|
  let k := s.core core
  .next (s.setCore core { k with waits := k.waits.map (fun g => { g with met := g.met || k.gateMet g }) })

/-- SEMADD: V is added with contract item 18 (R309 to R312). V = 0 changes nothing (R310). -/
def execSemadd (n : Nat) (last glob : Bool) (idx sa : Nat) (imm : BitVec 16) (s : State) : Host.Outcome State Fault Refusal :=
  fetched s n (semWord 2 glob idx sa imm.toNat) <|
  .next (s.slot n last fun s c k =>
    let v := k.semAmount s.free c n sa imm
    let k := k.checkRead s.debug n 0 sa
    if v = 0 then k else (k.land n 3 (.sem glob idx v false)).contract s.fuse 18 n 0)

/-- SEMSUB: V is subtracted (R309 to R312). -/
def execSemsub (n : Nat) (last glob : Bool) (idx sa : Nat) (imm : BitVec 16) (s : State) : Host.Outcome State Fault Refusal :=
  fetched s n (semWord 3 glob idx sa imm.toNat) <|
  .next (s.slot n last fun s c k =>
    let v := k.semAmount s.free c n sa imm
    let k := k.checkRead s.debug n 0 sa
    if v = 0 then k else (k.land n 3 (.sem glob idx (-(v : Int)) true)).contract s.fuse 18 n 0)

/-- The common sample of count n kept for the cores that issue it later in a sweep. -/
def RunState.noteSemrd (n idx v : Nat) (r : RunState) : RunState :=
  { r with semrd := (n, idx, v) :: r.semrd.filter (fun e => n ≤ e.1 + 64 && !(e.1 == n && e.2.1 == idx)) }

/-- SEMRD: a core semaphore after 3 counts; a device-global one after 12, the value of one common cycle (R264). -/
def execSemrd (n : Nat) (last glob : Bool) (idx sd : Nat) (s : State) : Host.Outcome State Fault Refusal :=
  fetched s n (semWord 6 glob idx sd 0) <|
  if glob then
    let v := match s.run.bind (fun r => r.semrd.find? (fun e => e.1 == n && e.2.1 == idx)) with
      | some e => e.2.2
      | none => Sparse.get 0 s.gsems idx
    let s := { s with run := s.run.map (RunState.noteSemrd n idx v) }
    .next (s.slot n last fun s _ k => (k.land n 12 (.sreg true sd (BitVec.ofNat 64 v))).contract s.fuse 19 n 0)
  else .next (s.slot n last fun s _ k => (k.land n 3 (.semRead idx sd)).contract s.fuse 18 n 0)

/-! ### Remote operations (R263, R317 to R320) -/

/-- The outcome codes of R469: 0 done, 1 address error, 2 peer reset, 3 target switching, 4 unreachable; 5 timeout. -/
def outcomeStatus : Nat → Nat
  | 1 => 0x02 | 2 => 0x30 | 3 => 0x31 | 4 => 0x32 | _ => 0x33

/-- Is a target word with GLOBAL refused (R263). -/
def targetRefused (w : W64) (glob : Bool) : Bool :=
  let core := w.toNat % 256
  w.toNat / 2 ^ 23 != 0 || (159 < core && core != 255) || (core == 255) != glob

/-- An outcome other than done in a run's record: CONDITIONS bit 3, and bit 1 for an address error (R487, R587). -/
def RunState.noteRemote (o : Nat) (r : RunState) : RunState :=
  if o = 0 then r
  else { r with remote := r.remote ++ [outcomeStatus o], cond := setBit (if o = 1 then setBit r.cond 1 else r.cond) 3 }

/-- An outcome on the issuing core: REMOTE_ERR (R320). -/
def Core.noteRemote (o : Nat) (k : Core) : Core := if o = 0 then k else { k with semErr := setBit k.semErr 2, semErr0 := setBit k.semErr0 2 }

/-- An operation of this run, or of a transfer, store or delivery of core c, ends with an outcome (R320, R487, R587). -/
def State.runOutcome (s : State) (c o : Nat) : State :=
  let s := s.noteFirst
  { s with run := s.run.map (fun r =>
      { RunState.noteRemote o r with firstCore := if o = 0 ∨ r.firstCore.isSome then r.firstCore else some c }) }

/-- The core or the ring that issues a remote operation (R317). -/
def State.issuerKey (s : State) : RemoteBy → Nat × Nat
  | .core c => (0, c)
  | .transfer c _ 0 _ => (0, c)
  | .transfer _ _ cmd _ => (1, ((s.cmds.find? (fun x => x.id == cmd)).map (fun x => x.ring)).getD 64)
  | .command cmd => (1, ((s.cmds.find? (fun x => x.id == cmd)).map (fun x => x.ring)).getD 64)

/-- A remote operation that a core, a transfer or a command issues: it leaves on the Whey lane, or ends at once where
    its peer is not reachable; true if it left (R317, R478). -/
def State.remoteIssue (s : State) (by_ : RemoteBy) (w : W64) (glob : Bool) (idx : Nat) (amount : Int) : State × Bool :=
  let core := w.toNat % 256
  let peer := bits w.toNat 21 8
  let self := bitOf w.toNat 22
  let op : RemoteOp := ⟨s.remoteId, by_, s.issuerKey by_, self, peer, core, idx, amount, s.peerIncarn peer, s.periods0, none, false⟩
  let s' := { s with remote := s.remote ++ [op], remoteId := s.remoteId + 1 }
  if self then (s', true)
  else
    let arg := amount.natAbs + (if amount < 0 then 2 ^ 32 else 0) + (if glob then 2 ^ 33 else 0) + idx * 2 ^ 34 + core * 2 ^ 44
    match s'.sendMsg idx (s.msgTo peer 0x10 op.id 0 arg []) with
    | some t => (t, true)
    | none => (s, false)

/-- One core's RSEMADD or RSEMSUB at the bundle's count: V = 0 sends nothing, a refused target word is a descriptor
    error of the run, an unreachable peer ends the operation (R263, R310, R320, R478). -/
def State.remoteCore (n sa sb idx : Nat) (glob sub : Bool) (s : State) (c : Nat) : State :=
  let k := s.core c
  let v : Nat := (k.readS s.free c n sa).toNat % 2 ^ 32
  let w := k.readS s.free c n sb
  if v = 0 then s
  else if targetRefused w glob then s.setCore c ({ k with cond := setBit k.cond 2 }.noteRemote 1)
  else
    let r := s.remoteIssue (.core c) w glob idx (if sub then -(v : Int) else (v : Int))
    if r.2 then r.1 else (s.setCore c (k.noteRemote 4)).runOutcome c 4

/-- The operations of every issuing core, in core order. -/
def State.remoteSlot (s : State) (n : Nat) (last glob : Bool) (idx sa sb : Nat) (sub : Bool) : State :=
  if s.badFetch n then s.instrParity n
  else
    let cs := (List.range Config.nPhys).filter (s.issues n)
    let s' := cs.foldl (State.remoteCore n sa sb idx glob sub) s
    s'.slot n last fun s _ k => k.checkReads s.debug n [(0, sa), (0, sb)]

/-- RSEMADD: adds S[SA][31:0] to the semaphore that S[SB] names (R260, R263). -/
def execRsemadd (n : Nat) (last glob : Bool) (idx sa sb : Nat) (s : State) : Host.Outcome State Fault Refusal :=
  fetched s n (rsemWord 4 glob idx sa sb) <|
  .next (s.remoteSlot n last glob idx sa sb false)

/-- RSEMSUB: subtracts it. -/
def execRsemsub (n : Nat) (last glob : Bool) (idx sa sb : Nat) (s : State) : Host.Outcome State Fault Refusal :=
  fetched s n (rsemWord 5 glob idx sa sb) <|
  .next (s.remoteSlot n last glob idx sa sb true)

/-! ### Ladle transfers offered to a queue (R210 to R215, R221) -/

/-- A signed 48-bit stride. -/
def stride48 (v : Nat) : Int := sext 48 v

/-- A Ladle transfer descriptor from its 128 bytes (R211). -/
def ladleDesc (b : List Byte) : LadleDesc :=
  { src := leAt b 0 8 % 2 ^ 52
    dst := leAt b 8 8 % 2 ^ 52
    run := leAt b 16 4
    semKind := leAt b 20 1
    semCore := leAt b 21 1
    semIdx := leAt b 22 2
    semAdd := leAt b 24 4
    levels := (List.range 5).map (fun i =>
      ⟨leAt b (32 + 16 * i) 4, stride48 (leAt b (36 + 16 * i) 6), stride48 (leAt b (42 + 16 * i) 6)⟩)
    tag := leAt b 112 4
    rsvOk := leAt b 0 8 < 2 ^ 52 && leAt b 8 8 < 2 ^ 52 && leAt b 28 4 == 0 && leAt b 116 12 == 0 }

/-- Owner code of a queue as it reads: 3 on queue 7 of an injector core (R210). -/
def State.queueOwner (s : State) (c q : Nat) : Nat :=
  if q = 7 ∧ (s.fuse.injQuarter c).isSome then 3 else (Sparse.get {} (s.core c).ladle q).owner

/-- A queue's limit as it reads (07, CORE_LADLE_Qn). -/
def State.queueLimit (s : State) (c q : Nat) : Nat :=
  if q = 7 ∧ (s.fuse.injQuarter c).isSome then 4 else (Sparse.get {} (s.core c).ladle q).limit

/-- The queue already holds 64 transfers that have not started (R217, R221). -/
def Core.queueFull (k : Core) (q : Nat) : Bool := decide (64 ≤ (Sparse.get {} k.ladle q).waiting.length)

/-- A transfer put at the end of a queue. -/
def Core.offer (k : Core) (q : Nat) (t : Transfer) : Core :=
  let lq := Sparse.get {} k.ladle q
  let lq' := { lq with waiting := lq.waiting ++ [t] }
  { k with ladle := Sparse.set {} k.ladle q lq' }

/-- LDI on one core: refused under R210, R225, R213 (offset), R673 (poisoned descriptor); held where the queue is
    full (R221, R288). -/
def State.ldiCore (n q sa : Nat) (s : State) (c : Nat) (k : Core) : Core :=
  let off := (k.readS s.free c n sa).toNat % spadSize
  let k := k.checkRead s.debug n 0 sa
  let refuse := fun (k : Core) (tag : Nat) => { k with cond := setBit k.cond 2 }.ladleFail q 1 tag
  let freeTag := (free32 s.free (site n c 310)).toNat
  if s.queueOwner c q ≠ 0 then refuse k freeTag
  else if off % 128 ≠ 0 then refuse k freeTag
  else if k.queueFull q then { k with late := some (1, some q), stopped := some n }
  else
    let k := s.spadCheck c off 128 k
    if s.spadBad c off 128 then refuse k freeTag
    else k.offer q { id := n * 8 + q, desc := ladleDesc (s.spadBytes c off 128), by_ := .program, notBefore := k.genAge + 3 }

/-- LDI: issues the transfer whose descriptor stands at local offset S[SA][24:0] to queue Q (R260, R265). A core that meets a full
    queue does not issue the bundle (R221, R288). hits: as for NOP. -/
def execLdi (n : Nat) (last : Bool) (q sa : Nat) (hits : List Hit) (s : State) : Host.Outcome State Fault Refusal :=
  fetched s n (ldiWord q sa) <|
  let s := s.strikes n hits
  if s.badFetch n then .next (s.instrParity n)
  else
    let any_ := (List.range Config.nPhys).any (fun c => s.issues n c && (s.ldiCore n q sa c (s.core c)).stopped.isNone)
    let s1 := s.issue n (fun s c k => s.ldiCore n q sa c k)
    let s' := ({ s1 with noProgress := if any_ then 0 else s.noProgress } : State).settleHold
    .next (if last then s'.endBundle n else s')

end Sys2Proof.Machine
end

