-- ==== Sys2Proof/Machine/MemCtl.lean ====
section
/-! DEFINITION. The memory controllers and scratchpads as a reader and a writer meet them: word outcomes, counters,
first-error registers, memory-error events (12 R360 to R379, 07 R209). -/

namespace Sys2Proof.Machine

/-- The memory unit that serves an address of the stacks or the Bulk tank (R360, R361). -/
def unitOf (a : Nat) : Nat := if a < 0x10000000000 then a / 0x1800000000 else 8

/-- Memory unit u. -/
def State.unit (s : State) (u : Nat) : MemUnit := Sparse.get {} s.memUnits u

/-- Memory unit u replaced. -/
def State.setUnit (s : State) (u : Nat) (m : MemUnit) : State := { s with memUnits := Sparse.set {} s.memUnits u m }

/-- k added to counter c of a unit, saturating (R620). -/
def MemUnit.bump (m : MemUnit) (c k : Nat) : MemUnit :=
  { m with cnt := Sparse.set 0 m.cnt c (min (Sparse.get 0 m.cnt c + k) (2 ^ 64 - 1)) }

/-- The first error since VALID was clear (MEM_ERR_ADDR), the lowest address of its cycle (R618). -/
def MemUnit.first (m : MemUnit) (now kind a : Nat) : MemUnit :=
  match m.errAddr with
  | none => { m with errAddr := some (kind, a), errAt := now }
  | some e => if m.errAt = now ∧ a < e.2 then { m with errAddr := some (kind, a) } else m

/-- A memory-error event: status 1 uncorrectable, 2 poison written (R379, R546). -/
def State.memEvent (s : State) (u status a : Nat) : State :=
  s.postEvent (bits s.memEccCtl 10 8) 2 (0x100 + u) status (leBytes 8 a)

/-- What a read of word w means for its controller (R371, R376). -/
def State.wordRead (s : State) (w : Nat) : State :=
  let a := 8 * w
  let u := unitOf a
  match Sparse.get 0 s.ecc w with
  | 0 => s
  | 1 =>
    let s := s.setUnit u (((s.unit u).bump 0 1).first s.epoch 0 a)
    if bitOf s.memEccCtl 0 then { s with ecc := Sparse.set 0 s.ecc w 0 } else s
  | 2 => (s.setUnit u (((s.unit u).bump 1 1).first s.epoch 1 a)).memEvent u 1 a
  | _ => s.setUnit u ((s.unit u).bump 3 1)

/-- Words that bytes a to a + n - 1 touch. -/
def wordsOf (a n : Nat) : List Nat := (List.range ((a + n + 7) / 8 - a / 8)).map (fun i => a / 8 + i)

/-- n bytes from a with the bits of mask flipped. -/
def State.flipBytes (s : State) (a n mask : Nat) : List Byte := leBytes n (leNat (s.bytesAt a n) ^^^ mask)

/-- Bits flipped in a word or a scratchpad byte: (address, class + 4 × mask of the data bits). Class 1 a single-bit error of the word, which a
    read corrects; 2 an uncorrectable one; 3 one that leaves the check bits of the poison mark (R372). A second error is uncorrectable; the
    mask then names every data bit that stands wrong. A scratchpad byte's parity is then wrong (R209). -/
def State.upsetOne (s : State) (e : Nat × Nat) : State :=
  let w := e.1 / 8
  if e.2 % 4 = 0 then s
  else if inWordMem e.1 then
    if e.2 % 4 = 1 ∧ Sparse.get 0 s.ecc w = 0 then { s with ecc := Sparse.set 0 s.ecc w 1 }
    else { s with mem := putBytes s.mem (8 * w) (s.flipBytes (8 * w) 8 (e.2 / 4)), ecc := Sparse.set 0 s.ecc w (if e.2 % 4 = 3 then 3 else 2) }
  else if inSpad e.1 then { s with mem := putBytes s.mem e.1 (s.flipBytes e.1 1 (e.2 / 4)), bytePar := Sparse.set false s.bytePar e.1 true }
  else s

/-- Errors met in words and scratchpad bytes. -/
def State.upset (s : State) (l : List (Nat × Nat)) : State := l.foldl State.upsetOne s

/-- A read of n bytes by a party outside the compute plane: what its controller or its scratchpad records (R209,
    R371). The bytes themselves are mbytesAt. -/
def State.noteRead (s : State) (a n : Nat) : State :=
  if inWordMem a then
    let s := (wordsOf a n).foldl State.wordRead s
    s.setUnit (unitOf a) ((s.unit (unitOf a)).bump 4 n)
  else if inSpad a then
    let c := (a - 0x20000000000) / 0x04000000
    s.setCore c { s.spadCheck c (a - spadBase c) n (s.core c) with cond := (s.core c).cond }
  else s

/-- A word written with a byte-parity error: counted, first error, event (R371, R379). -/
def State.wordPoisoned (s : State) (w : Nat) : State :=
  let a := 8 * w
  let u := unitOf a
  (s.setUnit u (((s.unit u).bump 2 1).first s.epoch 2 a)).memEvent u 2 a

/-- A write by a party outside the compute plane: stored, counted (R371). -/
def State.noteWrite (s : State) (a : Nat) (bs : List MByte) : State :=
  let s := s.storeBytes a bs
  if inWordMem a then
    let bad := (wordsOf a bs.length).filter (fun w => (List.range 8).any (fun j =>
      a ≤ 8 * w + j && (bs.getD (8 * w + j - a) (0, false)).2))
    let s := bad.foldl State.wordPoisoned s
    s.setUnit (unitOf a) ((s.unit (unitOf a)).bump 4 bs.length)
  else s

/-- New accesses to a quiesced stack wait (R380), and those that go through a stopped region (R518). -/
def State.waits (s : State) (a : Nat) : Bool := (inWordMem a && (s.unit (unitOf a)).quiesce) || s.portStopped a

/-- Some word of a range stands in a quiesced stack or beyond a stopped region (R380, R518): its stacks, its Bulk tank channels, 4,096
    bytes each, or its core. -/
def State.waitsRange (s : State) (a n : Nat) : Bool :=
  (inWordMem a && ((List.range (unitOf (a + n - 1) + 1 - unitOf a)).any (fun i => (s.unit (unitOf a + i)).quiesce)))
  || (if a < 0x0C000000000 then (List.range (unitOf (a + n - 1) + 1 - unitOf a)).any (fun i => s.routerStopped (stackRouter (unitOf a + i)))
      else if a < 0x20000000000 then (List.range (min 16 ((a + n - 1) / 4096 + 1 - a / 4096))).any (fun i => s.portStopped (a + 4096 * i))
      else s.portStopped a)

/-- What the head command of ring r reads stands in a quiesced stack: it waits to be delivered (R380). -/
def State.headWaits (s : State) (r : Nat) (f : Desc → Bool) : Bool := match (s.cring r).headOk with
  | some d => f d
  | none => false

/-- A structure that a command names, read whole: its bytes, whether any arrived poisoned (R559, R673), and the
    state after the read. Empty where it does not lie in one existing region. -/
def State.readStruct (s : State) (a n : Nat) : List Byte × Bool × State :=
  (s.bytesAt a n, s.anyBad a n, s.noteRead a n)

end Sys2Proof.Machine
end

