-- ==== Sys2Proof/Machine/Ladle.lean ====
section
/-! DEFINITION. The Ladle's transfers on the mesh: start, reads, responses, writes, acknowledgements, signals
(07 R212 to R224, 15 R455, R464, R484 to R487, 13 R419 to R423). -/

namespace Sys2Proof.Machine

/-! ### Checks (R213, R214) -/

/-- The descriptor's own fields are in range (R213). -/
def LadleDesc.ok (d : LadleDesc) : Bool :=
  d.rsvOk && 32 ≤ d.run && d.run ≤ 65536 && d.run % 32 == 0 && d.src % 32 == 0 && d.dst % 32 == 0
  && d.levels.all (fun l => 1 ≤ l.count && l.count ≤ 65536 && l.src % 32 == 0 && l.dst % 32 == 0 && (l.count == 1 || l.dst != 0))
  && (match d.semKind with
    | 0 => d.semCore == 0 && d.semIdx == 0 && d.semAdd == 0
    | 1 => d.semCore == 0 && d.semIdx < 256
    | 2 => d.semCore == 0 && d.semIdx < 1024
    | 3 => d.semCore < 160 && d.semIdx < 256
    | _ => false)

/-- Both ranges of the walk lie inside one region that exists (R214, R485). -/
def State.ladleRanges (s : State) (c : Nat) (d : LadleDesc) : Bool :=
  let a := walkRange true d.src d.run d.levels
  let b := walkRange false d.dst d.run d.levels
  0 ≤ a.1 && 0 ≤ b.1 && s.rangeOk false c a.1.toNat a.2.toNat && s.rangeOk true c b.1.toNat b.2.toNat

/-- Pieces of 128 bytes of one run. -/
def LadleDesc.pieces (d : LadleDesc) : Nat := ceilDiv d.run 128

/-- Pieces of the whole walk. -/
def LadleDesc.total (d : LadleDesc) : Nat := d.pieces * walkCount d.levels

/-- Source address, destination address and length of piece p (R212). -/
def LadleDesc.piece (d : LadleDesc) (p : Nat) : Nat × Nat × Nat :=
  let r := p / d.pieces
  let j := p % d.pieces
  (((d.src : Int) + walkOff true d.levels r).toNat + 128 * j, ((d.dst : Int) + walkOff false d.levels r).toNat + 128 * j,
    min 128 (d.run - 128 * j))

/-! ### Queues -/

/-- Queue q of core c. -/
def State.queue (s : State) (c q : Nat) : LadleQ := Sparse.get {} (s.core c).ladle q

/-- Queue q of core c replaced. -/
def State.setQueue (s : State) (c q : Nat) (l : LadleQ) : State :=
  let k := s.core c
  s.setCore c { k with ladle := Sparse.set {} k.ladle q l }

/-- The outstanding transfer with an id. -/
def State.transfer (s : State) (c q id : Nat) : Option Transfer := (s.queue c q).out.find? (fun t => t.id == id)

/-- A transfer replaced in its queue. -/
def State.putTransfer (s : State) (c q : Nat) (t : Transfer) : State :=
  let l := s.queue c q
  s.setQueue c q { l with out := l.out.map (fun x => if x.id = t.id then t else x) }

/-- A transfer of a batch of a Stirrer command is over (R415). -/
def State.batchDone (s : State) (cmd b : Nat) : State :=
  { s with epochCmd := s.epochCmd.map (fun e => if e.cmd ≠ cmd then e else
      { e with left := e.left.map (fun p => if p.1 = b then (b, p.2 - 1) else p) }) }

/-- A transfer is over with conditions for its issuer's record (R215, R223): CONDITIONS bits of a run, STATUS values of
    a command. -/
def State.issuerNote (s : State) (c : Nat) (t : Transfer) (bit_ : Option Nat) (found : List Nat) : State :=
  match t.by_ with
  | .program => match bit_ with
    | some b => s.setCore c { s.core c with cond := setBit (s.core c).cond b }
    | none => s
  | .host => s.complete t.cmd found (detailOf [(8, t.moved), (4, t.desc.tag)])
  | .stirrer => (s.modCmd t.cmd (fun k => { k with found := k.found ++ found })).batchDone t.cmd t.batch
  | .injection => s

/-- A transfer refused: kind 0 under R214, 1 under R213 (R215). -/
def State.refuseTransfer (s : State) (c q kind : Nat) (t : Transfer) : State :=
  (s.setCore c ((s.core c).ladleFail q kind t.desc.tag)).issuerNote c t (some (1 + kind)) [if kind = 0 then 2 else 1]

/-! ### Check-value units in Ladle mode (R419, R421, R423) -/

/-- Unit n. -/
def State.cv (s : State) (n : Nat) : Cv := Sparse.get {} s.cvs n

/-- Unit n replaced. -/
def State.setCv (s : State) (n : Nat) (v : Cv) : State := { s with cvs := Sparse.set {} s.cvs n v }

/-- Unit n is clocked (R497). -/
def State.cvOn (s : State) (n : Nat) : Bool := bitOf s.clk.enMisc (20 + n)

/-- The register after a block's prefix (R419). -/
def cvPrefix (v : Cv) (val : Nat) : Nat :=
  if v.fold = 0 then crcInit v.poly else crcBytes v.poly (crcInit v.poly) (leBytes 8 val)

/-- Unit v's snooped transfers changed by f. -/
def Cv.modSnoop (v : Cv) (c q id : Nat) (f : Snoop → Snoop) : Cv :=
  { v with snoops := v.snoops.map (fun x => if x.core = c ∧ x.queue = q ∧ x.id = id then f x else x) }

/-- A starting transfer is snooped by the units that name its queue. -/
def State.cvStart (s : State) (c q : Nat) (t : Transfer) : State :=
  (List.range 4).foldl (fun s n =>
    let v := s.cv n
    if s.cvOn n && v.src == 1 && v.core == c && v.queue == q then s.setCv n { v with snoops := v.snoops ++ [{ core := c, queue := q, id := t.id }] }
    else s) s

/-- Unit n's value of a transfer leaves for the result ring, where the ring lies in memory of this device or the host's; else it is written
    nowhere (log 77). The transfer waits for its acknowledgement (R421). -/
def State.cvWrite (s : State) (n : Nat) (x : Snoop) (value : Nat) : State :=
  let v := s.cv n
  let a := v.resBase + 8 * (v.seq.toNat % 4096)
  let s1 := s.setCv n { v with snoops := v.snoops.drop 1, seq := v.seq + 1 }
  match s1.transfer x.core x.queue x.id with
  | some t =>
    if s1.rangeOkDev false a (a + 7) then
      (s1.send [.write (.transfer x.core x.queue x.id) a (markAll false (leBytes 8 value)) false]).putTransfer x.core x.queue { t with outst := t.outst + 1 }
    else s1
  | none => s1

/-- Unit n absorbs what it can, in walk order, one transfer after the other: a transfer's prefix comes first, with its last byte its value
    is written (R419, R421). -/
def cvRun (n : Nat) : Nat → State → State
  | 0, s => s
  | f + 1, s =>
    let v := s.cv n
    match v.snoops with
    | [] => s
    | x :: rest =>
      match s.transfer x.core x.queue x.id, x.held.find? (fun h => h.1 == x.next) with
      | none, _ => cvRun n f (s.setCv n { v with snoops := rest })
      | some _, none => s
      | some t, some h =>
        let reg := crcBytes v.poly (x.reg.getD (cvPrefix v (if v.fold = 1 then v.seq.toNat else t.desc.dst))) (h.2.map Prod.fst)
        let y : Snoop := { x with next := x.next + 1, reg := some reg, held := x.held.filter (fun h => h.1 != x.next) }
        let s1 := s.setCv n { v with snoops := y :: rest, par := v.par || anyMarked h.2 }
        cvRun n f (if y.next = t.desc.total then s1.cvWrite n y (crcValue v.poly reg) else s1)

/-- A piece's source bytes, as delivered, reach the units that snoop its transfer (R421, R423). -/
def State.cvAbsorb (s : State) (c q id p : Nat) (bs : List MByte) : State :=
  (List.range 4).foldl (fun s n =>
    if (s.cv n).snoops.any (fun x => x.core == c && x.queue == q && x.id == id) then
      let s1 := s.setCv n ((s.cv n).modSnoop c q id (fun x => { x with held := x.held ++ [(p, bs)] }))
      cvRun n (2 * ((s1.cv n).snoops.map (fun x => x.held.length + 1)).sum) s1
    else s) s

/-- A transfer leaves its queue; a unit that snoops it goes on to the next. -/
def State.dropTransfer (s : State) (c q id : Nat) : State :=
  let l := s.queue c q
  let s1 := s.setQueue c q { l with out := l.out.filter (fun x => x.id != id) }
  if s.cvPending c q id then
    (List.range 4).foldl (fun s n =>
      cvRun n (2 * ((s.cv n).snoops.map (fun x => x.held.length + 1)).sum)
        (s.setCv n { s.cv n with snoops := (s.cv n).snoops.filter (fun x => !(x.core == c && x.queue == q && x.id == id)) })) s1
  else s1

/-- A transfer to a peer ends with an outcome other than done (R487). -/
def State.endTransfer (s : State) (c q : Nat) (t : Transfer) (o : Nat) : State :=
  let s := s.dropTransfer c q t.id
  let s := s.setCore c ((s.core c).ladleFail q 0 t.desc.tag)
  let s := if t.by_ = .program then s.runOutcome c o else s
  s.issuerNote c t none [outcomeStatus o]

/-! ### Start (R217, R220, R485) -/

/-- LADLE_TRANSFER_START: the next transfer of a queue starts if fewer than LIMIT are outstanding (R217), or is refused
    (R213 to R215). -/
def execLadleTransferStart (core q : Nat) (s : State) : Host.Outcome State Fault Refusal := live s <|
  let l := s.queue core q
  .next (match l.waiting with
    | [] => s
    | t :: rest =>
      if !s.fuse.active core || !s.clocked core || s.switching || s.restarting || decide (s.queueLimit core q ≤ l.out.length) then s
      else
        let k := s.core core
        let free := decide (l.waiting.length ≤ 64)
        let k := match k.late with
          | some (_, some q') => if q' = q ∧ free then { k with late := none } else k
          | _ => k
        let s1 := (s.setCore core k).setQueue core q { l with waiting := rest }
        if !t.desc.ok then s1.refuseTransfer core q 1 t
        else if !s.ladleRanges core t.desc then s1.refuseTransfer core q 0 t
        else
          let peer := if inPeer t.desc.dst then
              some (Sparse.get (false, 0) s.pwin ((t.desc.dst - 0x400000000000) / 0x40000000000)).2 else none
          let t := { t with peer := peer }
          (s1.setQueue core q { l with waiting := rest, out := l.out ++ [t] }).cvStart core q t)

/-! ### The mesh (R455, R464) -/

/-- An error of a mesh router: a payload byte passed on poisoned, or a header and its packet discarded. The first error's router is kept, the
    lowest of its cycle (R464, R618). -/
def State.meshError (s : State) (header : Bool) (router k : Nat) : State :=
  let m := s.meshRegs
  let fresh := m.err / 256 % 4 = 0
  let here := decide fresh || (m.errAt == s.epoch && decide (router < m.err % 256))
  let e := setBit (if here then m.err / 256 * 256 + router % 256 else m.err) (if header then 9 else 8)
  let cnt := fun (x : Nat) => min (x + k) (2 ^ 64 - 1)
  let m := { m with err := e, errAt := if fresh then s.epoch else m.errAt }
  { s with meshRegs := if header then { m with cnt1 := cnt m.cnt1 } else { m with cnt0 := cnt m.cnt0 } }

/-- A packet of one flit meets a parity error at a router: it is discarded, and its operation never completes (R464). -/
def State.discarded (s : State) (hdr : Option Nat) : Option State := hdr.map (fun r => s.meshError true r 1)

/-- Bytes at the positions of a list marked as they pass a router (R464). -/
def marked (bs : List MByte) (bad : List Nat) : List MByte :=
  bs.zipIdx.map (fun p => (p.1.1, p.1.2 || bad.contains p.2))

/-- Payload errors on the way, at a router. -/
def State.payload (s : State) (bs : List MByte) (bad : List Nat) (router : Nat) : State × List MByte :=
  let hit := (bad.filter (· < bs.length)).eraseDups
  if hit.isEmpty then (s, bs) else (s.meshError false router hit.length, marked bs hit)

/-! ### Bank ports and the Ladle's choice (R206, R220, R222) -/

/-- The wide port of bank b of core c's scratchpad is free in the present cycle: no scheduled user of the core's period has it, and the
    period's users are known (R206). -/
def State.bankFree (s : State) (c b : Nat) : Bool :=
  let k := s.core c
  if k.ticked then !k.wideNow.contains b
  else !s.issues k.sched c && !s.loopDue c && !s.resumeDue c && !(k.passes && s.clockTicks c && (s.wideUsers c).any (fun u => u.1 == b))

/-- An access of n bytes at a that no program schedules waits: its stack is quiesced, or a bank's wide port is in use (R206, R257, R380,
    R530). -/
def State.busyAt (s : State) (a n : Nat) : Bool :=
  s.waits a || (inSpad a &&
    (let c := (a - 0x20000000000) / 0x04000000
     !(s.bankFree c (bankOf (a - spadBase c)) && s.bankFree c (bankOf (a + n - 1 - spadBase c)))))

/-- A write that core c has sent to a port is on its way: a request sent after it does not overtake it (R463). -/
def State.writeAhead (s : State) (c port : Nat) : Bool := s.mesh.any (fun q => q.2.cls == 0 && q.2.route == (c, port))

/-- The source of a read of core c can be read now, and answered (R206, R380, R455, R463). -/
def State.readable (s : State) (c a n : Nat) : Bool :=
  !s.busyAt a n && s.hasRoom (portOf a) 1 && (portOf a == c || !s.writeAhead c (portOf a))

/-- The next piece of a transfer can be requested. -/
def State.pieceReady (s : State) (c : Nat) (t : Transfer) : Bool :=
  decide (t.next < t.desc.total) && decide (t.notBefore ≤ (s.core c).genAge)
    && s.readable c (resolveSelf c (t.desc.piece t.next).1) (t.desc.piece t.next).2.2

/-- The unit that core c's injection queue requests next: 4 requests at most are outstanding (R91, R217). -/
def Core.nextAsk (k : Core) : Option InjUnit :=
  if decide (4 ≤ (k.injq.filter (fun i => i.asked && !i.landed)).length) then none else k.injq.find? (fun i => !i.landed && !i.asked)

/-- An injector's queue 7 has work ready. -/
def State.injReady (s : State) (c : Nat) : Bool :=
  match (s.core c).nextAsk with
  | some i => match s.injTable i.forNext with
    | some t => ((s.unitParts c t i.unit).1 ++ (s.unitParts c t i.unit).2).all (fun p => s.readable c (resolveSelf c p.1) p.2)
    | none => false
  | none => false

/-- A queue has work ready. -/
def State.queueReady (s : State) (c q : Nat) : Bool := (s.queue c q).out.any (s.pieceReady c)

/-- The queue that core c's Ladle serves with its next 128-byte unit: an injector's queue 7 first, else round-robin (R222, log 73). -/
def State.ladleGrant (s : State) (c : Nat) : Option Nat :=
  if s.injReady c then some 7
  else ((List.range 8).map (fun i => ((s.core c).ladleTurn + 1 + i) % 8)).find? (s.queueReady c)

/-! ### Reads (R91, R212, R223, R669) -/

/-- A requested unit changed in core c's injection queue. -/
def State.modInj (s : State) (c unit : Nat) (forNext : Bool) (f : InjUnit → InjUnit) : State :=
  let k := s.core c
  s.setCore c { k with injq := k.injq.map (fun i => if i.unit = unit ∧ i.forNext = forNext then f i else i) }

/-- Core c's injection queue reads its next unit; one whose fetch cannot be made lands at once, poisoned (R91, R669). -/
def State.injRead (s : State) (c : Nat) (i : InjUnit) (t : Table) (upset : List (Nat × Nat)) (hdr : Option Nat) : State :=
  match s.landBroken c i.unit i.forNext t with
  | some s' => s'
  | none =>
    match s.discarded hdr with
    | some s' => s'.modInj c i.unit i.forNext (fun i => { i with asked := true, lost := true })
    | none =>
      let parts := s.unitParts c t i.unit
      let all := parts.1 ++ parts.2
      let s1 := s.upset upset
      let bytes := fun (p : Nat × Nat) => s1.bytesAt (resolveSelf c p.1) p.2
      let bad := all.any (fun p => s1.anyBad (resolveSelf c p.1) p.2)
      let s2 := all.foldl (fun s p => s.noteRead (resolveSelf c p.1) p.2) s1
      let s3 := if bad then s2.setCore c ((s2.core c).ladleFail 7 2 (free32 s.free (site 0 c 312)).toNat) else s2
      { s3.modInj c i.unit i.forNext (fun i => { i with asked := true }) with
        units := Sparse.set ⟨[], [], false⟩ s3.units (if i.forNext then forNextTag i.unit else i.unit)
          ⟨parts.1.flatMap bytes, parts.2.flatMap bytes, bad⟩
        noProgress := 0 }

/-- The next piece of a transfer is read at its source and sent back; a packet whose header meets a parity error is lost (R212, R223,
    R464). -/
def State.pieceRead (s : State) (c q : Nat) (t : Transfer) (upset : List (Nat × Nat)) (hdr : Option Nat) : State :=
  let p := t.desc.piece t.next
  let a := resolveSelf c p.1
  match s.discarded hdr with
  | some s' => s'.putTransfer c q { t with next := t.next + 1, reading := t.reading + 1 }
  | none =>
    let s := { s.upset upset with noProgress := 0 }
    let bs := s.mbytesAt a p.2.2
    let bad := anyMarked bs
    let s := s.noteRead a p.2.2
    let s := if bad then s.setCore c ((s.core c).ladleFail q 2 t.desc.tag) else s
    let s := if bad && t.by_ == .program then s.setCore c { s.core c with cond := setBit (s.core c).cond 0 } else s
    (s.send [Packet.data (.transfer c q t.id) a t.next p.2.1 bs]).putTransfer c q
      { t with next := t.next + 1, reading := t.reading + 1, poison := t.poison || bad }

/-- READ_REQUEST: the next 128-byte unit of an outstanding transfer, or on an injector's queue 7 the next unit to inject, is read at its
    source, where its queue is the one that the Ladle serves (R91, R212, R220, R222, R223). upset: bits that the read finds flipped; hdr: the
    packet's header met a parity error at that router (R464). -/
def execReadRequest (core q id : Nat) (upset : List (Nat × Nat)) (hdr : Option Nat) (s : State) : Host.Outcome State Fault Refusal := live s <|
  .next (if !s.clocked core || !s.meshRegs.service || s.ladleGrant core != some q then s
    else
      let k := s.core core
      let turned := s.setCore core { k with ladleTurn := if s.injReady core then k.ladleTurn else q }
      if s.injReady core then
        match k.nextAsk with
        | some i => match s.injTable i.forNext with
          | some t => turned.injRead core i t upset hdr
          | none => s
        | none => s
      else
        match s.transfer core q id with
        | some t => if s.pieceReady core t then turned.pieceRead core q t upset hdr else s
        | none => s)

/-! ### Messages to a peer (R479, R486, R617) -/

/-- A WRITE message leaves for a peer; none where it is not reachable. ADDR bit 63 marks poison (R617). -/
def State.peerWrite (s : State) (flow peer addr : Nat) (bs : List MByte) (o : Owner) : Option State :=
  let bad := anyMarked bs
  let tag := s.remoteId
  let m := s.msgTo peer 1 tag (addr % 0x40000000000 + (if bad then 2 ^ 63 else 0)) 0 (markAll false (bs.map Prod.fst))
  match s.sendMsg flow m with
  | some t => some { t with remoteId := tag + 1, writesOut := t.writesOut ++ [(tag, o, s.periods0)] }
  | none => none

/-- The message being formed by a transfer leaves. -/
def State.flushMsg (s : State) (c q : Nat) (t : Transfer) : State × Transfer × Bool :=
  match t.msg, t.peer with
  | some (a, bs), some p =>
    match s.peerWrite (8 * c + q) p a bs (.transfer c q t.id) with
    | some s' => (s', { t with msg := none, outst := t.outst + 1, moved := t.moved + bs.length }, true)
    | none => (s, { t with msg := none }, false)
  | _, _ => (s, t, true)

/-- A whole run has arrived: merged with the message if contiguous and clean, up to 65,536 bytes (R486, R617). -/
def State.addRun (s : State) (c q a : Nat) (t : Transfer) (bs : List MByte) : State × Transfer × Bool :=
  let clean := !anyMarked bs
  match t.msg with
  | some (b, old) =>
    if clean ∧ !anyMarked old ∧ b + old.length = a ∧ old.length + bs.length ≤ 65536 then (s, { t with msg := some (b, old ++ bs) }, true)
    else
      let r := s.flushMsg c q t
      (r.1, { r.2.1 with msg := some (a, bs) }, r.2.2)
  | none => (s, { t with msg := some (a, bs) }, true)

/-- A piece arrives for a transfer to a peer; its last piece sends what is left. -/
def State.peerPiece (s : State) (c q : Nat) (t : Transfer) (dst : Nat) (bs : List MByte) : State :=
  let a := dst - t.cur.length
  let cur := t.cur ++ bs
  let t := { t with reading := t.reading - 1, cur := if cur.length < t.desc.run then cur else [] }
  if cur.length < t.desc.run then s.putTransfer c q t
  else
    let r := s.addRun c q a t cur
    let lastOne := r.2.1.reading = 0 ∧ r.2.1.next = t.desc.total
    let r2 := if r.2.2 ∧ lastOne then r.1.flushMsg c q r.2.1 else r
    if r2.2.2 then r2.1.putTransfer c q r2.2.1 else r2.1.endTransfer c q r2.2.1 4

/-- READ_RESPONSE: data of packet id reaches the requester and goes on to its destination (R212, R223, R455). bad: bytes
    passed on poisoned at a router; hdr: the packet is discarded (R464). -/
def execReadResponse (id : Nat) (bad : List Nat) (router : Nat) (hdr : Bool) (s : State) : Host.Outcome State Fault Refusal := live s <|
  .next (match s.mesh.find? (fun p => p.1 == id) with
    | some (_, .data (.transfer c q tid) src p dst bs) =>
      let s1 := { s with mesh := s.mesh.filter (fun p => p.1 != id), noProgress := 0 }
      if s.heldBack id (.data (.transfer c q tid) src p dst bs) then s
      else if hdr then s1.meshError true router 1
      else
        let got := s1.payload bs bad router
        let r := (got.1.cvAbsorb c q tid p got.2, got.2)
        match r.1.transfer c q tid with
        | none => r.1
        | some t =>
          let poison := anyMarked r.2 && !t.poison
          let s2 := if poison then r.1.setCore c ((r.1.core c).ladleFail q 2 t.desc.tag) else r.1
          let s2 := if poison && t.by_ == .program then s2.setCore c { s2.core c with cond := setBit (s2.core c).cond 0 } else s2
          let t := { t with poison := t.poison || poison }
          match t.peer with
          | none =>
            (s2.send [.write (.transfer c q tid) (resolveSelf c dst) r.2 false]).putTransfer c q
              { t with reading := t.reading - 1, outst := t.outst + 1, moved := t.moved + bs.length }
          | some _ =>
            let first := s.mesh.find? (fun p => match p.2 with
              | .data o _ _ _ _ => o == .transfer c q tid
              | _ => false)
            if first.map Prod.fst = some id then s2.peerPiece c q t dst r.2 else s
    | _ => s)

/-- Bytes after an ADD: each 32-bit word is the old word plus the new one in FP32, marked where either is (R123). -/
def State.added (s : State) (a : Nat) (bs : List MByte) : List MByte :=
  (List.range (bs.length / 4)).flatMap (fun i =>
    let new := (bs.drop (4 * i)).take 4
    let old := s.mbytesAt (a + 4 * i) 4
    let sum := fadd (BitVec.ofNat 32 (leNat (old.map Prod.fst))) (BitVec.ofNat 32 (leNat (new.map Prod.fst)))
    markAll (anyMarked old || anyMarked new) (leBytes 4 sum.toNat))

/-- The word that a delivery adds to is read bad: the run's record says so (R371, R375). -/
def State.addParity (s : State) (o : Owner) (bad : Bool) : State :=
  match o with
  | .delivery c _ => if bad then s.setCore c { s.core c with cond := setBit (s.core c).cond 0 } else s
  | _ => s

/-- A write of a store to a peer ends with an outcome other than done (R487): it counts no longer, the store makes no signal, the run's record
    says so. -/
def State.storeOutcome (s : State) (o : Owner) (out : Nat) : State :=
  match o with
  | .store c id =>
    let k := s.core c
    match k.getStore id with
    | some st => (s.setCore c ((k.putStore { st with outst := st.outst - 1, sig := false, failed := true }).sweepStores)).runOutcome c out
    | none => s
  | _ => s

/-- A message of a store whose destination is a peer's window leaves for the peer that the store read as it started (R485, R486); once one has
    failed no more leave (R487). Nothing but a store or a transfer writes to a peer (R485). -/
def State.storeToPeer (s : State) (o : Owner) (a : Nat) (bs : List MByte) : State :=
  match o with
  | .store c id =>
    match (s.core c).getStore id with
    | some st =>
      if st.failed then s.setCore c (((s.core c).putStore { st with outst := st.outst - 1 }).sweepStores)
      else match st.peer with
        | some p => (s.peerWrite (8 * c) p a bs o).getD (s.storeOutcome o 4)
        | none => s.storeOutcome o 1
    | none => s
  | _ => s

/-- The bytes of the write are moved by a Ladle, the Press or the Creamery: progress (R328). -/
def Owner.moves : Owner → Bool
  | .transfer .. => true
  | .press _ => true
  | .clip .. => true
  | _ => false

/-- A message for another device has crossed the mesh and joins the slots of its port, marked where a byte of it is (R480, R617). -/
def State.forwarded (s : State) (n : Nat) (m : Msg) : State :=
  s.sendOn n { m with addr := if anyMarked m.body && !isWhey m.kind then m.addr % 2 ^ 63 + 2 ^ 63 else m.addr }

/-- WRITE_PACKET: packet id reaches its target, is stored and acknowledged; a host write leaves for the host die, a write
    to a peer's window leaves as a message, a forwarded message reaches its port. It waits for a bank's wide port, for a quiesced stack, for
    room to acknowledge it, and for what was sent before it between its ports (R206, R371, R380, R455, R463, R480, R486, R533). -/
def execWritePacket (id : Nat) (bad : List Nat) (router : Nat) (hdr : Bool) (s : State) : Host.Outcome State Fault Refusal := live s <|
  let s0 := { s with mesh := s.mesh.filter (fun p => p.1 != id) }
  .next (match s.mesh.find? (fun p => p.1 == id) with
    | some (_, .write o a bs add) =>
      let s1 := { s0 with noProgress := if o.moves then 0 else s.noProgress }
      if s.heldBack id (.write o a bs add) then s
      else if hdr then s1.meshError true router 1
      else if inHost a then ((s1.payload bs bad router).1).hostWrite a (s1.payload bs bad router).2 o
      else if inPeer a then ((s1.payload bs bad router).1).storeToPeer o a (s1.payload bs bad router).2
      else if s.busyAt a bs.length || !s.hasRoom (portOf a) 3 then s
      else
        let r := s1.payload bs bad router
        let s2 := if add then (r.1.noteRead a bs.length).addParity o (r.1.anyBad a bs.length) else r.1
        (s2.noteWrite a (if add then r.1.added a r.2 else r.2)).send [.ack o a]
    | some (_, .fwd src n m) =>
      if s.heldBack id (.fwd src n m) then s
      else if hdr then s0.meshError true router 1
      else
        let r := s0.payload m.body bad router
        r.1.forwarded n { m with body := r.2 }
    | _ => s)

/-! ### Acknowledgements (R315, R533) -/

/-- A block's write of the job of command id is acknowledged. -/
def PressJob.ack (id now : Nat) (j : PressJob) : PressJob := if j.cmd = id then { j with outst := j.outst - 1, doneAt := now } else j

/-- Decode engine e. -/
def State.engine (s : State) (e : Nat) : Ingest := Sparse.get {} s.engines e

/-- Decode engine e replaced. -/
def State.setEngine (s : State) (e : Nat) (g : Ingest) : State := { s with engines := Sparse.set {} s.engines e g }

/-- The clip number under which pass-through writes count. -/
def auxClip : Nat := 2 ^ 40

/-- A write of a clip is acknowledged. -/
def Ingest.ack (g : Ingest) (c now : Nat) : Ingest :=
  if c = auxClip then { g with auxOut := g.auxOut - 1 }
  else { g with doneAt := now, clips := g.clips.map (fun p => if p.1 = c then (c, p.2 - 1) else p) }

/-- FLOW of a message whose flow its header does not name: the device picks it (R479 leaves it open). Log 1. -/
def State.freeFlow (s : State) (tag : Nat) : Nat := (Config.freeBits s.free tag).toNat

/-- An ACK with an outcome goes to a message's sender; where it is not reachable, nothing is sent (R480, R486). -/
def State.answer (s : State) (m : Msg) (outcome : Nat) : State :=
  match s.sendMsg (s.freeFlow m.tag) (s.msgTo m.src 0x11 m.tag 0 outcome []) with
  | some t => { t with free := t.free + 1 }
  | none => s

/-- A write of a WRITE message of another device is acknowledged; after the last one the message's ACK leaves (R486). -/
def State.messageAcked (s : State) (id : Nat) : State :=
  match s.writesIn.find? (fun w => w.1 == id) with
  | some (_, m, n) =>
    if n ≤ 1 then { s with writesIn := s.writesIn.filter (fun w => w.1 != id) }.answer m 0
    else { s with writesIn := s.writesIn.map (fun w => if w.1 = id then (id, m, n - 1) else w) }
  | none => s

/-- A write counts as acknowledged for the party that waits for it. -/
def State.acked (s : State) (o : Owner) : State :=
  match o with
  | .transfer c q id => match s.transfer c q id with
    | some t => s.putTransfer c q { t with outst := t.outst - 1, doneAt := s.epoch }
    | none => s
  | .store c id =>
    let k := s.core c
    match k.getStore id with
    | some st => s.setCore c ((k.putStore { st with outst := st.outst - 1, doneAt := s.epoch }).sweepStores)
    | none => s
  | .delivery c id =>
    let k := s.core c
    s.setCore c { k with deliveries := k.deliveries.map (fun d => if d.id = id then { d with outst := d.outst - 1, doneAt := s.epoch } else d) }
  | .cmd id => (s.modCmd id (fun c => { c with outst := c.outst - 1 })).tryPost id
  | .record e _ => s.recordVisible e
  | .press id => { s with press := { s.press with jobs := s.press.jobs.map (PressJob.ack id s.epoch) } }
  | .clip e c => s.setEngine e ((s.engine e).ack c s.epoch)
  | .report => { s with sec := { s.sec with repOut := s.sec.repOut - 1 } }
  | .message id => s.messageAcked id
  | .none => s

/-- An earlier record of the same event ring is not visible yet (R549). -/
def State.recordBlocked (s : State) (h : HostWrite) : Bool :=
  match h.owner with
  | .record e _ => (s.hostWrites.takeWhile (fun x => x.id != h.id)).any (fun x => match x.owner with
    | .record e' _ => e' == e
    | _ => false)
  | _ => false

/-- WRITE_ACKNOWLEDGEMENT: the acknowledgement of a write on the mesh, or from the host die, by which a write to host memory
    is visible (R533, R549). While the link is down none comes from the host (R527). -/
def execWriteAcknowledgement (x : Arrival) (s : State) : Host.Outcome State Fault Refusal := live s <|
  let id := x.id
  .next (match s.mesh.find? (fun p => p.1 == id) with
    | some (_, .ack o a) =>
      let s1 := { s with mesh := s.mesh.filter (fun p => p.1 != id) }
      if s.heldBack id (.ack o a) then s else (s1.discarded x.lostAt).getD (s1.acked o)
    | _ =>
      match s.hostWrites.find? (fun h => h.id == id) with
      | some h =>
        if s.linkDown || s.recordBlocked h then s
        else if let some s' := ({ s with hostWrites := s.hostWrites.filter (fun q => q.id != id), mem := putBytes s.mem h.addr (h.bytes.map Prod.fst) } : State).discarded x.lostAt then s'
        else { s with hostWrites := s.hostWrites.filter (fun q => q.id != id), mem := putBytes s.mem h.addr (h.bytes.map Prod.fst) }.acked h.owner
      | none => s)

/-- A WRITE message to a peer ends with an outcome: done counts as its acknowledgement, any other ends its transfer or its
    store (R487). -/
def State.writeEnds (s : State) (tag o : Nat) : State :=
  match s.writesOut.find? (fun w => w.1 == tag) with
  | none => s
  | some (_, own, _) =>
    let s1 := { s with writesOut := s.writesOut.filter (fun w => w.1 != tag) }
    if o = 0 then s1.acked own
    else match own with
      | .transfer c q id => match s1.transfer c q id with
        | some t => s1.endTransfer c q t o
        | none => s1
      | _ => s1.storeOutcome own o

/-! ### Signals (R218, R315) -/

/-- An add to a semaphore of this device made by a party outside the compute plane. -/
def State.signalSem (s : State) (glob : Bool) (c idx amount : Nat) : State :=
  if amount = 0 then s
  else if glob then (s.gsemChange idx amount).waitsMet
  else (s.csemChange c idx amount).waitsMet

/-- LADLE_SIGNAL: every write of a transfer is acknowledged; in the next cycle its add takes effect, in the order of start, and the transfer is
    over (R217, R218, R223, R224). With SEM_KIND 3 the signal leaves for its core, and the transfer is over when it takes effect there. -/
def execLadleSignal (core q id : Nat) (s : State) : Host.Outcome State Fault Refusal := live s <|
  .next (match s.transfer core q id with
    | none => s
    | some t =>
      if !s.clocked core || (t.desc.semKind = 2 && s.semStopped 255) || !s.transferOver core q t || !s.signalTurn (s.queue core q) t then s
      else
        let s1 := s.dropTransfer core q id
        let d := t.desc
        let dropped := t.dropped || s.restarting
        let found := (if t.poison then [5] else []) ++ (if dropped then [3] else [])
        if dropped ∨ d.semKind = 0 ∨ d.semAdd = 0 then s1.issuerNote core t none found
        else if d.semKind = 1 then (s1.signalSem false core d.semIdx d.semAdd).issuerNote core t none found
        else if d.semKind = 2 then (s1.signalSem true core d.semIdx d.semAdd).issuerNote core t none found
        else
          let s2 := (s.putTransfer core q { t with signalled := true }).modCmd t.cmd
            (fun k => { k with bytes := t.moved, ttag := d.tag, found := k.found ++ found })
          (s2.remoteIssue (.transfer core q t.cmd id) (BitVec.ofNat 64 (d.semCore + 2 ^ 22)) false d.semIdx d.semAdd).1)

end Sys2Proof.Machine
end

