-- ==== Sys2Proof/Machine/Rings.lean ====
section
/-! DEFINITION. Command rings and event rings as the host drives them (17 R534 to R554). -/

namespace Sys2Proof.Machine

/-- The configuration bus answers the host: the UCIe link is in service and up, and clocks run (R492, R526, R527). -/
def State.hostAlive (s : State) : Bool := s.boot.modules != 0 && !s.linkDown && !s.clk.lost

/-- The CFG codes that a frequency step allows (R503). -/
def cfgAllows (step cfg : Nat) : Bool := match step with
  | 0 => cfg == 0
  | 1 => cfg == 1
  | 2 => cfg == 2
  | 3 => cfg == 1 || cfg == 3
  | 4 => cfg == 0 || cfg == 3 || cfg == 4
  | 5 => cfg == 0 || cfg == 4
  | _ => false

/-- The configuration bus keeps to the ratio of every running region clock; where it does not, no set-up register access
    completes (R503, R504, log 34). -/
def State.busOk (s : State) : Bool := (List.range 16).all (fun r =>
  let g : Region := Sparse.get {} s.regions r
  g.stopped || cfgAllows g.step s.clk.cfg)

/-- Set-up register accesses of the host complete. -/
def State.regAlive (s : State) : Bool := s.hostAlive && s.busOk

/-- The host's own writes to its memory, made visible before a doorbell (R534, log 3). -/
def State.hostStores (s : State) (l : List Host.Cell) : State :=
  { s with mem := l.foldl (fun m c => if inHost c.1 then Sparse.set unlisted m c.1 c.2 else m) s.mem }

/-- DOORBELL: sets TAIL, or puts the ring into error (R539). Ignored before DONE (R594), with a reserved bit set, and on a
    ring that is not enabled. host: what the host has written to its own memory by then. -/
def execDoorbell (r value : Nat) (host : List Host.Cell) (s : State) : Host.Outcome State Fault Refusal := live s <|
  let s := s.hostStores host
  let k := s.cring r
  .next (if !s.regAlive || !s.boot.done || !k.en || decide (2 ^ 32 ≤ value) || decide (64 ≤ r) then s
    else if value = k.tail ∨ k.state = 2 then s
    else if 2 ^ k.log2 < (value + 2 ^ 32 - k.head) % 2 ^ 32 then s.ringError r 1
    else if 2 ^ 31 ≤ (value + 2 ^ 32 - k.tail) % 2 ^ 32 then s.ringError r 2
    else s.setCring r { k with tail := value })

/-- DESCRIPTOR_READ: the ring's next unread descriptor arrives from host memory, at most 8 ahead of HEAD; an error puts the
    ring into error (R540, R543). Reserved classes are refused in their turn (R557). -/
def execDescriptorRead (r : Nat) (err : Bool) (s : State) : Host.Outcome State Fault Refusal := live s <|
  let k := s.cring r
  let n := k.descs.length
  .next (if !s.boot.done || s.linkDown || !k.en || k.state != 1 || decide (8 ≤ n)
      || decide ((k.tail + 2 ^ 32 - k.head) % 2 ^ 32 ≤ n) then s
    else if err then s.ringError r 3
    else
      let a := hostBase + k.base + 64 * ((k.head + n) % 2 ^ k.log2)
      let d : Desc := BitVec.ofNat 512 (leNat (s.bytesAt a 64))
      refuseReserved 512 (s.setCring r { k with descs := k.descs ++ [d] }))

/-- A write of UCI_CRINGr_CTL (R537, R538): fields but EN only while EN = 0; EN 0 to 1 restarts the ring; EN 1 to 0 discards
    what is not delivered. -/
def State.writeCringCtl (s : State) (r v : Nat) : State :=
  let k := s.cring r
  let log2 := v % 32
  let en := bitOf v 31
  if k.en then
    if en then s else s.setCring r { k with en := false, state := 0, descs := [] }
  else if log2 < 4 ∨ 16 < log2 then s
  else
    let k := { k with log2 := log2, evt := bits v 10 8, prio := bitOf v 12 }
    s.setCring r (if en then { k with en := true, state := 1, err := 0, head := 0, tail := 0, seq := 0, descs := [] } else k)

/-- COMMAND_RING_ENABLE: a write of UCI_CRINGr_CTL with EN = 1 (R538). -/
def execCommandRingEnable (r value : Nat) (s : State) : Host.Outcome State Fault Refusal := live s <|
  .next (if s.regAlive && decide (r < 64) && bitOf value 31 then s.writeCringCtl r (value % 2 ^ 32) else s)

/-- COMMAND_RING_DISABLE: a write of UCI_CRINGr_CTL with EN = 0 (R538). -/
def execCommandRingDisable (r value : Nat) (s : State) : Host.Outcome State Fault Refusal := live s <|
  .next (if s.regAlive && decide (r < 64) && !bitOf value 31 then s.writeCringCtl r (value % 2 ^ 32) else s)

/-- EVENT_RING_ENABLE: a write of UCI_ERINGe_CTL; EN 0 to 1 sets HEAD and TAIL to 0, and buffered records leave for the
    ring (R551, R552). -/
def execEventRingEnable (e value : Nat) (s : State) : Host.Outcome State Fault Refusal := live s <|
  let k := s.ering e
  let en := bitOf value 31
  let log2 := value % 32
  .next (if !s.regAlive || decide (8 ≤ e) then s
    else if k.en then (if en then s else s.setEring e { k with en := false })
    else if log2 < 4 ∨ 16 < log2 then s
    else if en then (s.setEring e { k with log2 := log2, en := true, head := 0, tail := 0 }).drainRing e
    else s.setEring e { k with log2 := log2 })

/-- EVENT_RING_HEAD_WRITE: the host's consumed count; a value behind HEAD or beyond TAIL is ignored (R551). -/
def execEventRingHeadWrite (e value : Nat) (s : State) : Host.Outcome State Fault Refusal := live s <|
  let k := s.ering e
  .next (if !s.regAlive || decide (8 ≤ e) || decide (2 ^ 32 ≤ value)
      || decide ((k.tail + 2 ^ 32 - k.head) % 2 ^ 32 < (value + 2 ^ 32 - k.head) % 2 ^ 32) then s
    else (s.setEring e { k with head := value }).drainRing e)

/-- ARMED: a write of UCI_ERINGe_INT with ARMED = 1 arms the ring, or sends a message at once where records wait (R553,
    R554); EN and VECTOR take the written values (R648). -/
def execArmed (e value : Nat) (s : State) : Host.Outcome State Fault Refusal := live s <|
  let k := s.ering e
  let k1 := { k with intEn := bitOf value 31, vector := value % 2 ^ 16 }
  .next (if !s.regAlive || decide (8 ≤ e) then s
    else if !bitOf value 30 then s.setEring e k1
    else if k.tail = k.head then s.setEring e { k1 with armed := true }
    else
      let s := s.setEring e { k1 with armed := false }
      if k1.intEn then s.emit (.interrupt k1.vector) else s)

end Sys2Proof.Machine
end

