-- ==== Sys2Proof/Machine/Clocks.lean ====
section
/-! DEFINITION. Clocks: reference, enables, frequency changes, stretch; the hold's episodes; gauges (16 R490 to R522,
09 R288 to R297, 19 R608 to R612, 23 R661). -/

namespace Sys2Proof.Machine

/-! ### The reference (R490 to R496) -/

/-- The clock of a source runs: the oscillator, or a port that is up (R493). -/
def State.sourceRuns (s : State) (src : Bool) (port : Nat) : Bool := !src || (s.port port).state == 2

/-- REFERENCE_SWITCH: a write of CLK_REF_CTL that changes SRC or PORT starts a switch; from or to a clock that has stopped it never
    completes, and the device stops (R491, R492). -/
def execReferenceSwitch (value : Nat) (s : State) : Host.Outcome State Fault Refusal := live s <|
  let src := bitOf value 8
  let port := value % 32
  let c := s.clk
  .next (if !s.regAlive || c.switching || (src && decide (23 < port)) || (c.refSrc == src && c.refPort == port) then s
    else { s with clk := { c with
      refSrc := src, refPort := port, switching := true, lost := !(s.sourceRuns c.useSrc c.usePort && s.sourceRuns src port) } })

/-- REFERENCE_SWITCH_COMPLETE: the multiplexer passes the new clock, if it is changing (R491). -/
def execReferenceSwitchComplete (s : State) : Host.Outcome State Fault Refusal := live s <|
  let c := s.clk
  .next (if c.switching then
      { s with clk := { c with useSrc := c.refSrc, usePort := c.refPort, switching := false } }
    else s)

/-- REFERENCE_LOSS: the selected reference stops, or the multiplexer hangs, for a reason outside the model; nothing runs until a reset
    (R492). -/
def execReferenceLoss (s : State) : Host.Outcome State Fault Refusal := live s <| .next { s with clk := { s.clk with lost := true } }

/-! ### Clock enables (R497 to R502) -/

/-- CLK_EN_CRM: decode engines released or reset; a busy engine keeps its bit. With the last engine gone, waiting jobs
    complete gated (R386, R498, R499). -/
def execClkEnCrm (value : Nat) (s : State) : Host.Outcome State Fault Refusal := live s <|
  let busy := (List.range 32).foldl (fun m e => if (s.engine e).cmd = 0 then m else setBit m e) 0
  let en := (value % 2 ^ 32) ||| (s.clk.enCrm &&& busy)
  .next (if !s.regAlive then s
    else
      let s1 := { s with clk := { s.clk with enCrm := en } }
      if en = 0 then s1.ingestQ.foldl (fun s id => s.complete id [4] []) { s1 with ingestQ := [] } else s1)

/-- CLK_EN_GRB: Griby ports released or reset; a port that is not down, or is the reference, keeps its bit (R494, R498,
    R499). -/
def execClkEnGrb (value : Nat) (s : State) : Host.Outcome State Fault Refusal := live s <|
  let keep := fun (n : Nat) => (s.port n).state != 0 || s.testOn 0 n || (s.clk.refSrc && s.clk.refPort == n) || (s.clk.useSrc && s.clk.usePort == n)
  let en := (List.range 24).foldl (fun m n => if bitOf value n || (bitOf s.clk.enGrb n && keep n) then setBit m n else m) 0
  .next (if !s.regAlive then s
    else
      let s1 := { s with clk := { s.clk with enGrb := en } }
      (List.range 24).foldl (fun s n => if bitOf s.clk.enGrb n && bitOf en n then s
        else s.setPort n {}) s1)

/-- A Press engine holds work of an active job (R499). -/
def State.pressBusy (s : State) (q : Nat) : Bool := s.press.jobs.any (fun j => !j.armed && j.engines.contains q)

/-- A check-value unit's bit must stay: a host block open, a running job's profile, a snooped transfer (R499). -/
def State.cvBusy (s : State) (n : Nat) : Bool :=
  (s.cv n).opened || !(s.cv n).snoops.isEmpty || (List.range 32).any (fun e => (s.engine e).cmd != 0 && (s.engine e).cv == some n)

/-- CLK_EN_MISC: Bulk tank channels, Press engines, check-value units; with the last of the 16 channel bits set the Bulk
    tank trains (R498 to R500, R653). -/
def execClkEnMisc (value : Nat) (s : State) : Host.Outcome State Fault Refusal := live s <|
  let old := s.clk.enMisc
  let keep := fun (i : Nat) => bitOf old i &&
    (if i < 16 then (s.unit 8).ready || s.testOn 3 i else if i < 20 then s.pressBusy (i - 16) else s.cvBusy (i - 20))
  let en := (List.range 24).foldl (fun m i => if bitOf value i || keep i then setBit m i else m) 0
  .next (if !s.regAlive then s
    else
      let all := en % 2 ^ 16 = 2 ^ 16 - 1
      let train := all && old % 2 ^ 16 != 2 ^ 16 - 1
      let s1 := { s with clk := { s.clk with enMisc := en, btTraining := all && (train || s.clk.btTraining) } }
      let fresh := (List.range 16).any (fun i => bitOf en i && !bitOf old i)
      let s2 := if fresh then s1.setUnit 8 { s1.unit 8 with errAddr := none, cnt := [] } else s1
      (List.range 4).foldl (fun s n => if bitOf en (20 + n) == bitOf old (20 + n) then s else s.setCv n {}) s2)

/-- MEM_BT_CAP by option (R364). -/
def btCapacity (cfg : Nat) : Nat :=
  match cfg % 4 with
  | 0 => 42 * 2 ^ 30
  | 1 => 56 * 2 ^ 30
  | 2 => 84 * 2 ^ 30
  | _ => 112 * 2 ^ 30

/-- BULK_TANK_READY: training and zeroing of the channels end. fitted: for each channel the option its devices report, 4 for
    one that fails; a channel that differs from MEM_BT_CFG sets CH_FAIL (R367, R601). -/
def execBulkTankReady (fitted : List Nat) (s : State) : Host.Outcome State Fault Refusal := live s <|
  let u := s.unit 8
  let bad := (List.range 16).foldl (fun m c => if fitted.getD c 4 = u.cfg % 4 then m else setBit m c) 0
  .next (if !s.clk.btTraining then s
    else
      let s1 := { s with clk := { s.clk with btTraining := false } }
      if bad = 0 then
        let s2 := s1.setUnit 8 { u with ready := true, chFail := 0, cap := btCapacity u.cfg }
        { s2 with mem := Sparse.clear s2.mem 0x10000000000 0x20000000000, ecc := Sparse.clear s2.ecc (0x10000000000 / 8) (0x20000000000 / 8) }
      else s1.setUnit 8 { u with chFail := bad })

/-! ### The configuration bus and frequency changes (R503 to R520) -/

/-- The slowest of the top steps; at most STEP 1 in debug mode (R506, R302). -/
def State.dieTop (s : State) : Nat :=
  max ((List.range 16).foldl (fun m r => max m (s.region r).top) 0) (if s.debug then 1 else 0)

/-- CFG_BUS_CHANGE: a write of CLK_CFGBUS (R520). -/
def execCfgBusChange (value : Nat) (s : State) : Host.Outcome State Fault Refusal := live s <|
  .next (if !s.regAlive || decide (4 < value % 8) || s.clk.change.isSome then s
    else { s with clk := { s.clk with cfg := value % 8 } })

/-- A request has ended with a result. -/
def Clk.ended (c : Clk) (result : Nat) : Clk := { c with fchgResult := result, fchgDone := true }

/-- A synchronised change is accepted: every standby PLL begins to lock (R510). -/
def State.acceptChange (s : State) (step cfg n : Nat) (hw : Bool) : State :=
  { s.mapRegions (fun _ g => { g with locked := false }) with
    clk := { s.clk with change := some { step := step, cfg := cfg, n := n, hw := hw }, fchgHw := hw } }

/-- Why a synchronised change is refused (R509, R302); 0: accepted. -/
def State.changeRefusal (s : State) (step cfg : Nat) : Nat :=
  if s.clk.change.isSome || s.clk.ecfPend.isSome || s.mixed then 1
  else if 5 < step ∨ 4 < cfg then 6
  else if step < s.dieTop then 2
  else if s.clk.fchgN < s.epoch + 65536 then 3
  else 0

/-- SYNCHRONISED_CHANGE_REQUEST: a write of CLK_FCHG_CTL with GO = 1 (R509). -/
def execSynchronisedChangeRequest (value : Nat) (s : State) : Host.Outcome State Fault Refusal := live s <|
  let step := value % 8
  let cfg := bits value 6 4
  .next (if !s.regAlive || !bitOf value 31 then s
    else
      let s1 := { s with clk := { s.clk with fchgStep := step, fchgCfg := cfg, fchgRing := bits value 10 8 } }
      match s1.changeRefusal step cfg with
      | 0 => s1.acceptChange step cfg s1.clk.fchgN false
      | e => { s1 with clk := s1.clk.ended e })

/-- The lowest CFG code that R503 allows for a step. -/
def cfgFor : Nat → Nat
  | 1 => 1 | 2 => 2 | 3 => 1 | _ => 0

/-- The device itself requests a change to a step (R516, R610): a pending host change to a faster step is replaced, one to
    the step or a slower one stands; while the steps are mixed the request waits. -/
def State.deviceChange (s : State) (step : Nat) : State :=
  if s.mixed then { s with clk := { s.clk with wanted := some step } }
  else match s.clk.change with
    | some c => if c.step < step then
        let s1 := { s with clk := { s.clk with change := none }.ended 5, hold := { s.hold with change := false } }
        s1.acceptChange step (cfgFor step) (s.epoch + 65536) true
      else s
    | none => s.acceptChange step (cfgFor step) (s.epoch + 65536) true

/-- STANDBY_PLL_LOCK: region r's standby PLL has locked (R510, R518). -/
def execStandbyPllLock (r : Nat) (s : State) : Host.Outcome State Fault Refusal := live s <|
  .next (if r < 16 ∧ (s.clk.change.isSome ∨ s.clk.ecfPend.isSome) then s.setRegion r { s.region r with locked := true } else s)

/-- LOCK_CHECK: at epoch N − 64 the change is abandoned if some standby PLL has not locked (R510). -/
def execLockCheck (s : State) : Host.Outcome State Fault Refusal := live s <|
  .next (match s.clk.change with
    | some c =>
      if c.stage ≠ 0 ∨ s.epoch + 64 < c.n then s
      else if (List.range 16).all (fun r => (s.region r).locked) then { s with clk := { s.clk with change := some { c with stage := 1 } } }
      else { s with clk := { s.clk with change := none }.ended 4 }
    | none => s)

/-- CHANGE_HOLD: at epoch N − 32 the hold root raises a change hold, under no cause (R511). -/
def execChangeHold (s : State) : Host.Outcome State Fault Refusal := live s <|
  .next (match s.clk.change with
    | some c =>
      if c.stage ≠ 1 ∨ s.epoch + 32 < c.n then s
      else ({ s with hold := { s.hold with change := true }, clk := { s.clk with change := some { c with stage := 2 } } } : State).settleHold
    | none => s)

/-- CLOCK_SWITCH: at epoch N every region and the configuration bus switch; four counts have no periods; the root announces N + 8 if nothing
    else is raised (R512, R513). No region is set faster than its TOP (R506): where one has been lowered too far since the request, nothing
    switches and the change ends with RESULT 2 (log 61). -/
def execClockSwitch (s : State) : Host.Outcome State Fault Refusal := live s <|
  .next (match s.clk.change with
    | some c =>
      if c.stage ≠ 2 ∨ s.epoch < c.n then s
      else if c.step < s.dieTop then
        ({ s with clk := { s.clk with change := none }.ended 2, hold := { s.hold with change := false } } : State).settleHold
      else
        let s2 := { s.mapRegions (fun _ g => { g with step := c.step, lost := g.lost + 4 }) with
          clk := { s.clk with cfg := c.cfg, change := some { c with stage := 3 } }
          hold := { s.hold with change := false }
          epoch := s.epoch + 4 }
        if s2.allStopped && !s2.keepsHold then { s2.announce with hold := { s2.announce.hold with release := some (c.n + 8) } } else s2.settleHold
    | none => s)

/-- STOPPED_CHANGE_REQUEST: a write of CLK_ECF_CTL with GO = 1 (R517, R302). -/
def execStoppedChangeRequest (value : Nat) (s : State) : Host.Outcome State Fault Refusal := live s <|
  let step := bits value 10 8
  let r := value % 16
  .next (if !s.regAlive || !bitOf value 31 then s
    else
      let c := { s.clk with ecfStep := step, ecfRegion := r }
      if s.run.isSome || s.clk.change.isSome || s.clk.ecfPend.isSome then { s with clk := { c with ecfResult := 1 } }
      else if decide (5 < step) || decide (step < (s.region r).top) || (s.debug && step == 0) then { s with clk := { c with ecfResult := 2 } }
      else ({ s with clk := { c with ecfBusy := true, ecfPend := some (r, step) } }).setRegion r { s.region r with stopped := true, locked := false })

/-- HOLD_COUNTER_CLEAR: a write of CLK_HOLD_CTL with CLEAR = 1: every hold counter is set to zero; FREEZE takes the written
    value (R229, R297). -/
def execHoldCounterClear (value : Nat) (s : State) : Host.Outcome State Fault Refusal := live s <|
  .next (if !s.regAlive || !bitOf value 0 then s
    else
      { (s.mapCores (fun _ k => { k with holdTotal := 0, holdCause := [] })).mapRegions (fun _ g => { g with stretched := 0, denied := 0 }) with
        hold := { s.hold with freeze := bitOf value 1, total := 0, cause := [], episodes := 0, skewMax := 0 } })

/-! ### Episodes (R288 to R297, R661) -/

/-- HOLD_STOP: a raise reaches core c, which stops and records its stop count. The root has the raise by then, so its stop reaches every
    other core within 6 more periods (R289, R290). -/
def execHoldStop (core : Nat) (s : State) : Host.Outcome State Fault Refusal := live s <|
  .next (if !s.fuse.active core || !s.hold.raising || (s.core core).stopped.isSome then s
    else
      (s.mapCores (fun c k =>
        if c = core then { k with stopped := some k.sched }
        else if k.stopped.isNone then { k with raiseAge := max k.raiseAge 6 } else k)).settleHold)

/-- HOLD_RELEASE: every core has stopped and nothing is raised: the root announces E = e + 8 (R291). -/
def execHoldRelease (s : State) : Host.Outcome State Fault Refusal := live s <|
  .next (if s.hold.episode && s.hold.release.isNone && s.allStopped && !s.keepsHold then s.announce else s)

/-- HOLD_RESUME: a stopped core resumes at E plus its stop count's distance from the smallest one; with the last one the episode ends
    (R290, R292). -/
def execHoldResume (core : Nat) (s : State) : Host.Outcome State Fault Refusal := live s <|
  .next (if s.resumeDue core then
      let s1 := s.setCore core { s.core core with stopped := none, raiseAge := 0 }
      if s1.fuse.ring.all (fun c => (s1.core c).stopped.isNone) then s1.endEpisode else s1
    else s)

/-- THROTTLE_RAISE: three successive low samples of THROTTLE_N raise THROTTLE, once start-up is complete (R661). -/
def execThrottleRaise (s : State) : Host.Outcome State Fault Refusal := live s <|
  .next (if s.boot.done then ({ s with hold := { s.hold with throttle := true } } : State).settleHold else s)

/-- THROTTLE_CLEAR: three successive high samples clear it (R661). -/
def execThrottleClear (s : State) : Host.Outcome State Fault Refusal := live s <|
  .next ({ s with hold := { s.hold with throttle := false } } : State).settleHold

/-! ### Stretch (R521) -/

/-- STRETCH: region r's jitter (0) or duty-cycle (1) monitor trips. With budget left the next period is stretched: it takes two epoch
    counts, and what that does to λ and to crossings comes as it ends (R296, R521). A period is stretched once. -/
def execStretch (r : Nat) (duty : Bool) (s : State) : Host.Outcome State Fault Refusal := live s <|
  let g := s.region r
  let g := if duty then { g with duty := true } else { g with jit := true }
  let now := s.epoch - g.lost
  let recent := g.window.filter (fun p => now < p + 64)
  let frozen := s.hold.freeze
  .next (if decide (16 ≤ r) || g.stopped then s
    else if g.trip then s.setRegion r g
    else if 4 ≤ recent.length then
      s.setRegion r { g with window := recent, denied := if frozen then g.denied else min (g.denied + 1) (2 ^ 32 - 1) }
    else
      s.setRegion r { g with
        window := recent ++ [now], trip := true
        stretched := if frozen then g.stretched else min (g.stretched + 1) (2 ^ 32 - 1) })

/-! ### Rind gauges (R608 to R612) -/

/-- The gauge result of a region for a drift (R609); without region margins (R597) there is none, and TOP stands. -/
def Region.gauge (g : Region) (d : Nat) : Nat := if g.driftLimit = 0 then g.top else g.topCal + d / g.driftLimit

/-- The region after a gauge result: TOP becomes the slower of it and the present one (R609, R611). -/
def Region.sampled (g : Region) (d : Nat) (temp : Nat) : Region :=
  { g with drift := d, exhausted := g.exhausted || decide (5 < g.gauge d), temp := temp }

/-- Region r sampled: a slower result lowers TOP and posts a margin-change record (R609, R611). -/
def State.gaugeRegion (drifts temps : List Nat) (s : State) (r : Nat) : State :=
  let d : Nat := min (drifts.getD r 0) 4095
  let g : Region := (s.region r).sampled d (temps.getD r (s.region r).temp)
  let top : Nat := min (g.gauge d) 5
  if g.top < top then
    let s1 := s.setRegion r { g with top := top }
    s1.postEvent s1.clk.fchgRing 6 (0x320 + r) 0 (detailOf [(1, g.top), (1, top), (6, 0), (8, s.epoch)])
  else s.setRegion r g

/-- A sample of every region's gauges after start-up: a TOP below the present step asks for a change (R609 to R612, R516).
    drifts: D of each region; temps: °C. -/
def State.gaugeSample (s : State) (drifts temps : List Nat) : State :=
  let s1 := (List.range 16).foldl (State.gaugeRegion drifts temps) s
  let s2 : State := { s1 with clk := { s1.clk with gaugeEpoch := s1.epoch } }
  if (s2.region 0).step < s2.dieTop ∧ s.dieTop < s2.dieTop then s2.deviceChange s2.dieTop else s2

/-- HOURLY_GAUGE_SAMPLE: every hour after DONE (R608). -/
def execHourlyGaugeSample (drifts temps : List Nat) (s : State) : Host.Outcome State Fault Refusal := live s <|
  .next (if s.boot.done && !s.clk.lost then s.gaugeSample drifts temps else s)

end Sys2Proof.Machine
end

