-- ==== Sys2Proof/Machine/HostCmds.lean ====
section
/-! DEFINITION. Host commands on Ladle queues, semaphores and fences, and the ends of remote operations
(18 R568, R569, R577, R578, R584 to R586, 10 R316 to R320). -/

namespace Sys2Proof.Machine

/-! ### Ladle copy -/

/-- LADLE_COPY: ring r's head command offers a transfer to a host-owned queue (R568, R569, R673). It waits while its descriptor stands in a quiesced stack
    (R380). -/
def execLadleCopy (r : Nat) (s : State) : Host.Outcome State Fault Refusal := live s <|
  .next (if s.headWaits r (fun d => s.waits (fieldAt d 16 8)) then s else s.deliver r .ladle (fun s d id =>
    let c := fieldAt d 8 1
    let q := fieldAt d 9 1
    let a := fieldAt d 16 8
    let none_ := detailOf [(8, 0), (4, 0)]
    if !(zeroAt d 1 3 && zeroAt d 10 6 && zeroAt d 24 40) || decide (159 < c) || decide (7 < q) || decide (2 ^ 52 ≤ a) || a % 128 != 0 then
      s.complete id [1] none_
    else if !s.fuse.active c then s.complete id [2] none_
    else if s.queueOwner c q ≠ 1 then
      (s.setCore c ((s.core c).ladleFail q 1 (free32 s.free (site 0 c 311)).toNat)).complete id [1] none_
    else if !s.rangeOkDev false a (a + 127) then s.complete id [2] none_
    else
      let b := s.readStruct a 128
      let s := b.2.2
      if b.2.1 then s.complete id [5] none_
      else s.setCore c ((s.core c).offer q { id := id, desc := ladleDesc b.1, by_ := .host, cmd := id })))

/-! ### Semaphore operations -/

/-- The fields of a semaphore-operation descriptor that stop it at delivery: DESC_ERROR or ADDRESS_ERROR (R577, R578). -/
def State.semRefusal (s : State) (d : Desc) (wait : Bool) : Option Nat :=
  let glob := fieldAt d 9 1
  let w : W64 := BitVec.ofNat 64 (fieldAt d 16 8)
  let core := w.toNat % 256
  let self := bitOf w.toNat 22
  if !(zeroAt d 1 3 && zeroAt d 24 40) || decide (1 < glob) || decide ((if glob = 1 then 1024 else 256) ≤ fieldAt d 10 2)
      || targetRefused w (glob == 1) || (wait && !self) then some 1
  else if self && glob == 0 && !s.fuse.active core then some 2
  else none

/-- SEMAPHORE_WAIT: blocks its ring until the local semaphore is at least AMOUNT (R316, R578). -/
def execSemaphoreWait (r : Nat) (s : State) : Host.Outcome State Fault Refusal := live s <|
  .next (s.deliver r .semWait (fun s d id =>
    match s.semRefusal d true with
    | some e => s.complete id [e] []
    | none => (s.block id).waitsMet))

/-- An operation on a semaphore of this device whose controller stands in a stopped region waits (R518). -/
def State.semHeld (s : State) (d : Desc) : Bool := bitOf (fieldAt d 16 8) 22 && s.semStopped (fieldAt d 16 1)

/-- An add or a subtract by a command (R316, R310). -/
def State.semCommand (s : State) (sub : Bool) (d : Desc) (id : Nat) : State :=
  match s.semRefusal d false with
  | some e => s.complete id [e] []
  | none =>
    let w : W64 := BitVec.ofNat 64 (fieldAt d 16 8)
    let glob := fieldAt d 9 1 == 1
    let idx := fieldAt d 10 2
    let v := fieldAt d 12 4
    let amount : Int := if sub then -(v : Int) else v
    if bitOf w.toNat 22 then
      let c := w.toNat % 256
      let s := if v = 0 then s else if glob then s.gsemChange idx amount else s.csemChange c idx amount
      (s.complete id [] (leBytes 4 (s.namedSem d))).waitsMet
    else if v = 0 then s.complete id [] []
    else
      let x := s.remoteIssue (.command id) w glob idx amount
      if x.2 then x.1 else s.complete id [0x32] []

/-- SEMAPHORE_ADD (R316, R518). -/
def execSemaphoreAdd (r : Nat) (s : State) : Host.Outcome State Fault Refusal := live s <|
  .next (if s.headWaits r s.semHeld then s else s.deliver r .semAdd (fun s d id => s.semCommand false d id))

/-- SEMAPHORE_SUBTRACT (R316, R518). -/
def execSemaphoreSubtract (r : Nat) (s : State) : Host.Outcome State Fault Refusal := live s <|
  .next (if s.headWaits r s.semHeld then s else s.deliver r .semSub (fun s d id => s.semCommand true d id))

/-! ### Fences -/

/-- FENCE: waits for the commands delivered before it from its masked rings and its own (R584, R585). -/
def execFence (r : Nat) (s : State) : Host.Outcome State Fault Refusal := live s <|
  .next (s.deliver r .fence (fun s d id =>
    if zeroAt d 1 3 && zeroAt d 16 48 then
      let l := (s.cmds.filter (fun c => c.id != id && (c.ring == r || bitOf (fieldAt d 8 8) c.ring))).map (fun c => c.id)
      (s.modCmd id (fun c => { c with fence := l })).block id
    else s.complete id [1] []))

/-- FENCE_RELEASE: the fence that blocks ring r is released once each of those commands has posted its record (R585). -/
def execFenceRelease (r : Nat) (s : State) : Host.Outcome State Fault Refusal := live s <|
  .next (match (s.cring r).blocked.bind s.cmd with
    | some c =>
      if rowOf c.desc == some .fence && c.ended.isNone && c.fence.all (fun i => (s.cmd i).isNone) then
        s.complete c.id [] (leBytes 8 s.epoch)
      else s
    | none => s)

/-! ### Remote operations end (R317 to R320) -/

/-- A remote operation ends with an outcome, reported to its issuer (R320). -/
def State.remoteEnd (s : State) (op : RemoteOp) (o : Nat) : State :=
  let s := { s with remote := s.remote.filter (fun x => x.id != op.id) }
  let st := if o = 0 then [] else [outcomeStatus o]
  match op.by_ with
  | .core c => (s.setCore c ((s.core c).noteRemote o)).runOutcome c o
  | .transfer c q 0 id => (s.dropTransfer c q id).runOutcome c o
  | .transfer c q cmd id => match s.cmd cmd with
    | some k => (s.dropTransfer c q id).complete cmd st (detailOf [(8, k.bytes), (4, k.ttag)])
    | none => s.dropTransfer c q id
  | .command id => s.complete id st []

/-- An operation applied to a semaphore of this device, or refused: the outcome (R311, R317, R320). -/
def State.applyRemote (s : State) (core idx : Nat) (amount : Int) : State × Nat :=
  if s.switching || s.restarting then (s, 3)
  else if core = 255 then ((s.gsemChange idx amount).waitsMet, 0)
  else if !s.fuse.active core then (s, 1)
  else ((s.csemChange core idx amount).waitsMet, 0)

/-- REMOTE_SEMAPHORE_PACKET: operation id of this device reaches its target on the mesh and is applied or refused, in the order of issue of
    operations of one core or ring on one semaphore (R317), once no stopped region holds it up (R518); a transfer whose signal it is is over (R217). -/
def execRemoteSemaphorePacket (x : Arrival) (s : State) : Host.Outcome State Fault Refusal := live s <|
  let id := x.id
  .next (match s.remote.find? (fun o => o.id == id) with
    | some op =>
      let earlier := (s.remote.takeWhile (fun o => o.id != id)).any (fun o =>
        o.key == op.key && o.self && o.core == op.core && o.idx == op.idx && o.outcome.isNone && !o.lost)
      let held := s.semStopped op.core || (op.key.1 == 0 && s.routeStopped op.key.2 op.core)
      let put := fun (t : State) (o : RemoteOp) => { t with remote := t.remote.map (fun q => if q.id = id then o else q) }
      if !op.self || op.outcome.isSome || op.lost || earlier || held then s
      else match s.discarded x.lostAt with
        | some s' => put s' { op with lost := true }
        | none =>
          let r := s.applyRemote op.core op.idx op.amount
          let t := put r.1 { op with outcome := some r.2 }
          match op.by_ with
          | .transfer c q _ i => t.dropTransfer c q i
          | _ => t
    | none => s)

/-- SEMAPHORE_ACKNOWLEDGEMENT: the answer returns and ends the operation (R320). -/
def execSemaphoreAcknowledgement (x : Arrival) (s : State) : Host.Outcome State Fault Refusal := live s <|
  let id := x.id
  .next (match s.remote.find? (fun o => o.id == id) with
    | some op => match op.self, op.outcome with
      | true, some o =>
        if op.lost || (op.key.1 == 0 && s.routeStopped op.core op.key.2) then s
        else match s.discarded x.lostAt with
          | some s' => { s' with remote := s'.remote.map (fun x => if x.id = id then { op with lost := true } else x) }
          | none => s.remoteEnd op o
      | _, _ => s
    | none => s)

/-- REMOTE_OPERATION_TIMEOUT: operation id has not been acknowledged for 2^t periods of region 0 (R319), or a WRITE message of that TAG
    has been lost on a failed link (R487). -/
def execRemoteOperationTimeout (id : Nat) (s : State) : Host.Outcome State Fault Refusal := live s <|
  .next (match s.remote.find? (fun o => o.id == id) with
    | some op => if op.since + 2 ^ s.tmoExp ≤ s.periods0 then s.remoteEnd op 5 else s
    | none => match s.writesOut.find? (fun w => w.1 == id) with
      | some w => if w.2.2 + 2 ^ s.tmoExp ≤ s.periods0 then s.writeEnds id 5 else s
      | none => s)

/-- GLOBAL_SEMAPHORE_UPDATE: the hub's value reaches a core controller's copy (R314), while both clocks run (R518). -/
def execGlobalSemaphoreUpdate (core idx : Nat) (s : State) : Host.Outcome State Fault Refusal := live s <|
  let k := s.core core
  .next (if s.fuse.active core && decide (idx < 1024) && s.clocked core && !s.semStopped 255 then
      s.setCore core { k with gcopy := Sparse.set 0 k.gcopy idx (Sparse.get 0 s.gsems idx) }
    else s)

/-! ### The deadlock detector (R327 to R330) -/

/-- The active cores with an unmet SEMWAIT. -/
def State.waitingCores (s : State) : List Nat := (List.range Config.nPhys).filter (fun c => s.fuse.active c && !(s.core c).waits.isEmpty)

/-- TST_DLD_SNAP (R329). -/
def State.dldSnap (s : State) : Nat :=
  let l := s.waitingCores
  match l with
  | [] => 255 * 2 ^ 48
  | c :: _ =>
    let g := (s.core c).waits.headD ⟨0, false, 0, 0, false⟩
    min 255 l.length * 2 ^ 56 + c * 2 ^ 48 + (if g.glob then 2 ^ 47 else 0) + g.idx * 2 ^ 37
      + (if g.glob then Sparse.get 0 s.gsems g.idx else Sparse.get 0 (s.core c).sems g.idx)

/-- DEADLOCK_DETECTOR_FIRE: 2^k periods with pending work and no progress have passed (R329). -/
def execDeadlockDetectorFire (s : State) : Host.Outcome State Fault Refusal := live s <|
  .next (if s.dldDue then
      let snap := s.dldSnap
      let d := s.dld
      { s with dld := { d with snap := snap, fired := true, fires := min (d.fires + 1) 0xFFFF, quiet := true } }.postEvent d.ring 5 0x310 0
        (detailOf [(8, snap), (8, s.epoch)])
    else s)

end Sys2Proof.Machine
end

