-- ==== Sys2Proof/Machine/PressOps.lean ====
section
/-! DEFINITION. The Press: chunks, conversion, sending, results, trees, the ends of jobs (14 R428 to R449, 02 R35 to R41). -/

namespace Sys2Proof.Machine

/-! ### Counters, details -/

/-- Job j's command ends with a status of 1 of PRS_CNT (PRS_CNT1). -/
def State.pressCount (s : State) (c k : Nat) : State :=
  { s with press := { s.press with cnt := Sparse.set 0 s.press.cnt c (min (Sparse.get 0 s.press.cnt c + k) (2 ^ 64 - 1)) } }

/-- DETAIL of a Press job's record (R587). -/
def PressJob.detail (j : PressJob) (pos cause : Nat) (heard : Bool) : List Byte :=
  detailOf [(4, j.mism), (4, j.mismFirst.getD 0xFFFFFFFF), (2, pos), (1, cause),
    (1, (if j.range then 1 else 0) + (if heard then 2 else 0)), (4, j.tag)]

/-- Bits of PRS_ERR set: 0 PAR, 1 POISON, 2 ABORT, 3 TIMEOUT, 4 SKIM. -/
def State.pressErr (s : State) (b : Nat) : State := { s with press := { s.press with err := setBit s.press.err b } }

/-- The active job of a command. -/
def State.pressJob (s : State) (cmd : Nat) : Option PressJob := s.press.jobs.find? (fun j => j.cmd == cmd && !j.armed)

/-- The job of a command changed, wherever it stands. -/
def State.modJob (s : State) (cmd : Nat) (f : PressJob → PressJob) : State :=
  let g := fun (j : PressJob) => if j.cmd = cmd then f j else j
  { s with press := { s.press with jobs := s.press.jobs.map g, old := s.press.old.map g } }

/-- Press group g. -/
def State.group (s : State) (g : Nat) : PressGroup := Sparse.get {} s.press.groups g

/-! ### Chunks and laps (R434, R435) -/

/-- C: blocks of a chunk. -/
def PressJob.len (j : PressJob) : Nat := ceilDiv j.nb (2 * j.p)

/-- The chunk of block b. -/
def PressJob.chunk (j : PressJob) (b : Nat) : Nat := b / j.len

/-- Chunk c travels clockwise. -/
def PressJob.up (j : PressJob) (c : Nat) : Bool := decide (c < j.p)

/-- The position after r, clockwise or not. -/
def PressJob.next (j : PressJob) (up : Bool) (r : Nat) : Nat := if up then (r + 1) % j.p else (r + j.p - 1) % j.p

/-- Owner of chunk c. -/
def PressJob.owner (j : PressJob) (c : Nat) : Nat := c % j.p

/-- Origin of chunk c. -/
def PressJob.origin (j : PressJob) (c : Nat) : Nat := j.next (j.up c) (j.owner c)

/-- Blocks of chunk c. -/
def PressJob.blocks (j : PressJob) (c : Nat) : List Nat :=
  (List.range (min ((c + 1) * j.len) j.nb - c * j.len)).map (fun i => c * j.len + i)

/-- Block b is sampled (R442). -/
def PressJob.sampled (j : PressJob) (b : Nat) : Bool := j.skim != 0 && decide (1 < j.p) && (b + j.tag) % 2 ^ (j.skim - 1) == 0

/-- Tree index of position r in a chunk's tree, and the position of an index (R443). -/
def PressJob.treeIdx (j : PressJob) (c r : Nat) : Nat :=
  if j.up c then (r + j.p - j.owner c) % j.p else (j.owner c + j.p - r) % j.p

/-- The position of a tree index. -/
def PressJob.treePos (j : PressJob) (c i : Nat) : Nat := if j.up c then (j.owner c + i) % j.p else (j.owner c + j.p - i) % j.p

/-- Children of tree index i: those whose highest bit cleared gives i. -/
def PressJob.children (j : PressJob) (i : Nat) : Nat :=
  ((List.range 15).filter (fun k => decide (i < 2 ^ k ∧ i + 2 ^ k < j.p))).length

/-! ### Source blocks and records (R36 to R41, R436, R449) -/

/-- Source block b: values, poison, and the state after the read (R432, R449). -/
def State.pressRead (s : State) (j : PressJob) (b : Nat) : List Num × Bool × State :=
  let lb := lineBytes j.srcFmt
  let a := j.src + b * lb
  let bs := s.bytesAt a lb
  let bad := s.anyBad a lb
  let s := s.noteRead a lb
  ((List.range 64).map (fun i => decodeElem j.srcFmt (elemAt j.srcFmt bs i)), bad, if bad then s.pressErr 1 else s)

/-- A member's contribution under agreed code E: its SCALE, its words, RANGE (R40, R436). -/
def convert (E h : Nat) (xs : List Num) : Nat × List W32 × Bool :=
  if E = 255 then (255, List.replicate 64 0, false)
  else if xs.any Num.special then (255, List.replicate 64 0, true)
  else
    let l := xs.map (toSSI E h)
    (E, l.map (fun p => BitVec.ofInt 32 p.1), l.any (fun p => p.2))

/-- Bytes of a record in a job's mode (R36, R435). -/
def PressRec.bytes (r : PressRec) (mode : Nat) : List Byte :=
  r.words.flatMap (fun w => leBytes 4 w.toNat) ++ (if mode = 0 then leBytes 1 r.scale ++ leBytes 1 r.headroom ++ leBytes 2 0 else [])

/-- A record from bytes. -/
def recOf (block : Nat) (poison : Bool) (b : List Byte) : PressRec :=
  { block := block, scale := leAt b 256 1, headroom := leAt b 257 1, poison := poison
    words := (List.range 64).map (fun i => BitVec.ofNat 32 (leAt b (4 * i) 4)) }

/-- The destination words of a total (R438, R440, R41). -/
def PressJob.resultElems (j : PressJob) (r : PressRec) : List Nat :=
  r.words.map (fun w =>
    if j.mode = 1 then encodeElem j.dstFmt j.sat ((f32 w).mul (f32 j.mult))
    else if r.scale = 255 then encodeElem j.dstFmt j.sat .nan
    else if w = 0 then 0
    else encodeElem j.dstFmt j.sat (((Num.ofInt w.toInt).scale ((r.scale : Int) - 157 + r.headroom)).mul (f32 j.mult)))

/-! ### Sending (R437, R469, R479, R488) -/

/-- ADDR of a message of a job (R469). -/
def PressJob.addr (j : PressJob) (lap chunk : Nat) : Nat := j.gen % 2 ^ 32 + j.group * 2 ^ 32 + lap * 2 ^ 36 + chunk * 2 ^ 38

/-- A PRESS_CTL message to a peer; not sent where it is not reachable (R469; log 25). -/
def State.pressCtl (s : State) (peer chunk tag addr arg : Nat) (body : List MByte) : State :=
  (s.sendMsg chunk (s.msgTo peer 0x12 tag addr arg body)).getD s

/-- The destination blocks of a job that lap 3 has not written hold undefined bytes (R448). -/
def State.pressUndefined (s : State) (j : PressJob) : State :=
  let lb := lineBytes j.dstFmt
  let t := ((List.range j.nb).filter (fun b => !j.done.contains b)).foldl (fun t b =>
    t.storeBytes (j.dst + b * lb) (s.freeRange (j.dst + b * lb) lb)) s
  { t with free := s.free + 1 }

/-- An active job is over before its work is: it makes no signal, its group fails, what it had still to send is dropped, what it has
    not written of its destination is undefined (R448). -/
def State.pressEnd (s : State) (j : PressJob) (pos cause : Nat) (heard : Bool) : State :=
  let s := s.pressUndefined j
  let g := s.group j.group
  let mine := fun (m : Msg) => m.tag == j.tag && bits m.addr 35 32 == j.group
  let s1 := { s with press := { s.press with
    jobs := s.press.jobs.filter (fun x => x.cmd != j.cmd)
    groups := Sparse.set {} s.press.groups j.group { g with failed := true }
    waiting := s.press.waiting.filter (fun w => !mine w.2.2) } }
  ((s1.pressErr 2).pressCount 1 1).complete j.cmd [0x51] (j.detail pos cause heard)

/-- ARG of an abort: position and cause (log 25). -/
def abortArg (pos cause : Nat) : Nat := 2 + pos * 2 ^ 4 + cause * 2 ^ 20

/-- Armed jobs of a group that has failed complete at once (R430, R448). -/
def State.pressGroupFailed (s : State) (g : Nat) : State :=
  let late := s.press.jobs.filter (fun x => x.group == g && x.armed)
  let s1 := { s with press := { s.press with jobs := s.press.jobs.filter (fun x => !(x.group == g && x.armed)) } }
  late.foldl (fun s x => (s.pressCount 1 1).complete x.cmd [0x50] (x.detail 0 0 false)) s1

/-- A job ends by its own error with a cause: its group fails, aborts go to both ring neighbours (R446 to R448). -/
def State.pressFail (s : State) (cmd cause : Nat) : State :=
  match s.pressJob cmd with
  | none => s
  | some j =>
    let s1 := s.pressEnd j j.self cause false
    let s2 := { s1 with press := { s1.press with aborts := (j.group, j.gen, j.tag, j.self) :: s1.press.aborts } }
    let s3 := (if cause = 5 then s2.pressErr 3 else s2).pressGroupFailed j.group
    if j.p = 1 then s3
    else ([j.next true j.self, j.next false j.self].eraseDups).foldl
      (fun s r => s.pressCtl (j.ring.getD r 0) 0 j.tag (j.addr 0 0) (abortArg j.self cause) []) s3

/-- The job has sent or received (R446). -/
def State.pressTouch (s : State) (cmd : Nat) : State := { s.modJob cmd (fun j => { j with since := s.periods0 }) with noProgress := 0 }

/-- A PRESS message leaves against a grant of its destination (R488). -/
def State.pressLeave (s : State) (m : Msg) : Option State :=
  (s.sendMsg (bits m.addr 52 38) m).map (fun t =>
    State.pressCount { t with press := { t.press with grants := Sparse.set 0 t.press.grants m.dst (Sparse.get 0 s.press.grants m.dst - 1) } } 2 m.len)

/-- A PRESS message of a job leaves against a grant, or waits for one; an unreachable peer ends the job (R446, R488). -/
def State.pressPut (s : State) (cmd : Nat) (m : Msg) : State :=
  if (s.pressJob cmd).isNone then s
  else if (s.portFor (bits m.addr 52 38) m.dst).isNone then s.pressFail cmd 2
  else if Sparse.get 0 s.press.grants m.dst = 0 then
    { s with press := { s.press with waiting := s.press.waiting ++ [(m.dst, bits m.addr 52 38, m)] } }
  else ((s.pressLeave m).getD s).pressTouch cmd

/-- A lap's body for one block goes to the next member. -/
def State.pressSend (s : State) (j : PressJob) (lap b : Nat) (body : List Byte) (poison : Bool) : State :=
  let c := j.chunk b
  let arg := if lap = 3 then 0 else (j.nb - 1) % 2 ^ 30 + j.mode * 2 ^ 30 + j.skim * 2 ^ 32
  let peer := j.ring.getD (j.next (j.up c) j.self) 0
  s.pressPut j.cmd (s.msgTo peer 2 j.tag (j.addr lap c + if poison then 2 ^ 63 else 0) arg (markAll false body))

/-- A grant of buffer space to a peer; its TAG names no job (R488; log 25). -/
def State.pressGrant (s : State) (peer count : Nat) : State := s.pressCtl peer 0 0xFFFFFFFF 0 (1 + count * 2 ^ 4) []

/-- The ring neighbours of position `self` of p members are granted 1,024 messages each (R488; log 25). -/
def State.grantNeighbours (s : State) (ring : List Nat) (p self : Nat) : State :=
  if p = 1 then s
  else ([(self + 1) % p, (self + p - 1) % p].eraseDups).foldl (fun s r => s.pressGrant (ring.getD r 0) 1024) s

/-! ### Trees (R443, R444) -/

/-- The own contribution of a sampled block, and the lap-2 total at the owner, enter the tree. -/
def State.skimOwn (s : State) (j : PressJob) (b scale : Nat) (words : List W32) (total : Option PressRec) : State :=
  if !j.sampled b then s
  else
    let kids := j.children (j.treeIdx (j.chunk b) j.self)
    s.modJob j.cmd (fun j =>
      let a : SkimAcc := (j.skims.find? (fun a => a.block == b)).getD { block := b, left := kids }
      let ff := scale == 255 || a.scale == 255
      let ws := if ff then List.replicate 64 0 else if a.words.isEmpty then words else a.words.zipWith (satOp (· + ·)) words
      let a := { a with own := true, scale := if ff then 255 else scale, headroom := j.h, words := ws, total := total }
      { j with skims := j.skims.filter (fun a => a.block != b) ++ [a] })

/-- A child's message enters the tree: its words are added, a SCALE of 0xFF marks the sum. The SCALE and HEADROOM that go on are this member's
    own (R443). -/
def State.skimChild (s : State) (cmd : Nat) (r : PressRec) : State :=
  s.modJob cmd (fun j =>
    let kids := j.children (j.treeIdx (j.chunk r.block) j.self)
    let a : SkimAcc := (j.skims.find? (fun a => a.block == r.block)).getD { block := r.block, left := kids }
    let ff := r.scale == 255 || a.scale == 255
    let ws := if ff then List.replicate 64 0 else if a.words.isEmpty then r.words else a.words.zipWith (satOp (· + ·)) r.words
    let a := { a with left := a.left - 1, scale := if ff then 255 else a.scale, words := ws }
    { j with skims := j.skims.filter (fun a => a.block != r.block) ++ [a] })

/-- The comparison at the owner; a poisoned block is excluded (R444, R449). -/
def State.skimCompare (s : State) (j : PressJob) (a : SkimAcc) (t : PressRec) : State :=
  let s := s.modJob j.cmd (fun j => { j with compare := j.compare - 1 })
  if t.poison then s
  else if a.words = t.words ∧ a.scale = t.scale ∧ a.headroom = t.headroom then s.pressCount 4 1
  else
    let s := ((s.pressErr 4).pressCount 4 1).pressCount 5 1
    let s := s.modJob j.cmd (fun j => { j with mism := j.mism + 1, mismFirst := some (j.mismFirst.getD a.block) })
    { s with press := { s.press with skimFirst := some (s.press.skimFirst.getD (j.tag, a.block)) } }

/-- The sum of a member's subtree is complete: it goes to the parent, or is compared at the owner. -/
def State.skimTry (s : State) (cmd b : Nat) : State :=
  match (s.press.jobs ++ s.press.old).find? (fun j => j.cmd == cmd) with
  | none => s
  | some j => match j.skims.find? (fun a => a.block == b) with
    | none => s
    | some a =>
      if !a.own || a.left != 0 then s
      else
        let c := j.chunk b
        let i := j.treeIdx c j.self
        let s := s.modJob cmd (fun j => { j with skims := j.skims.filter (fun a => a.block != b) })
        match a.total with
        | some t => s.skimCompare j a t
        | none =>
          let r : PressRec := { block := b, scale := a.scale, headroom := a.headroom, words := a.words }
          let peer := j.ring.getD (j.treePos c (i - 2 ^ Nat.log2 i)) 0
          match s.sendMsg c (s.msgTo peer 0x12 j.tag (j.addr 0 c) (4 + b * 2 ^ 4) (markAll false (r.bytes 0))) with
          | some t => t.pressTouch cmd
          | none => s.pressFail cmd 2

/-- Completed jobs with no tree left are forgotten. -/
def State.skimSweep (s : State) : State := { s with press := { s.press with old := s.press.old.filter (fun j => !j.skims.isEmpty) } }

/-! ### The laps of one block (R435, R436, R438, R440) -/

/-- A total is written to the destination (R438, R440, R449). -/
def State.pressResult (s : State) (j : PressJob) (r : PressRec) : State :=
  let lb := lineBytes j.dstFmt
  let bs := packElems j.dstFmt (j.resultElems r)
  (s.modJob j.cmd (fun j => { j with written := j.written + 1, done := r.block :: j.done, outst := j.outst + 1, poison := j.poison || r.poison })).send
    [.write (.press j.cmd) (j.dst + r.block * lb) (markAll r.poison bs) false]

/-- Lap 3 at this member: the result is written, and the record goes on, except from o − d. -/
def State.lap3 (s : State) (j : PressJob) (r : PressRec) : State :=
  let c := j.chunk r.block
  let s := if (s.pressJob j.cmd).isSome then s.pressResult j r else s
  if j.self = j.next (!j.up c) (j.owner c) then s else s.pressSend j 3 r.block (r.bytes j.mode) r.poison

/-- Lap 2 at this member, under an agreed code where it begins here: the own contribution is converted and added; the owner
    holds the total. par: a parity error in the engine (R449). -/
def State.lap2 (s : State) (j : PressJob) (recv : Option PressRec) (b code : Nat) (poison par : Bool) : State :=
  let x := s.pressRead j b
  let s := if par then x.2.2.pressErr 0 else x.2.2
  let bad := poison || x.2.1 || par
  let c := j.chunk b
  let total := recv.isSome && j.self == j.owner c || j.p == 1
  if j.mode = 1 then
    let own := x.1.map toF32
    let r : PressRec := { block := b, scale := 0, headroom := 0, poison := bad, words := match recv with
      | some r => r.words.zipWith fadd own
      | none => own }
    if total then s.lap3 j r else s.pressSend j 2 b (r.bytes 1) bad
  else
    let k := convert (match recv with
      | some r => r.scale
      | none => code) j.h x.1
    let ws := if k.1 = 255 then List.replicate 64 0 else match recv with
      | some r => r.words.zipWith (satOp (· + ·)) k.2.1
      | none => k.2.1
    let h := match recv with
      | some r => r.headroom
      | none => j.h
    let r : PressRec := { block := b, scale := k.1, headroom := h, poison := bad, words := ws }
    let s := if k.2.2 then s.modJob j.cmd (fun j => { j with range := true }) else s
    let s := s.skimOwn j b k.1 k.2.1 (if total then some r else none)
    let s := if total then s.lap3 j r else s.pressSend j 2 b (r.bytes 0) bad
    s.skimTry j.cmd b

/-- Lap 1 at this member: the larger code goes on, or is agreed at the origin, where lap 2 begins (R38, R39). -/
def State.lap1 (s : State) (j : PressJob) (b code : Nat) (poison par : Bool) : State :=
  let x := s.pressRead j b
  let s := if par then x.2.2.pressErr 0 else x.2.2
  let code := max code (localCode x.1)
  let bad := poison || x.2.1 || par
  if j.self = j.origin (j.chunk b) then s.lap2 j none b code bad false else s.pressSend j 1 b (leBytes 1 code) bad

/-! ### The start of a job (R428, R433, R434) -/

/-- The enabled Press engines. -/
def State.pressEngines (s : State) : List Nat := (List.range 4).filter (fun e => bitOf s.clk.enMisc (16 + e))

/-- The chunks that a member begins: all with P = 1, else those of which it makes the first lap's first visit (R435). -/
def PressJob.begins (j : PressJob) (c : Nat) : Bool :=
  j.p == 1 || j.self == (if j.mode = 1 then j.origin c else j.next (j.up c) (j.origin c))

/-- What a member begins of a chunk: with P = 1 everything, else lap 1, or lap 2 in FP32 mode. -/
def State.pressBegin (s : State) (j : PressJob) (c : Nat) : State :=
  (j.blocks c).foldl (fun s b =>
    if j.mode = 1 then s.lap2 j none b 0 false (j.par.contains b)
    else if j.p = 1 then (s.pressRead j b).2.2.lap2 j none b (localCode (s.pressRead j b).1) (s.pressRead j b).2.1 (j.par.contains b)
    else s.lap1 j b 0 false (j.par.contains b)) s

/-- A source block stands in a quiesced stack (R380). -/
def State.chunkWaits (s : State) (j : PressJob) (c : Nat) : Bool := (j.blocks c).any (fun b => s.waits (j.src + b * lineBytes j.srcFmt))

/-- The chunks that a job has still to begin are begun, but for those whose source waits for a quiesced stack (R380). -/
def State.pressGo (s : State) (cmd : Nat) : State :=
  match s.pressJob cmd with
  | none => s
  | some j =>
    let go := j.todo.filter (fun c => !s.chunkWaits j c)
    let s := s.modJob cmd (fun j => { j with todo := j.todo.filter (fun c => !go.contains c) })
    go.foldl (fun s c => if (s.pressJob cmd).isSome then s.pressBegin j c else s) s

/-- A job starts under the table in force, or ends gated where no engine is clocked, or at once where its group has failed (R430, R433,
    R448). -/
def State.pressStart (s : State) (cmd : Nat) : State :=
  match s.press.jobs.find? (fun j => j.cmd == cmd) with
  | none => s
  | some j =>
    let eng := s.pressEngines
    let refuse := fun (st : Nat) =>
      ({ s with press := { s.press with jobs := s.press.jobs.filter (fun x => x.cmd != cmd) } }.pressCount 1 1).complete cmd [st] (j.detail 0 0 false)
    if (s.group j.group).failed then refuse 0x50
    else if eng.isEmpty then refuse 4
    else
      let g := s.group j.group
      let j := { j with armed := false, gen := g.gen, p := g.p, ring := g.ring, self := g.self, h := headroom g.p, since := s.periods0 }
      let live := (List.range (2 * j.p)).filter (fun c => !(j.blocks c).isEmpty)
      let mine := live.filter (fun c => j.owner c == j.self)
      let j := { j with
        engines := (live.map (fun c => eng.getD (c % eng.length) 0)).eraseDups
        compare := (mine.flatMap j.blocks).countP j.sampled
        todo := live.filter j.begins }
      let s := s.modJob cmd (fun _ => j)
      (s.grantNeighbours j.ring j.p j.self).pressGo cmd

/-! ### A link toward a neighbour fails (R446) -/

/-- Active jobs with a ring neighbour that port n serves end as unreachable. -/
def State.pressLinkFailed (s : State) (n : Nat) : State :=
  let hit := fun (j : PressJob) => !j.armed && j.p != 1 && [j.next true j.self, j.next false j.self].any (fun r =>
    let e := (Sparse.get 0 s.peers (j.ring.getD r 0)).toNat
    bitOf e 63 && bitOf e (32 + n))
  (s.press.jobs.filter hit).foldl (fun s j => s.pressFail j.cmd 2) s

end Sys2Proof.Machine
end

