-- ==== Sys2Proof/Machine/Context.lean ====
section
/-! DEFINITION. Runs and contexts: start and completion of a run, what a context change ends and clears (08 R275 to
R279, 10 R322, 18 R560, R566, R567, R579, R580, R587). -/

namespace Sys2Proof.Machine

/-! ### The start of a run (R91, R226, R275) -/

/-- A quarter's first four units in a run of n units. -/
def firstUnits (n q : Nat) : List Nat := ((List.range 4).map (fun j => 4 * j + (4 - q) % 4)).filter (· < n)

/-- An injector's queue as a run of n units starts: the units requested early, if they were for this run, the rest of the
    first four now (R91, R226). -/
def startQueue (n q : Nat) (kept : List InjUnit) : List InjUnit :=
  (firstUnits n q).map (fun u => match kept.find? (fun i => i.unit == u && i.forNext) with
    | some i => { i with forNext := false }
    | none => { unit := u })

/-- A core at the start of a run (R275). DESIGN CHOICE: the 20 periods before an accumulator row is readable do not reach from one run into
    the next (log 68). held: it stops before its first bundle (R295). -/
def Core.runStart (k : Core) (pc : Nat) (injq : List InjUnit) (held : Bool) : Core :=
  { k with
    sregs := [], streams := [], loops := [], loopDone := false, branch := none, stepNo := 0, sched := 0, pc := pc, idle := 0
    issuing := true, ended := false, queue := [], gates := [], waits := [], stall := 0, stallDue := [], pause := 0, pauseFrom := 0, accReady := [], arrays := [], accStep := []
    fwd := {}, wbufActive := {}, lastStep := none, ret := {}, retPrev := {}, round := none, injq := injq, stores := [], deliveries := []
    late := none, trail := [], stopped := if k.stopped.isSome || held then some 0 else none, cond := injq.foldl (fun m i => m ||| i.cond) 0 }

/-- A run of entry with n injected units starts on every core; early: the run before it in its ring was the last run, so
    the units requested early are its own. Where a raise is on its way or an episode is in progress, every core stands at count 0 until the
    release (R295; log 28). -/
def State.startRun (s : State) (cmd entry pc n : Nat) (inj : Option Nat) (args : List W64) (early : Bool) : State :=
  let s1 := s.mapCores (fun c k =>
    k.runStart pc (match s.fuse.injQuarter c with
      | some q => startQueue n q (if early then k.injq else [])
      | none => []) s.hold.raising)
  let kept := if early then (s.units.filter (fun e => 2 ^ 40 ≤ e.1)).map (fun e => (e.1 - 2 ^ 40, e.2)) else []
  State.settleHold { s1 with
    run := some { cmd := cmd, entry := entry, args := args, inj := inj, units := n, started := true, mem0 := s.mem }
    units := kept
    hold := { s1.hold with sMin := 0, sMax := 0 } }

/-- A run whose queues have requested all their units at delivery decides at once about the following run (R226). -/
def State.earlyAtDelivery (s : State) (n : Nat) : State :=
  match s.earlyTable with
  | none => s
  | some m => s.mapCores (fun c k => match s.fuse.injQuarter c with
      | some q => if 16 + (4 - q) % 4 < n then k
          else { k with injq := k.injq ++ (firstUnits m q).map (fun u => { unit := u, forNext := true }) }
      | none => k)

/-- RUN: ring r's head command starts its entry on every core in one cycle, or is refused (R566, R567, R275). -/
def execRun (r : Nat) (s : State) : Host.Outcome State Fault Refusal := live s <|
  .next (s.deliver r .run (fun s d id =>
    let count := (s.cring r).head
    let early := s.lastRun == some (r, (count + 2 ^ 32 - 2) % 2 ^ 32)
    let s := { s with lastRun := some (r, (count + 2 ^ 32 - 1) % 2 ^ 32) }
    let inj := fieldAt d 10 1
    let detail := detailOf [(8, 0), (4, 0), (2, 0xFFFF)]
    -- a run refused at delivery discards what was requested for it
    let drop := fun (s : State) => { s.mapCores (fun _ k => { k with injq := k.injq.filter (fun i => !i.forNext) }) with
      units := s.units.filter (fun e => e.1 < 2 ^ 40) }
    if !(zeroAt d 1 3 && zeroAt d 11 5 && zeroAt d 48 16) || inj / 16 % 8 != 0 then (drop s).complete id [1] detail
    else match s.prog with
      | none => (drop s).complete id [6] detail
      | some p =>
        let entry := fieldAt d 8 2
        let tbl := if bitOf inj 7 then p.table (inj % 16) else none
        let ok := !bitOf inj 7 || (match tbl with
          | some t => !t.op
          | none => false)
        if p.entries.length ≤ entry ∨ !ok then (drop s).complete id [1] detail
        else
          let n := match tbl with
            | some t => t.count
            | none => 0
          (s.startRun id entry (p.entries.getD entry 0) n (tbl.map (fun t => t.ut))
            ((List.range 4).map (fun i => BitVec.ofNat 64 (fieldAt d (16 + 8 * i) 8))) early).earlyAtDelivery n))

/-! ### What a context change ends (R224, R560) -/

/-- A run that is held under SEM_WAIT is ended by a context switch or a bind: no bundle of it issues any more (R323, R330, log 46). -/
def State.cutRun (s : State) : State :=
  match s.run with
  | some r =>
    if r.restart then s
    else
      State.noteFirst (State.settleHold { s.mapCores (fun _ k => { k with ended := true, gates := [], waits := [], late := none }) with
        run := some { r with restart := true, cut := true } })
  | none => s

/-- Unstarted transfers are discarded, their Ladle copies cancelled; outstanding ones lose their signal; an epoch
    command and those that wait for it are cancelled (R224, R417, R560). A context change does this as it is delivered and again as the new
    context starts, for what has been delivered in between (log 46). -/
def State.beginContext (s : State) : State :=
  let s := s.cutRun
  let copies := s.cores.flatMap (fun e => e.2.ladle.flatMap (fun q => q.2.waiting.filterMap (fun t =>
    if t.by_ = .host then some (t.cmd, t.desc.tag) else none)))
  let s1 := s.mapCores (fun _ k =>
    { k with ladle := k.ladle.map (fun e => (e.1, { e.2 with waiting := [], out := e.2.out.map (fun t => { t with dropped := true }) })) })
  let s1 := s1.mapCores (fun _ k => { k with ladle := k.ladle.filter (fun e => decide (e.2 ≠ {})) })
  let s2 := copies.foldl (fun s c => s.complete c.1 [3] (detailOf [(8, 0), (4, c.2)])) s1
  match s2.epochCmd with
  | none => s2
  | some e =>
    let s3 := s2.complete e.cmd [3] (detailOf [(4, e.emitted), (4, e.batches)])
    s3.epochQueue.foldl (fun s id => s.complete id [3] (detailOf [(4, 0), (4, 0)])) { s3 with epochCmd := none, epochQueue := [] }

/-- Every outstanding write of the cores has been acknowledged (R157, R224). -/
def State.quiet (s : State) : Bool :=
  s.cores.all (fun e => e.2.stores.all (fun st => st.sent && st.outst == 0) && e.2.deliveries.all (fun d => d.outst == 0)
    && e.2.ladle.all (fun q => q.2.out.isEmpty))

/-- A core at a context start (R97, R163, R173, R197, R322): the Pail, masks, VL, Churn, semaphores and waits; accumulators
    and scratchpad stay (R75, R202). reseed: the generators too. -/
def Core.clearContext (reseed bind : Bool) (k : Core) : Core :=
  { k with
    pail := [], pailPoison := [], masks := [], maskPoison := [], vl := 128, genAge := if reseed then 0 else k.genAge
    fwd := {}, wbufActive := {}, ret := {}, retPrev := {}, round := none, injq := [], arrays := [], accStep := []
    queue := [], gates := [], waits := [], stores := [], deliveries := [], late := none, stopped := none, raiseAge := 0
    stall := 0, stallDue := [], pause := 0, semNet := [], semErr0 := 0, semSubs := []
    issuing := false, ended := false, idle := 0, branch := none, loopDone := false, sems := [], gcopy := []
    misTiles := if bind then [] else k.misTiles, hazard := if bind then 0 else k.hazard, hazardCount := if bind then 0 else k.hazardCount
    hazardDetail := if bind then 0 else k.hazardDetail, trail := [] }

/-- A context starts: state cleared, triggers disarmed, armed jobs and waits cancelled, active jobs without their signal, an
    episode ended with no sweep; a cause that is still raised begins a new one (R295, R322, R450, R560). -/
def State.clearContext (s : State) (reseed : Option W64) (bind : Bool) : State :=
  let s1 := s.mapCores (fun _ k => k.clearContext reseed.isSome bind)
  let armed := s1.press.jobs.filter (fun j => j.armed)
  let jobs := (s1.press.jobs.filter (fun j => !j.armed)).map (fun j => { j with dropSignal := true })
  let s2 := { s1 with
    gsems := [], gsemNet := [], gsemErr0 := 0, gsemSent := [], seed := reseed.getD s1.seed, units := [], lastRun := none
    press := { s1.press with jobs := jobs } }
  let e2 := s2.endEpisode
  let s2 := ({ e2 with hold := { e2.hold with crossing := e2.crossings } } : State).settleHold
  let s3 := armed.foldl (fun s j => (s.pressCount 1 1).complete j.cmd [3] (j.detail 0 0 false)) s2
  (s3.cmds.filter (fun c => rowOf c.desc == some .semWait && c.ended.isNone)).foldl (fun s c => s.complete c.id [3] []) s3

/-- CONTEXT_SWITCH: ends the present context of the program in force; a new one starts with SEED (R579, R580). -/
def execContextSwitch (r : Nat) (s : State) : Host.Outcome State Fault Refusal := live s <|
  .next (s.deliver r .switch_ (fun s d id =>
    if !(zeroAt d 1 3 && zeroAt d 16 48) then s.complete id [1] (detailOf [(8, 0)])
    else if s.prog.isNone then s.complete id [6] (detailOf [(8, 0)])
    else { s with ctx := some ⟨2, id, BitVec.ofNat 64 (fieldAt d 8 8), s.prog, [], [], 0⟩ }.beginContext))

/-- Writes of a bind: a write to memory of the device is made whole, one to host memory counts for the command once
    acknowledged (R550, R564). -/
def State.bindWrite (s : State) (id : Nat) (w : Nat × List MByte) : State :=
  if inHost w.1 then (s.modCmd id (fun c => { c with outst := c.outst + 1 })).hostWrite w.1 w.2 (.cmd id)
  else s.noteWrite w.1 w.2

/-! ### Run completion (R277 to R279, R587) -/

/-- Every array operation of the core is over and no event is due. -/
def Core.drained (k : Core) : Bool :=
  k.queue.isEmpty && k.gates.isEmpty && k.waits.isEmpty && k.arrays.all (fun a => a.2.run.isNone && a.2.queue.isNone)
  && k.stores.isEmpty && k.deliveries.isEmpty
  && k.ladle.all (fun q => q.2.waiting.all (fun t => t.by_ != .program) && q.2.out.all (fun t => t.by_ != .program))

/-- A remote operation of the run's program awaits its acknowledgement. -/
def State.runRemote (s : State) : Bool := s.remote.any (fun o => match o.by_ with
  | .core _ => true
  | .transfer _ _ 0 _ => true
  | _ => false)

/-- CONDITIONS of the run (R587). -/
def State.conditions (s : State) (r : RunState) : Nat :=
  (List.range Config.nPhys).foldl (fun m c => if s.fuse.active c then m ||| (s.core c).cond else m) r.cond

/-- STATUS values of the run's conditions (R562). -/
def runStatuses (cond : Nat) (remote : List Nat) : List Nat :=
  (if bitOf cond 6 then [0x21] else []) ++ (if bitOf cond 4 then [0x22] else []) ++ (if bitOf cond 5 then [0x20] else [])
  ++ remote ++ (if bitOf cond 1 then [2] else []) ++ (if bitOf cond 2 then [1] else []) ++ (if bitOf cond 0 then [5] else [])

/-- STATUS of a run that a context change cut short: its conditions' where there is one; where there is none the spec names no code, and the
    value is free (log 46). -/
def State.cutStatus (s : State) (r : RunState) (l : List Nat) : List Nat :=
  if r.cut && l.isEmpty then [(free32 s.free (site 0 0 313)).toNat % 2 ^ 16] else l

/-- The run is over: what is left on the lanes is discarded, requests no STEP reached are cancelled (R278), and its record
    is made. A run that issue was stopped for restarts the context, one that a context change cut short leaves that to the change. -/
def State.finishRun (s : State) : State :=
  let s := s.noteFirst
  match s.run with
  | none => s
  | some r =>
  let cond := s.conditions r
  let s1 := { s.mapCores (fun _ k =>
      { k with issuing := false, fwd := {}, wbufActive := {}, ret := {}, retPrev := {}, round := none, injq := k.injq.filter (fun i => i.forNext)
               cond := 0 }) with
    run := none, units := s.units.filter (fun e => 2 ^ 40 ≤ e.1) }
  let s2 := if r.restart && !r.cut then s1.clearContext none false else s1
  s2.complete r.cmd (s.cutStatus r (runStatuses cond r.remote))
    (detailOf [(8, r.endCount.getD 0), (4, cond), (2, r.firstCore.getD 0xFFFF)])

/-- RUN_COMPLETION: END has issued on every core and everything the run began has finished (R277); after a stop of issue the
    context restarts without reseeding once the outstanding writes are acknowledged, but not between a frequency change's hold and its
    release (R279, R306, R514). -/
def execRunCompletion (s : State) : Host.Outcome State Fault Refusal := live s <|
  .next (match s.run with
    | none => s
    | some r =>
      let ended := s.fuse.ring.all (fun c => (s.core c).ended)
      if !ended || s.runRemote || r.cut || (r.restart && s.changeHolds) then s
      else if r.restart then
        let s1 := s.beginContext
        if s1.quiet then s1.finishRun else s1
      else if s.fuse.ring.all (fun c => (s.core c).drained) then s.finishRun
      else s)

end Sys2Proof.Machine
end

