-- ==== Sys2Proof/Machine/Image.lean ====
section
/-! DEFINITION. Program images and their checks at bind: header, bundles, control flow, templates, tables, relocations (08 R234 to
R273). A refusal is a status and the ITEM of R587. -/

namespace Sys2Proof.Machine

/-- A refusal: STATUS and ITEM. -/
abbrev Refused := Nat × Nat

/-- No item. -/
def noItem : Nat := 0xFFFFFFFF

/-- A condition that must hold. -/
def need (c : Bool) (status item : Nat) : Except Refused Unit := if c then .ok () else .error (status, item)

/-- Every check of a list, in order. -/
def needAll {α : Type} (l : List α) (f : α → Except Refused Unit) : Except Refused Unit :=
  l.foldl (fun r x => match r with
    | .ok _ => f x
    | .error e => .error e) (.ok ())

/-! ### Bundles (R234 to R236) -/

/-- The bits of a field. -/
def fieldMask (hi lo : Nat) : Nat := 2 ^ (hi + 1) - 2 ^ lo

/-- No bit outside a mask. -/
def only (w mask : Nat) : Bool := w &&& mask == w

/-- MOP (R239, R99, R115): a NOP is zero. -/
def matrixOk (w : Nat) : Bool :=
  w == 0 || (w % 16 == 1 && w / 2 ^ 51 == 0 && bits w 5 4 != 3 && bits w 9 6 != 0 && bits w 22 11 != 0
    && (if bits w 5 4 = 2 then bits w 22 11 % 64 == 0 && bits w 45 35 == 0 else bits w 30 27 == 0 && bits w 50 46 == 0))

/-- Which operands a vector opcode reads (R245): 1 A, 2 A and B, 3 all, 0 none; none: reserved. -/
def vectorSrcs (op : Nat) : Option Nat :=
  if op = 4 then some 3
  else if (1 ≤ op ∧ op ≤ 3) ∨ op = 5 ∨ op = 6 ∨ (9 ≤ op ∧ op ≤ 0xE) ∨ (0x28 ≤ op ∧ op ≤ 0x2C) ∨ (0x2E ≤ op ∧ op ≤ 0x31)
      ∨ (0x38 ≤ op ∧ op ≤ 0x3A) ∨ (0x3C ≤ op ∧ op ≤ 0x44) ∨ op = 0x49 then some 2
  else if op = 7 ∨ op = 8 ∨ (0xF ≤ op ∧ op ≤ 0x19) ∨ (0x20 ≤ op ∧ op ≤ 0x23) ∨ op = 0x2D ∨ op = 0x3B ∨ (0x50 ≤ op ∧ op ≤ 0x56) then some 1
  else if op = 0x48 ∨ op = 0x4A ∨ (0x60 ≤ op ∧ op ≤ 0x64) ∨ op = 0x68 then some 0
  else none

/-- The opcode writes a mask: compares and mask operations. -/
def toMask (op : Nat) : Bool :=
  (decide (9 ≤ op) && decide (op ≤ 0xC)) || (decide (0x2E ≤ op) && decide (op ≤ 0x31)) || op == 0x43 || op == 0x44 || (decide (0x60 ≤ op) && decide (op ≤ 0x64))

/-- A source field: LANE_SEL is 0 where LANE_STRIDE is 1 (R244). -/
def srcOk (w lo : Nat) : Bool := !bitOf w (lo + 9) || bits w (lo + 16) (lo + 10) == 0

/-- The vector slot (R244 to R247). DESIGN CHOICE: ZERO may be 1 on a compare, which does not use it (R236, log 72). -/
def vectorOk (w : Nat) : Bool :=
  let op := w % 128
  w == 0 || (match vectorSrcs op with
    | none => false
    | some n =>
      let vd := if op = 0x68 then 0 else if toMask op then fieldMask 9 7 else fieldMask 15 7
      let mk := if op = 0x68 then 0 else fieldMask 19 16
      let a := if 1 ≤ n then fieldMask 36 20 else if op = 0x64 ∨ op = 0x68 then fieldMask 24 20 else if 0x60 ≤ op ∧ op ≤ 0x63 then fieldMask 22 20 else 0
      let b := if 2 ≤ n then fieldMask 53 37 else if 0x60 ≤ op ∧ op ≤ 0x63 then fieldMask 39 37 else 0
      let c := if n = 3 then fieldMask 70 54 else if op = 0xD then fieldMask 56 54 else if op = 0x23 then fieldMask 57 54 + fieldMask 62 62 else 0
      only w (127 + vd + mk + a + b + c) && srcOk w 20 && srcOk w 37 && srcOk w 54
        && (op != 0x23 || (decide (1 ≤ bits w 57 54) && decide (bits w 57 54 ≤ 7))))

/-- Opcodes with two delay bundles: BR and the conditional branches (R251). -/
def isBranch (op : Nat) : Bool := decide (0x38 ≤ op) && decide (op ≤ 0x3C)

/-- Bits that a scalar opcode may use (R248, R249); none: reserved. -/
def scalarMask (op : Nat) : Option Nat :=
  let sd := fieldMask 10 6
  let sa := fieldMask 15 11
  let sb := fieldMask 20 16
  let imm := fieldMask 47 16
  let tgt := fieldMask 37 24
  if 1 ≤ op ∧ op ≤ 0xE then some (sd + sa + sb)
  else if op = 0x10 ∨ op = 0x30 then some (sd + imm)
  else if op = 0x11 ∨ (0x14 ≤ op ∧ op ≤ 0x19) ∨ op = 0x1F ∨ (0x20 ≤ op ∧ op ≤ 0x26) ∨ (0x28 ≤ op ∧ op ≤ 0x2B) then some (sd + sa + imm)
  else if op = 0x36 then some imm
  else if op = 0x38 then some tgt
  else if 0x39 ≤ op ∧ op ≤ 0x3C then some (sa + sb + tgt)
  else if op = 0x3E then some (sa + tgt)
  else if op = 0x3F then some 0
  else none

/-- The scalar slot (R231, R248, R249, R254). -/
def scalarOk (w : Nat) : Bool :=
  let op := w % 64
  let imm := bits w 47 16
  w == 0 || (match scalarMask op with
    | none => false
    | some m => only w (63 + m) && (!(decide (0x17 ≤ op) && decide (op ≤ 0x19)) || decide (imm < 64))
        && (op != 0x30 || decide (imm ≤ 6) || (decide (8 ≤ imm) && decide (imm ≤ 11))) && (op != 0x36 || decide (imm ≤ 65535)))

/-- The move slot (R170, R256, R257); templates: SRC of each template. -/
def moveOk (templates : List Template) (w : Nat) : Bool :=
  w == 0 || (match w % 32 with
    | 1 => only w (fieldMask 25 0) && !(bitOf w 14 && bitOf w 15) && decide (bits w 20 16 ≤ 12) && bits w 20 16 != 11
    | 2 => match templates[bits w 10 5]? with
      | some t => (bitOf w 39 || bits w 38 31 == 0) && (if t.srcVec then bits w 15 11 == 0 else bits w 24 18 == 0)
      | none => false
    | 3 => only w (fieldMask 25 0)
    | 4 => only w (fieldMask 25 0)
    | 5 => only w (fieldMask 28 0) && fmtOk (bits w 28 24)
    | 6 => only w (fieldMask 12 0)
    | _ => false)

/-- The sync slot (R260, R261). -/
def syncOk (w : Nat) : Bool :=
  let idx := bitOf w 5 || decide (bits w 15 6 < 256)
  w == 0 || (match w % 32 with
    | 1 => only w (fieldMask 36 0) && idx
    | 2 => only w (fieldMask 36 0) && idx
    | 3 => only w (fieldMask 36 0) && idx
    | 4 => only w (fieldMask 25 0) && idx
    | 5 => only w (fieldMask 25 0) && idx
    | 6 => only w (fieldMask 20 0) && idx
    | 8 => only w (fieldMask 9 0) && (bitOf w 5 || bits w 9 6 == 0)
    | 9 => only w (fieldMask 12 0)
    | _ => false)

/-- Every slot of a bundle (R236). -/
def bundleOk (templates : List Template) (b : Nat) : Bool :=
  matrixOk (slotMatrix b) && vectorOk (slotVector b) && scalarOk (slotScalar b) && moveOk templates (slotMove b) && syncOk (slotSync b)

/-! ### Control flow (R251 to R253) -/

/-- Scalar opcode and TARGET of bundle i. -/
def flowAt (bs : List Nat) (i : Nat) : Nat × Nat :=
  let w := slotScalar (bs.getD i 0)
  (w % 64, bits w 37 24)

/-- Loop bodies: the LOOP bundle and the body's last bundle. -/
def loopsOf (bs : List Nat) : List (Nat × Nat) :=
  (List.range bs.length).filterMap (fun i => if (flowAt bs i).1 = 0x3E then some (i, (flowAt bs i).2) else none)

/-- Bundle i lies in a body. -/
def inBody (l : Nat × Nat) (i : Nat) : Bool := decide (l.1 < i) && decide (i ≤ l.2)

/-- The control flow of bundle i obeys R251 to R253. -/
def flowOk (bs : List Nat) (loops : List (Nat × Nat)) (i : Nat) : Bool :=
  let f := flowAt bs i
  let ctl := fun (j : Nat) => let o := (flowAt bs j).1; isBranch o || o == 0x3E || o == 0x3F
  let br := fun (j : Nat) => isBranch (flowAt bs j).1
  if isBranch f.1 then
    decide (f.2 < bs.length) && !ctl (i + 1) && !ctl (i + 2) && loops.all (fun l => inBody l i == inBody l f.2)
  else if f.1 = 0x3E then
    decide (f.2 < bs.length) && decide (i < f.2) && decide ((loops.filter (fun l => inBody l i)).length < 4)
    && loops.all (fun l => !(decide (i < l.1) && decide (l.1 < f.2) && decide (f.2 < l.2)))
    && !br f.2 && (flowAt bs f.2).1 != 0x3F && !(decide (1 ≤ f.2) && br (f.2 - 1)) && !(decide (2 ≤ f.2) && br (f.2 - 2))
  else true

/-! ### The image (R266 to R273) -/

/-- A relocation record (R272). -/
structure Reloc where
  bundle : Nat
  kind : Nat
  sel : Nat
  handle : Nat
  addend : Int
  rsvOk : Bool
  deriving DecidableEq, Repr

/-- A table declaration (R271). -/
structure Decl where
  kind : Nat
  ut : Nat
  handle : Nat
  act : Nat
  rsvOk : Bool
  deriving DecidableEq, Repr

/-- An image that has passed its own checks. -/
structure Image where
  bundles : List Nat
  entries : List Nat
  templates : List Template
  relocs : List Reloc
  decls : List Decl
  check : Nat
  deriving DecidableEq, Repr

/-- A store template and whether its reserved bits are zero (R269). -/
def templateOf (b : List Byte) : Template × Bool :=
  let ctrl := leAt b 1 1
  ({ fmt := leAt b 0 1, srcVec := bitOf ctrl 0, accInt := bitOf ctrl 1, sat := bitOf ctrl 2, across := bitOf ctrl 3, xch := leAt b 2 1
     lines := leAt b 4 2, run := leAt b 8 4
     levels := (List.range 5).map (fun i => ⟨leAt b (16 + 8 * i) 2 + 1, 0, sext 48 (leAt b (18 + 8 * i) 6)⟩) },
   decide (leAt b 0 1 < 32) && decide (ctrl < 16) && decide (leAt b 2 1 < 64) && leAt b 3 1 == 0 && leAt b 6 2 == 0 && leAt b 12 4 == 0 && leAt b 56 8 == 0)

/-- The checks of R270, with R26, R155, R159, R160 and R213. -/
def Template.ok (t : Template) : Bool :=
  fmtOk t.fmt && t.fmt != 11 && decide (1 ≤ t.lines) && decide (32 ≤ t.run) && decide (t.run ≤ 65536) && t.run % 32 == 0
  && t.levels.all (fun l => l.dst % 32 == 0 && (l.count == 1 || l.dst != 0))
  && t.lines * lineBytes (t.fmt % 16) == t.run * walkCount t.levels
  && (t.xch == 0 || t.lines % 64 == 0) && (!t.across || (t.lines % 32 == 0 && fmtIsMX t.fmt))

/-- n records of sz bytes at an offset. -/
def records (b : List Byte) (off sz n : Nat) : List (List Byte) := (List.range n).map (fun i => (b.drop (off + sz * i)).take sz)

/-- Two sections have no byte in common. -/
def apart (a b : Nat × Nat) : Bool := a.2 == 0 || b.2 == 0 || decide (a.1 + a.2 ≤ b.1) || decide (b.1 + b.2 ≤ a.1)

/-- Every two sections of a list are apart. -/
def allApart : List (Nat × Nat) → Bool
  | [] => true
  | a :: t => t.all (apart a) && allApart t

/-- A relocation record. -/
def relocOf (b : List Byte) : Reloc :=
  { bundle := leAt b 0 4, kind := leAt b 4 1, sel := leAt b 5 1, handle := leAt b 8 4, addend := sext 32 (leAt b 12 4), rsvOk := leAt b 6 2 == 0 }

/-- A table declaration. -/
def declOf (b : List Byte) : Decl :=
  { kind := leAt b 0 1, ut := leAt b 1 1, handle := leAt b 4 4, act := leAt b 8 4, rsvOk := leAt b 2 2 == 0 && leAt b 12 4 == 0 }

/-- A MOP or STEP names a declared table of the right kind (R271). -/
def tablesNamed (decls : List Decl) (b : Nat) : Bool :=
  let kindOf := fun (ut : Nat) => (decls.find? (fun d => d.ut == ut)).map (fun d => d.kind)
  let m := slotMatrix b
  let y := slotSync b
  (m == 0 || kindOf (bits m 34 31) == some (if bits m 5 4 = 2 then 1 else 0))
  && (y % 32 != 8 || !bitOf y 5 || kindOf (bits y 9 6) == some 1)

/-- The image of n bytes for a part with G cores (R267 to R271, R236, R251 to R253). -/
def imageOf (b : List Byte) (g : Nat) : Except Refused Image := do
  let n := b.length
  let f := leAt b
  need (decide (64 ≤ n) && f 0 4 == 0x50395653 && f 4 2 == 1 && f 44 4 == n) 0x10 noItem
  let nb := f 8 4
  let ne := f 12 2
  let nt := f 14 2
  let nr := f 16 4
  let nd := f 20 2
  need (decide (1 ≤ nb) && decide (nb ≤ 16384) && decide (1 ≤ ne) && decide (ne ≤ 256) && decide (nt ≤ 64) && decide (nd ≤ 16)) 0x10 noItem
  need (f 24 4 % 32 == 0 && f 28 4 % 8 == 0 && f 32 4 % 64 == 0 && f 36 4 % 16 == 0 && f 40 4 % 16 == 0) 0x10 noItem
  let secs := [(0, 64), (f 24 4, 32 * nb), (f 28 4, 8 * ne), (f 32 4, 64 * nt), (f 36 4, 16 * nr), (f 40 4, 16 * nd)]
  need (secs.all (fun s => s.2 == 0 || decide (s.1 + s.2 ≤ n)) && allApart secs) 0x10 noItem
  need (f 6 2 == 0 && f 52 12 == 0 && decide (f 22 2 ≤ g)) 0x10 noItem
  need (crc32c (b.take 48 ++ [0, 0, 0, 0] ++ b.drop 52) == f 48 4) 0x10 noItem
  let ents := records b (f 28 4) 8 ne
  need (ents.all (fun e => decide (leAt e 0 4 < nb) && leAt e 4 4 == 0)) 0x10 noItem
  let tmpl := (records b (f 32 4) 64 nt).map templateOf
  needAll tmpl.zipIdx (fun t => need (t.1.2 && t.1.1.ok) 0x10 t.2)
  let decls := (records b (f 40 4) 16 nd).map declOf
  needAll decls.zipIdx (fun d => need (d.1.rsvOk && decide (d.1.kind ≤ 1) && decide (d.1.ut ≤ 15)
    && !(decls.take d.2).any (fun e => e.ut == d.1.ut)) 0x10 d.2)
  let rel := (records b (f 36 4) 16 nr).map relocOf
  needAll rel.zipIdx (fun r => need r.1.rsvOk 0x10 r.2)
  let bs := (records b (f 24 4) 32 nb).map leNat
  let ts := tmpl.map Prod.fst
  let loops := loopsOf bs
  needAll bs.zipIdx (fun x => need (bundleOk ts x.1 && tablesNamed decls x.1 && flowOk bs loops x.2) 0x10 x.2)
  return { bundles := bs, entries := ents.map (fun e => leAt e 0 4), templates := ts, relocs := rel, decls := decls, check := f 48 4 }

end Sys2Proof.Machine
end

