-- ==== Sys2Proof/Machine/Place.lean ====
section
/-! DEFINITION. Tensor descriptors, local shapes, the placement procedure, table geometry, relocation values (05 R146 to R151,
11 R332 to R349, R670, R674, 08 R272, R273, R671). -/

namespace Sys2Proof.Machine

/-! ### Tensor descriptors (R146, R147, R334) -/

/-- The descriptor in 128 bytes. -/
def tensorOf (b : List Byte) : TensorDesc :=
  let f := leAt b
  let sh := (List.range 8).map (fun i => f (48 + 2 * i) 2)
  { handle := f 0 4, fmt := f 4 1, layout := f 5 1, ndim := f 6 1, scaleAxis := f 7 1, lifetime := f 8 1, hint := f 9 1, pin := f 10 1
    weight := bitOf (f 11 1) 0, dims := ((List.range 8).map (fun i => f (16 + 4 * i) 4)).take (f 6 1)
    shard := (sh.map (fun w => (w / 4096, w / 256 % 16))).take (f 6 1), pinAddr := f 64 8
    rsvOk := decide (f 11 1 < 2) && decide (f 4 1 < 32) && f 12 4 == 0 && leNat (b.drop 72) == 0
      && sh.all (fun w => w % 256 == 0) && (sh.drop (f 6 1)).all (· == 0)
      && ((List.range 8).drop (f 6 1)).all (fun i => f (16 + 4 * i) 4 == 0) }

/-- A twin weight (R109, R148). -/
def TensorDesc.twin (t : TensorDesc) : Bool := fmtIsMX t.fmt && t.weight

/-- No entry twice. -/
def allDiff : List Nat → Bool
  | [] => true
  | a :: t => !t.contains a && allDiff t

/-- R147: the descriptor is accepted. -/
def TensorDesc.shapeOk (t : TensorDesc) : Bool :=
  let mx := fmtIsMX t.fmt
  t.rsvOk && decide (1 ≤ t.ndim) && decide (t.ndim ≤ 8) && t.dims.all (· != 0)
  && decide (t.layout ≤ 1) && !(t.layout == 1 && t.ndim == 1) && fmtOk t.fmt && t.fmt % 16 != 0xB
  && (if mx && t.weight then t.scaleAxis == 0xFF && t.ndim != 1
      else if mx then decide (t.scaleAxis < t.ndim) && (t.layout == 0 || decide (t.ndim ≤ t.scaleAxis + 2))
      else t.scaleAxis == 0xFF)
  && t.shard.all (fun x => decide (x.1 ≤ 3) && (if x.1 % 2 = 1 then decide (x.2 ≤ 3) else x.2 == 0))
  && decide ((t.shard.filter (fun x => decide (2 ≤ x.1))).length ≤ 1)
  && allDiff ((t.shard.filter (fun x => x.1 % 2 == 1)).map Prod.snd)

/-- R334: lifetime, hint and pin codes are not reserved. -/
def TensorDesc.codesOk (t : TensorDesc) : Bool :=
  (t.lifetime == 0 || decide (0x80 ≤ t.lifetime)) && decide (t.hint ≤ 3)
  && (match t.pin with
    | 0 => t.pinAddr == 0
    | 1 => decide (t.pinAddr ≤ 2)
    | 2 => true
    | 3 => decide (t.pinAddr ≤ 7)
    | _ => false)

/-! ### Local shapes (R149 to R151, R337) -/

/-- Part count of dimension i (R150); axes: MEMBERS and COORD of the shard group table. -/
def TensorDesc.parts (t : TensorDesc) (axes : List (Nat × Nat)) (g i : Nat) : Nat :=
  match t.shard.getD i (0, 0) with
  | (1, a) => (axes.getD a (1, 0)).1
  | (2, _) => g
  | (3, a) => (axes.getD a (1, 0)).1 * g
  | _ => 1

/-- The granule of dimension i (R149). -/
def TensorDesc.granule (t : TensorDesc) (i : Nat) : Nat :=
  if i + 1 = t.ndim ∨ (t.layout = 1 ∧ i + 2 = t.ndim) then 64
  else if fmtIsMX t.fmt ∧ (if t.weight then i + 2 = t.ndim else i = t.scaleAxis) then 32
  else 1

/-- Local extents; a dimension that is not split keeps its global size (R149; log 21). -/
def TensorDesc.localDims (t : TensorDesc) (axes : List (Nat × Nat)) (g : Nat) : List Nat :=
  t.dims.zipIdx.map (fun (d, i) =>
    if (t.shard.getD i (0, 0)).1 = 0 then d
    else
      let gr := t.granule i
      gr * ceilDiv d (gr * t.parts axes g i))

/-- n rounded up to a multiple of m. -/
def roundUp (n m : Nat) : Nat := ceilDiv n m * m

/-- The four sub-ranges of an allocation as offset and length: K copy, N copy, K plane, N plane; length 0 for one that the
    tensor does not have (R337). -/
def TensorDesc.subRanges (t : TensorDesc) (dims : List Nat) : List (Nat × Nat) :=
  let c := copyBytes t.layout t.fmt dims
  let n := if t.twin then c else 0
  let mx := fmtIsMX t.fmt
  let kp := if mx then scaleBytes t.layout dims (if t.weight then t.ndim - 2 else t.scaleAxis) else 0
  let np := if t.twin then scaleBytes t.layout dims (t.ndim - 1) else 0
  let o1 := roundUp c 128
  let o2 := roundUp (o1 + n) 128
  let o3 := roundUp (o2 + kp) 128
  [(0, c), (o1, n), (o2, kp), (o3, np)]

/-- Bytes of the whole allocation (R337, R351). -/
def TensorDesc.size (t : TensorDesc) (dims : List Nat) : Nat :=
  (t.subRanges dims).foldl (fun m r => if r.2 = 0 then m else r.1 + r.2) 0

/-! ### The placement procedure (R335, R338, R674) -/

/-- A tensor with its local extents and bytes. -/
structure Part where
  desc : TensorDesc
  dims : List Nat
  bytes : Nat
  deriving DecidableEq, Repr

/-- A claimed range: tier and first address; in scratchpad, local offset. -/
structure Claim where
  part : Part
  tier : Nat
  start : Nat
  deriving DecidableEq, Repr

/-- Two tensors conflict (R334, R335). -/
def TensorDesc.conflicts (a b : TensorDesc) : Bool :=
  a.lifetime == 0 || b.lifetime == 0 || decide (a.lifetime ≤ b.lifetime + 1 ∧ b.lifetime ≤ a.lifetime + 1)

/-- What the procedure places into: table banks, Bulk tank capacity, reserved ranges (R338). -/
structure Room where
  tb : Nat
  cap : Nat
  rsv : List (Nat × Nat)
  deriving DecidableEq, Repr

/-- First and last-plus-one address of a tier. -/
def Room.span (r : Room) : Nat → Nat × Nat
  | 0 => (0, (32 - r.tb) * 0x100000)
  | 1 => (0, 0x0C000000000)
  | _ => (0x10000000000, 0x10000000000 + r.cap)

/-- Alignment of a placement (R338, R674). -/
def alignOf (tier bytes : Nat) : Nat := if tier ≠ 0 then 4096 else if 0x100000 ≤ bytes then 0x100000 else 128

/-- Two ranges share a byte. -/
def overlap (a b : Nat × Nat) : Bool := decide (a.1 < b.2 ∧ b.1 < a.2)

/-- The ranges of a tier that a tensor may not enter: those of conflicting claims, reserved ranges. -/
def Room.obstacles (r : Room) (cl : List Claim) (t : Part) (tier : Nat) : List (Nat × Nat) :=
  (cl.filter (fun c => c.tier == tier && c.part.desc.conflicts t.desc)).map (fun c => (c.start, c.start + c.part.bytes))
  ++ (if tier = 0 then [] else r.rsv)

/-- The tensor may stand at a, within lo to hi: alignment, one bank where it must, clear of obstacles. -/
def fitsAt (t : Part) (tier lo hi : Nat) (obs : List (Nat × Nat)) (a : Nat) : Bool :=
  decide (lo ≤ a) && decide (a + t.bytes ≤ hi) && a % alignOf tier t.bytes == 0
  && (tier != 0 || decide (0x100000 ≤ t.bytes) || a / 0x100000 == (a + t.bytes - 1) / 0x100000)
  && obs.all (fun o => !overlap (a, a + t.bytes) o)

/-- The smallest of a list. -/
def minOf : List Nat → Option Nat
  | [] => none
  | a :: t => match minOf t with
    | some b => some (min a b)
    | none => some a

/-- The lowest fit within lo to hi: it stands at lo, after an obstacle, or at the start of a bank, rounded up. -/
def lowestIn (t : Part) (tier lo hi : Nat) (obs : List (Nat × Nat)) : Option Nat :=
  let starts := lo :: obs.map Prod.snd ++ (if tier = 0 then (List.range 32).map (· * 0x100000) else [])
  minOf ((starts.map (fun a => roundUp a (alignOf tier t.bytes))).filter (fitsAt t tier lo hi obs))

/-- Bytes claimed in stack k (R674). -/
def charge (cl : List Claim) (k : Nat) : Nat :=
  cl.foldl (fun m c => if c.tier = 1 then
    m + (min (c.start + c.part.bytes) ((k + 1) * 0x1800000000) - max c.start (k * 0x1800000000)) else m) 0

/-- Insertion into an ordered list. -/
def insertBy {α : Type} (le : α → α → Bool) (x : α) : List α → List α
  | [] => [x]
  | y :: t => if le x y then x :: y :: t else y :: insertBy le x t

/-- A list in order; equal entries keep theirs. -/
def sortBy {α : Type} (le : α → α → Bool) (l : List α) : List α := l.foldr (insertBy le) []

/-- lowest_fit of R338 in a tier. -/
def Room.lowestFit (r : Room) (cl : List Claim) (t : Part) (tier : Nat) : Option Nat :=
  let sp := r.span tier
  let obs := r.obstacles cl t tier
  let inStack := fun (k : Nat) => lowestIn t 1 (k * 0x1800000000) ((k + 1) * 0x1800000000) obs
  if tier ≠ 1 then lowestIn t tier sp.1 sp.2 obs
  else if t.desc.pin = 3 then inStack t.desc.pinAddr
  else
    match (sortBy (fun a b => decide (charge cl a ≤ charge cl b)) (List.range 8)).findSome? inStack with
    | some a => some a
    | none => lowestIn t 1 sp.1 sp.2 obs

/-- The tier order of a tensor: its hint's, reduced by a pin to one tier (R334; log 22). -/
def TensorDesc.tiers (t : TensorDesc) : List Nat :=
  if t.pin = 1 then [t.pinAddr] else if t.pin = 3 then [1]
  else match t.hint with
    | 2 => [1, 2]
    | 3 => [2, 1]
    | _ => [0, 1, 2]

/-- The class of a hint (R334). -/
def TensorDesc.hintClass (t : TensorDesc) : Nat :=
  match t.hint with
  | 0 => 1 | 1 => 0 | 2 => 3 | _ => 2

/-- A tensor pinned to an address claims it, or is refused (R338, R674). -/
def Room.pinAt (r : Room) (cl : List Claim) (t : Part) : Except Refused Claim := do
  let a := t.desc.pinAddr
  let at_ : Option (Nat × Nat) :=
    if inSelf a then some (0, a - 0x203FC000000) else if a < 0x0C000000000 then some (1, a)
    else if 0x10000000000 ≤ a ∧ a < 0x20000000000 then some (2, a) else none
  match at_ with
  | none => .error (0x15, t.desc.handle)
  | some (tier, x) =>
    let sp := r.span tier
    need (fitsAt t tier sp.1 sp.2 (r.obstacles cl t tier) x) 0x15 t.desc.handle
    return ⟨t, tier, x⟩

/-- A tensor placed by the procedure, or refused (R338). -/
def Room.place (r : Room) (cl : List Claim) (t : Part) : Except Refused Claim :=
  match t.desc.tiers.findSome? (fun tier => (r.lowestFit cl t tier).map (fun a => (tier, a))) with
  | some (tier, a) => .ok ⟨t, tier, a⟩
  | none => .error (0x14, t.desc.handle)

/-- Claims made one after another. -/
def claimAll (f : List Claim → Part → Except Refused Claim) (cl : List Claim) (ts : List Part) : Except Refused (List Claim) :=
  ts.foldl (fun r t => match r with
    | .ok l => (f l t).map (fun c => l ++ [c])
    | .error e => .error e) (.ok cl)

/-- cellar_place: pinned tensors by handle, then the rest by class, size and handle (R338). -/
def Room.placeAll (r : Room) (ts : List Part) : Except Refused (List Claim) := do
  let byHandle := sortBy (fun a b : Part => decide (a.desc.handle ≤ b.desc.handle)) ts
  let cl ← claimAll r.pinAt [] (byHandle.filter (fun t => t.desc.pin == 2))
  let le := fun (a b : Part) =>
    if a.desc.hintClass ≠ b.desc.hintClass then decide (a.desc.hintClass < b.desc.hintClass) else decide (b.bytes ≤ a.bytes)
  claimAll r.place cl (sortBy le (byHandle.filter (fun t => t.desc.pin != 2)))

/-- Device address of an offset in a claim; a scratchpad part in the self window (R351). -/
def Claim.addr (c : Claim) : Nat := if c.tier = 0 then 0x203FC000000 + c.start else c.start

/-- A claim as a placed tensor (R337, R351). -/
def Claim.placed (c : Claim) : Placed :=
  let r := c.part.desc.subRanges c.part.dims
  let at_ := fun (i : Nat) => let x := r.getD i (0, 0); if x.2 = 0 then 0 else c.addr + x.1
  { desc := c.part.desc, tier := c.tier, addr := c.addr, nAddr := at_ 1, scaleAddr := at_ 2, nScaleAddr := at_ 3
    bytes := c.part.bytes, local_ := c.part.dims }

/-! ### Table plans and geometry (R341, R344, R345, R670) -/

/-- A table plan of 32 bytes (R345). -/
def planOf (b : List Byte) : TablePlan :=
  let f := leAt b
  { ut := f 0 1, opKeep := bitOf (f 1 1) 0, add := bitOf (f 1 1) 1, doneSem := f 2 2, wOff := f 4 2, wMul := f 6 2, wMod := f 8 2
    tOff := f 10 2, tMul := f 12 2, tMod := f 14 2, blockMask := f 16 8, rowMaskInit := f 24 8, rsvOk := decide (f 1 1 < 4) }

/-- The fields of a plan are in range for its table (R345). -/
def TablePlan.ok (p : TablePlan) (op : Bool) : Bool :=
  p.rsvOk && decide (p.wMul ≤ 2047) && p.wMod != 0
  && (if op then bits p.doneSem 14 10 == 0 && p.tOff == 0 && p.tMul == 0 && p.tMod == 0 && decide (p.blockMask < 2 ^ 52) && decide (p.rowMaskInit < 2 ^ 52)
      else !p.opKeep && !p.add && p.doneSem == 0 && decide (p.tMul ≤ 2047) && p.tMod != 0 && p.blockMask == 0 && p.rowMaskInit == 0)

/-- Padded local K′ and N′ in tiles, and the leading dimensions' product (R139, R344). -/
def tileGrid (dims : List Nat) : Nat × Nat × Nat :=
  let n := dims.length
  (ceilDiv (dims.getD (n - 2) 1) 64, ceilDiv (dims.getD (n - 1) 1) 64, prod (dims.take (n - 2)))

/-- MOPs of an image that name a table: mode, AS, BS. -/
def Image.mops (i : Image) (ut : Nat) : List (Nat × Nat × Nat) :=
  (i.bundles.map slotMatrix).filterMap (fun m =>
    if m ≠ 0 ∧ bits m 34 31 = ut then some (bits m 5 4, bits m 26 23, bits m 30 27) else none)

/-- A table of the image on its tensors, without its place in the table area (R271, R344, R670, R110, R123). A dW tensor of E8M0 or SSI32
is refused: the conversions of R123 name no such target, and R668 gives E8M0 to store templates alone (log 63). -/
def Image.tableOf (i : Image) (ts : List Part) (plans : List TablePlan) (d : Decl) : Except Refused Table := do
  let part := fun (h : Nat) => ts.find? (fun t => t.desc.handle == h)
  match plans.find? (fun p => p.ut == d.ut), part d.handle, part d.act with
  | some p, some w, some _ =>
    need (p.ok (d.kind == 1)) 0x16 d.ut
    let (kt, nt, lead) := tileGrid w.dims
    let base : Table := { ut := d.ut, op := d.kind == 1, handle := d.handle, act := d.act, plan := p, base := 0, base2 := 0, count := 0 }
    if d.kind = 1 then
      need (w.desc.layout == 1 && !fmtIsMX w.desc.fmt && w.desc.fmt != 10 && w.desc.fmt != 11 && (!p.add || w.desc.fmt == 0)) 0x12 noItem
      return { base with count := lead * kt * nt, kUnits := kt, nBlocks := nt }
    else
      match tilesPerUnit w.desc.fmt with
      | none => .error (0x16, d.ut)
      | some m =>
        need (w.desc.layout == 1 && w.desc.weight && kt % m == 0) 0x16 d.ut
        let modes := (i.mops d.ut).map Prod.fst
        need (!w.desc.twin || !(modes.contains 0 && modes.contains 1)) 0x12 noItem
        return { base with
          count := lead * (kt / m) * nt, m := m, kUnits := kt / m, nBlocks := nt
          nCopy := w.desc.twin && !modes.isEmpty && modes.all (· == 1) }
  | _, _, _ => .error (0x16, d.ut)

/-- Every table, in ascending UT; the plans are one for each (R345). -/
def Image.tablesOf (i : Image) (ts : List Part) (plans : List TablePlan) : Except Refused (List Table) := do
  needAll plans.zipIdx (fun p => need (i.decls.any (fun d => d.ut == p.1.ut) && !(plans.take p.2).any (fun q => q.ut == p.1.ut)) 0x16 p.1.ut)
  (sortBy (fun a b : Decl => decide (a.ut ≤ b.ut)) i.decls).foldl (fun r d => match r with
    | .ok l => (i.tableOf ts plans d).map (fun t => l ++ [t])
    | .error e => .error e) (.ok [])

/-- Formats that a stream register may hold (R671). -/
def Image.streamFmts (i : Image) (r : Nat) : List Nat :=
  match (i.bundles.map slotMove).filterMap (fun m => if m % 32 = 5 ∧ bits m 8 5 = r then some (bits m 28 24) else none) with
  | [] => [0]
  | l => l

/-- The blocked axis of a block-scaled tensor that is not a weight. DESIGN CHOICE: a block-scaled weight has a copy along each axis, so
    as an activation it is not refused (log 64). -/
def blockedAxis (t : TensorDesc) : Option Nat := if fmtIsMX t.fmt && !t.weight then some t.scaleAxis else none

/-- A block-scaled dY stream of a format may be blocked along the batch rows: some tensor of the format is blocked along another
    dimension than its last, or is a weight with both copies, or there is none of the format (R117, log 23). -/
def dyOk (ts : List Part) (fmt : Nat) : Bool :=
  let l := (ts.filter (fun t => t.desc.fmt == fmt)).map (fun t => t.desc)
  !fmtIsMX fmt || l.isEmpty || l.any (fun d => match blockedAxis d with
    | some x => x + 1 != d.ndim
    | none => true)

/-- Operand pairs and blocked axes of every MOP (R46, R105, R117, R671; log 23). DESIGN CHOICE: every dimension of X but its last counts
    as its batch rows (log 64). -/
def Image.operandsOk (i : Image) (ts : List Part) (tabs : List Table) : Bool :=
  tabs.all (fun t =>
    let act := (ts.find? (fun x => x.desc.handle == t.act)).map (fun x => x.desc)
    let w := ((ts.find? (fun x => x.desc.handle == t.handle)).map (fun x => x.desc.fmt)).getD 0
    (i.mops t.ut).all (fun m =>
      let as := i.streamFmts m.2.1
      let pairs := if m.1 = 2 then as.flatMap (fun a => (i.streamFmts m.2.2).map (fun b => (a, b))) else as.map (fun a => (w, a))
      pairs.all (fun p => (pairKind p.1 p.2).isSome) && (m.1 != 2 || (i.streamFmts m.2.2).all (dyOk ts))
      && (match act with
        | some d => (match blockedAxis d with
          | some x => if m.1 = 2 then x + 1 != d.ndim else x + 1 == d.ndim
          | none => true)
        | none => true)))

/-- R131: no dW tensor has OP tables of two X tensors. -/
def tiedOk (tabs : List Table) : Bool :=
  tabs.all (fun a => tabs.all (fun b => !(a.op && b.op && a.handle == b.handle) || a.act == b.act))

/-! ### Relocations (R272, R273) -/

/-- The value of a relocation, if its KIND, SEL and handle are valid. -/
def relocValue (axes : List (Nat × Nat)) (g : Nat) (ts : List Placed) (r : Reloc) : Option Int :=
  let t := ts.find? (fun t => t.desc.handle == r.handle)
  let sub := fun (p : Placed) =>
    let i := r.sel % 2 + 2 * (r.sel / 128)
    let x := (p.desc.subRanges p.local_).getD i (0, 0)
    if r.sel % 128 ≤ 1 ∧ x.2 ≠ 0 then some x else none
  match r.kind with
  | 0 => t.bind (fun p => (sub p).map (fun x => (((p.addr + x.1 : Nat) : Int) + r.addend) % 2 ^ 32))
  | 1 => t.bind (fun p => (sub p).map (fun x => (((p.addr + x.1 : Nat) : Int) + r.addend) / 2 ^ 32 % 2 ^ 32))
  | 2 => t.bind (fun p => if p.tier = 0 then (sub p).map (fun x => (((p.addr - 0x203FC000000 + x.1 : Nat) : Int) + r.addend)) else none)
  | 3 => t.bind (fun p => if r.sel < p.desc.ndim then some ((p.local_.getD r.sel 0 : Nat) + r.addend) else none)
  | 4 => t.bind (fun p => (sub p).map (fun x => (x.2 : Nat) + r.addend))
  | 5 => if r.handle = 0 ∧ r.sel = 0 then some ((g : Int) * r.addend) else none
  | 6 => t.bind (fun p => if r.sel < p.desc.ndim then some ((p.desc.parts axes g r.sel : Nat) + r.addend) else none)
  | _ => none

/-- A relocation applied to the bundles, or refused. -/
def applyReloc (axes : List (Nat × Nat)) (g : Nat) (ts : List Placed) (bs : List Nat) (r : Reloc) (i : Nat) : Except Refused (List Nat) := do
  let b := bs.getD r.bundle 0
  need (decide (r.bundle < bs.length) && [0x10, 0x11, 0x15, 0x1F].contains (slotScalar b % 64)) 0x10 i
  match relocValue axes g ts r with
  | none => .error (0x10, i)
  | some v =>
    need (decide (r.kind < 2) || (decide (-(2 ^ 31) ≤ v) && decide (v < 2 ^ 31))) 0x10 i
    return bs.set r.bundle (b - bits b 175 144 * 2 ^ 144 + (v % 2 ^ 32).toNat * 2 ^ 144)

/-- Every relocation, in record order. -/
def Image.relocate (i : Image) (axes : List (Nat × Nat)) (g : Nat) (ts : List Placed) : Except Refused (List Nat) :=
  i.relocs.zipIdx.foldl (fun r x => match r with
    | .ok bs => applyReloc axes g ts bs x.1 x.2
    | .error e => .error e) (.ok i.bundles)

/-! ### The table area (R341 to R349) -/

/-- Section sizes of a table; unskipped: the tiles of an OP table that are not skipped (R341). -/
def Table.sections (t : Table) : Nat × Nat := if t.op then (32 * t.count, 4 * t.tiles) else (16 * t.count, 16 * ceilDiv t.count 4)

/-- Tables laid out from offset 0 of the table area, and its bytes (R341). -/
def layTables (ts : List Table) : List Table × Nat :=
  ts.foldl (fun r t =>
    let b2 := roundUp (r.2 + t.sections.1) 128
    (r.1 ++ [{ t with base := r.2, base2 := b2 }], roundUp (b2 + t.sections.2) 128)) ([], 0)

/-- ACC field of R346 and R348: an offset, a multiplier, a modulus. -/
def accField (off mul md i : Nat) : Nat := (off + mul * (i % md)) % 2048

/-- Leading index, a and b of unit n (R344). -/
def Table.unitIdx (t : Table) (n : Nat) : Nat × Nat × Nat :=
  (n / (t.kUnits * t.nBlocks), n / t.nBlocks % t.kUnits, n % t.nBlocks)

/-- The step in which unit n reaches ring position p (R347, R90). -/
def Fuse.arrival (f : Fuse) (p n : Nat) : Nat := n + (p + f.g - f.injPos ((4 - n % 4) % 4)) % f.g

/-- Unit n is the first of its block to reach position p; ws: the block of equal b, else of equal a (R347). -/
def Table.firstUnit (t : Table) (f : Fuse) (p : Nat) (ws : Bool) (n : Nat) : Bool :=
  let (l, a, b) := t.unitIdx n
  let block := if ws then (List.range t.kUnits).map (fun i => (l * t.kUnits + i) * t.nBlocks + b)
    else (List.range t.nBlocks).map (fun j => (l * t.kUnits + a) * t.nBlocks + j)
  block.all (fun u => u == n || decide (f.arrival p n < f.arrival p u))

/-- Entry n of a unit table at ring position p; lb: line bytes of the activation tensor (R346, R347). -/
def Table.unitEntry (t : Table) (f : Fuse) (p lb n : Nat) : List Byte :=
  let (_, a, b) := t.unitIdx n
  leBytes 4 (a * t.m * lb % 2 ^ 25) ++ leBytes 4 (b * lb % 2 ^ 25)
  ++ leBytes 2 (accField t.plan.wOff t.plan.wMul t.plan.wMod b + if t.firstUnit f p true n then 2 ^ 15 else 0)
  ++ leBytes 2 (accField t.plan.tOff t.plan.tMul t.plan.tMod a + if t.firstUnit f p false n then 2 ^ 15 else 0)
  ++ leBytes 4 0

/-- Injection entry j of quarter q: the addresses of its unit's first tile and that tile's scale bytes (R344). -/
def Table.injEntry (t : Table) (w : Placed) (q j : Nat) : List Byte :=
  let n := 4 * j + (4 - q) % 4
  if t.count ≤ n then leBytes 16 0
  else
    let (l, a, b) := t.unitIdx n
    let tile := (l * (t.kUnits * t.m) + a * t.m) * t.nBlocks + b
    let data := (if t.nCopy then w.nAddr else w.addr) + tile * 64 * lineBytes (w.desc.fmt % 16)
    let scale := if fmtIsMX w.desc.fmt then (if t.nCopy then w.nScaleAddr else w.scaleAddr) + 128 * tile else 0
    leBytes 8 data ++ leBytes 8 scale

/-- Tile entry u of an OP table, with its initial row mask and SKIP (R348, R349). -/
def Table.tileEntry (t : Table) (w : Placed) (mask : Nat) (skip : Bool) (u : Nat) : List Byte :=
  leBytes 8 (w.addr + u * 64 * lineBytes (w.desc.fmt % 16) + if t.plan.add then 2 ^ 63 else 0) ++ leBytes 8 mask
  ++ leBytes 2 (accField t.plan.wOff t.plan.wMul t.plan.wMod (u / 4) + u % 4 * 2 ^ 12 + (if skip then 2 ^ 14 else 0)
      + if t.plan.opKeep then 0 else 2 ^ 15)
  ++ leBytes 14 0

/-- The placement report (R351). -/
def reportBytes (ts : List Placed) (tabs : List Table) (tb moved : Nat) : List Byte :=
  let top := ts.foldl (fun m t => if t.tier = 0 then max m (t.addr - 0x203FC000000 + t.bytes) else m) 0
  let base := fun (u : Nat) => ((tabs.find? (fun t => t.ut == u)).map (fun t => t.base)).getD 0xFFFFFFFF
  leBytes 4 ts.length ++ leBytes 4 tb ++ leBytes 8 top ++ (List.range 16).flatMap (fun u => leBytes 4 (base u)) ++ leBytes 8 moved ++ leBytes 40 0
  ++ (sortBy (fun a b : Placed => decide (a.desc.handle ≤ b.desc.handle)) ts).flatMap (fun t =>
    leBytes 4 t.desc.handle ++ leBytes 1 t.tier ++ leBytes 1 ((if t.desc.pin = 2 then 1 else 0) + if t.moved then 2 else 0) ++ leBytes 2 0
    ++ leBytes 8 t.addr ++ leBytes 8 t.nAddr ++ leBytes 8 t.scaleAddr ++ leBytes 8 t.nScaleAddr ++ leBytes 8 t.bytes)

end Sys2Proof.Machine
end

