-- ==== Sys2Proof/Machine/Sha.lean ====
section
/-! DEFINITION. SHA-256 and RSASSA-PKCS1-v1_5 verification, as the standards that R632 names define them. -/

namespace Sys2Proof.Machine

/-- The round constants. -/
def shaK : List W32 :=
    [0x428A2F98, 0x71374491, 0xB5C0FBCF, 0xE9B5DBA5, 0x3956C25B, 0x59F111F1, 0x923F82A4, 0xAB1C5ED5] ++
    [0xD807AA98, 0x12835B01, 0x243185BE, 0x550C7DC3, 0x72BE5D74, 0x80DEB1FE, 0x9BDC06A7, 0xC19BF174] ++
    [0xE49B69C1, 0xEFBE4786, 0x0FC19DC6, 0x240CA1CC, 0x2DE92C6F, 0x4A7484AA, 0x5CB0A9DC, 0x76F988DA] ++
    [0x983E5152, 0xA831C66D, 0xB00327C8, 0xBF597FC7, 0xC6E00BF3, 0xD5A79147, 0x06CA6351, 0x14292967] ++
    [0x27B70A85, 0x2E1B2138, 0x4D2C6DFC, 0x53380D13, 0x650A7354, 0x766A0ABB, 0x81C2C92E, 0x92722C85] ++
    [0xA2BFE8A1, 0xA81A664B, 0xC24B8B70, 0xC76C51A3, 0xD192E819, 0xD6990624, 0xF40E3585, 0x106AA070] ++
    [0x19A4C116, 0x1E376C08, 0x2748774C, 0x34B0BCB5, 0x391C0CB3, 0x4ED8AA4A, 0x5B9CCA4F, 0x682E6FF3] ++
    [0x748F82EE, 0x78A5636F, 0x84C87814, 0x8CC70208, 0x90BEFFFA, 0xA4506CEB, 0xBEF9A3F7, 0xC67178F2]

/-- The initial hash value. -/
def shaInit : List W32 := [0x6A09E667, 0xBB67AE85, 0x3C6EF372, 0xA54FF53A, 0x510E527F, 0x9B05688C, 0x1F83D9AB, 0x5BE0CD19]

/-- Rotation to the right. -/
def rotr (n : Nat) (x : W32) : W32 := x.rotateRight n

/-- The message schedule: from 16 words, n more. -/
def shaSchedule : Nat → List W32 → List W32
  | 0, w => w
  | n + 1, w =>
    let l := w.length
    let a := w.getD (l - 15) 0
    let b := w.getD (l - 2) 0
    let s0 := rotr 7 a ^^^ rotr 18 a ^^^ (a >>> 3)
    let s1 := rotr 17 b ^^^ rotr 19 b ^^^ (b >>> 10)
    shaSchedule n (w ++ [w.getD (l - 16) 0 + s0 + w.getD (l - 7) 0 + s1])

/-- One round on the eight working words. -/
def shaRound (v : List W32) (k w : W32) : List W32 :=
  match v with
  | [a, b, c, d, e, f, g, h] =>
    let s1 := rotr 6 e ^^^ rotr 11 e ^^^ rotr 25 e
    let ch := (e &&& f) ^^^ (~~~e &&& g)
    let t1 := h + s1 + ch + k + w
    let s0 := rotr 2 a ^^^ rotr 13 a ^^^ rotr 22 a
    let maj := (a &&& b) ^^^ (a &&& c) ^^^ (b &&& c)
    [t1 + (s0 + maj), a, b, c, d + t1, e, f, g]
  | _ => v

/-- A big-endian number of bytes. -/
def beNat (bs : List Byte) : Nat := bs.foldl (fun n b => n * 256 + b.toNat) 0

/-- One 64-byte block absorbed. -/
def shaBlock (h : List W32) (b : List Byte) : List W32 :=
  let w := shaSchedule 48 ((List.range 16).map (fun i => BitVec.ofNat 32 (beNat ((b.drop (4 * i)).take 4))))
  let v := (shaK.zip w).foldl (fun v kw => shaRound v kw.1 kw.2) h
  h.zipWith (· + ·) v

/-- n blocks of a padded message absorbed. -/
def shaBlocks : Nat → List W32 → List Byte → List W32
  | 0, h, _ => h
  | n + 1, h, bs => shaBlocks n (shaBlock h (bs.take 64)) (bs.drop 64)

/-- The padded message. -/
def shaPad (bs : List Byte) : List Byte :=
  let z := (119 - bs.length % 64) % 64
  bs ++ [0x80] ++ List.replicate z 0 ++ (leBytes 8 (8 * bs.length)).reverse

/-- The SHA-256 digest, 32 bytes, byte j of the digest at index j (R632). -/
def sha256 (bs : List Byte) : List Byte :=
  (shaBlocks ((bs.length + 72) / 64) shaInit (shaPad bs)).flatMap (fun w => (leBytes 4 w.toNat).reverse)

/-- x to the power 65,537 modulo n, by 16 squarings. -/
def powE (n x : Nat) : Nat := (sq 16 (x % n)) * x % n
where
  /-- k squarings. -/
  sq : Nat → Nat → Nat
    | 0, y => y
    | k + 1, y => sq k (y * y % n)

/-- The encoded message of a SHA-256 digest for a 384-byte modulus. -/
def pkcsEncode (digest : List Byte) : List Byte :=
  [0, 1] ++ List.replicate 330 0xFF ++ [0] ++ [0x30, 0x31, 0x30, 0x0D, 0x06, 0x09, 0x60, 0x86, 0x48, 0x01, 0x65, 0x03, 0x04, 0x02, 0x01, 0x05, 0x00, 0x04, 0x20]
    ++ digest

/-- Verification of a signature over a message; modulus and signature with the least significant byte first (R632). -/
def rsaVerify (modulus sig msg : List Byte) : Bool :=
  decide (leNat sig < leNat modulus) && powE (leNat modulus) (leNat sig) == beNat (pkcsEncode (sha256 msg))

end Sys2Proof.Machine
end

