-- ==== Sys2Proof/Machine/Bind.lean ====
section
/-! DEFINITION. Binds, re-placements and the start of a context (11, 18 R563 to R565, 10 R322). -/

namespace Sys2Proof.Machine

/-! ### What a bind reads and computes (R564) -/

/-- A placement with its tables, ready to be put in force. -/
structure Plan2 where
  image : Image
  placed : List Placed
  tabs : List Table
  /-- Tiles of an OP table, by UT: initial row mask and SKIP. -/
  tiles : List (Nat × List (Nat × Bool))
  bundles : List Nat
  tb : Nat
  moved : Nat
  digest : List Byte
  deriving DecidableEq, Repr

/-- The bind descriptor's own fields (R557, R558, R563). -/
def bindFieldsOk (d : Desc) : Bool :=
  zeroAt d 1 3 && fieldAt d 8 8 % 32 == 0 && decide (fieldAt d 8 8 < 2 ^ 52) && decide (1 ≤ fieldAt d 20 4) && decide (fieldAt d 20 4 ≤ 65536)
  && fieldAt d 24 8 % 128 == 0 && decide (fieldAt d 24 8 < 2 ^ 52) && fieldAt d 32 8 % 32 == 0 && decide (fieldAt d 32 8 < 2 ^ 52)
  && decide (fieldAt d 40 2 ≤ 16) && (fieldAt d 40 2 != 0 || fieldAt d 32 8 == 0) && decide (fieldAt d 42 1 < 4) && zeroAt d 43 5
  && fieldAt d 48 8 % 128 == 0 && decide (fieldAt d 48 8 < 2 ^ 52)

/-- Ranges that a command names exist; an empty one does (R214). -/
def State.rangesOk (s : State) (l : List (Nat × Nat)) : Bool := l.all (fun r => r.2 == 0 || s.rangeOkDev false r.1 (r.1 + r.2 - 1))

/-- Structures read: the state after, and whether one arrived poisoned (R673). -/
def State.readAll (s : State) (l : List (Nat × Nat)) : State × Bool :=
  let l := l.filter (fun r => r.2 != 0)
  (l.foldl (fun s r => s.noteRead r.1 r.2) s, l.any (fun r => s.anyBad r.1 r.2))

/-- Every descriptor accepted, handles distinct (R147, R334, R561). -/
def partsOf (axes : List (Nat × Nat)) (g : Nat) (ds : List TensorDesc) : Except Refused (List Part) := do
  needAll ds.zipIdx (fun d => need (d.1.shapeOk && d.1.codesOk && !(ds.take d.2).any (fun e => e.handle == d.1.handle)) 0x11 d.1.handle)
  return ds.map (fun d => let dims := d.localDims axes g; ⟨d, dims, d.size dims⟩)

/-- Reserved ranges in force lie in one tier, in order, aligned (R352). -/
def State.reservedOk (s : State) : Bool :=
  (List.range 8).all (fun n =>
    let r := Sparse.get {} s.rsv n
    !r.en || (decide (r.start < r.stop) && r.start % 4096 == 0 && r.stop % 4096 == 0
      && (decide (r.stop ≤ 0x0C000000000) || (decide (0x10000000000 ≤ r.start) && decide (r.stop ≤ 0x10000000000 + s.bt.cap)))))

/-- The enabled reserved ranges. -/
def State.reservedRanges (s : State) : List (Nat × Nat) :=
  (List.range 8).filterMap (fun n => let r := Sparse.get {} s.rsv n; if r.en then some (r.start, r.stop) else none)

/-- Two descriptors differ at most in LIFETIME, HINT, PIN and PIN_ADDR (R353). -/
def sameShape (a b : TensorDesc) : Bool :=
  { a with lifetime := b.lifetime, hint := b.hint, pin := b.pin, pinAddr := b.pinAddr } == b

/-- A re-placement names the program in force and its descriptors (R353, R565). -/
def replaceOk (old : Option Prog) (i : Image) (ts : List Part) : Bool :=
  match old with
  | some p => p.check == BitVec.ofNat 32 i.check && !p.shardLoaded && p.tensors.length == ts.length
    && ts.all (fun t => p.tensors.any (fun o => sameShape o.desc t.desc))
  | none => false

/-- Image, tensors and the checks of a re-placement at its delivery (R267, R147, R352, R353). -/
def State.planHead (s : State) (d : Desc) : Except Refused (Image × List Part) := do
  let i ← imageOf (s.bytesAt (fieldAt d 8 8) (fieldAt d 16 4)) s.fuse.g
  let ts ← partsOf s.shard s.fuse.g ((records (s.bytesAt (fieldAt d 24 8) (128 * fieldAt d 20 4)) 0 128 (fieldAt d 20 4)).map tensorOf)
  need s.reservedOk 0x18 noItem
  need (!bitOf (fieldAt d 42 1) 1 || replaceOk s.prog i ts) 0x17 noItem
  return (i, ts)

/-- Tables of the image under their plans, and the checks of operands (R345, R670, R671, R131). -/
def State.planTables (s : State) (d : Desc) (i : Image) (ts : List Part) : Except Refused (List Table) := do
  let np := fieldAt d 40 2
  need (np == i.decls.length) 0x16 noItem
  let tabs ← i.tablesOf ts ((records (s.bytesAt (fieldAt d 32 8) (32 * np)) 0 32 np).map planOf)
  need (i.operandsOk ts tabs) 0x12 noItem
  need (tiedOk tabs) 0x13 noItem
  return tabs

/-- The block mask and row masks that a table's plan names (R345). -/
def maskRanges (tabs : List Table) : List (Nat × Nat) :=
  (tabs.filter (fun t => t.op)).flatMap (fun t =>
    (if t.plan.blockMask = 0 then [] else [(t.plan.blockMask, ceilDiv t.count 8)])
    ++ (if t.plan.rowMaskInit = 0 then [] else [(t.plan.rowMaskInit, 8 * t.count)]))

/-- Row mask and SKIP of each tile (R127, R345, R349). -/
def State.tilesOf (s : State) (t : Table) : List (Nat × Bool) :=
  (List.range t.count).map (fun u =>
    let mask := if t.plan.rowMaskInit = 0 then 2 ^ 64 - 1 else leNat (s.bytesAt (t.plan.rowMaskInit + 8 * u) 8)
    let on := t.plan.blockMask == 0 || (s.byteAt (t.plan.blockMask + u / 8)).getLsbD (u % 8)
    (mask, !on || mask == 0))

/-! ### Staging (R355) -/

/-- Tensors that a re-placement moves: step-persistent, with a new range; old and new, by ascending handle. -/
def movesOf (old new : List Placed) : List (Placed × Placed) :=
  (sortBy (fun a b : Placed => decide (a.desc.handle ≤ b.desc.handle)) new).filterMap (fun n =>
    match old.find? (fun o => o.desc.handle == n.desc.handle) with
    | some o => if n.desc.lifetime = 0 ∧ (o.tier ≠ n.tier ∨ o.addr ≠ n.addr) then some (o, n) else none
    | none => none)

/-- First and last-plus-one address of a placed tensor. -/
def Placed.range (p : Placed) : Nat × Nat := (p.addr, p.addr + p.bytes)

/-- A free range of n bytes exists on some tier, clear of the old and new placements. -/
def Room.spare (r : Room) (oldTb : Nat) (used : List Placed) (n : Nat) : Bool :=
  let free := fun (lo hi al : Nat) (obs : List (Nat × Nat)) =>
    (lo :: obs.map Prod.snd).any (fun x =>
      let a := roundUp x al
      decide (lo ≤ a) && decide (a + n ≤ hi) && obs.all (fun o => !overlap (a, a + n) o))
  let obs := used.map Placed.range ++ r.rsv
  free 0x203FC000000 (0x203FC000000 + (32 - max r.tb oldTb) * 0x100000) 128 obs || free 0 0x0C000000000 4096 obs
    || free 0x10000000000 (0x10000000000 + r.cap) 4096 obs

/-- Every move that would write over contents not yet moved finds space to stage through. -/
def Room.stagingOk (r : Room) (oldTb : Nat) (old new : List Placed) : Bool :=
  let l := movesOf old new
  l.zipIdx.all (fun m =>
    !(l.drop m.2).any (fun x => overlap m.1.2.range x.1.range) || r.spare oldTb (old ++ new) m.1.2.bytes)

/-- Bytes that a list of moves writes: a scratchpad tensor on every active core (R351, R355). -/
def movedBytes (g : Nat) (l : List (Placed × Placed)) : Nat := l.foldl (fun m x => m + x.2.bytes * (if x.2.tier = 0 then g else 1)) 0

/-! ### The plan -/

/-- Table area, placement, staging, relocation (R338, R341, R355, R273). -/
def State.planPlace (s : State) (d : Desc) (i : Image) (ts : List Part) (tabs : List Table) : Except Refused Plan2 := do
  let tiles := (tabs.filter (fun t => t.op)).map (fun t => (t.ut, s.tilesOf t))
  let unskipped := fun (t : Table) => (((tiles.find? (fun x => x.1 == t.ut)).map Prod.snd).getD []).countP (fun x => !x.2)
  let (laid, area) := layTables (tabs.map (fun t => { t with tiles := unskipped t }))
  let tb := ceilDiv area 0x100000
  need (decide (tb ≤ 4)) 0x16 noItem
  let room : Room := ⟨tb, s.bt.cap, s.reservedRanges⟩
  let cl ← room.placeAll ts
  let replace := bitOf (fieldAt d 42 1) 1
  let new := sortBy (fun a b : Placed => decide (a.desc.handle ≤ b.desc.handle)) (cl.map Claim.placed)
  let old := match s.prog with
    | some p => if replace then p.tensors else []
    | none => []
  let oldTb := match s.prog with
    | some p => p.tb
    | none => 0
  need (room.stagingOk oldTb old new) 0x17 noItem
  let moves := movesOf old new
  let new := new.map (fun n => { n with moved := moves.any (fun m => m.2.desc.handle == n.desc.handle) })
  let bs ← i.relocate s.shard s.fuse.g new
  let lo := (32 - tb) * 0x100000
  return { image := i, placed := new, tabs := laid.map (fun t => { t with base := lo + t.base, base2 := lo + t.base2 }), tiles := tiles
           bundles := bs, tb := tb, moved := movedBytes s.fuse.g moves
           digest := sha256 (s.bytesAt (fieldAt d 8 8) (fieldAt d 16 4)) }

/-- The structures that a bind names. -/
def bindRanges (d : Desc) : List (Nat × Nat) :=
  [(fieldAt d 8 8, fieldAt d 16 4), (fieldAt d 24 8, 128 * fieldAt d 20 4), (fieldAt d 32 8, 32 * fieldAt d 40 2)]

/-- A bind's reads and the whole computation: nothing is changed but what the reads record (R564, R673). head: only the
    checks that a re-placement makes at its delivery. -/
def State.planBind (s : State) (d : Desc) (head : Bool) : State × Except Refused (Option Plan2) :=
  if !s.rangesOk ((fieldAt d 48 8, 128 + 48 * fieldAt d 20 4) :: bindRanges d) then (s, .error (2, noItem))
  else
    let r := s.readAll (bindRanges d)
    if r.2 then (r.1, .error (5, noItem))
    else match s.planHead d with
      | .error e => (r.1, .error e)
      | .ok (i, ts) =>
        if head then (r.1, .ok none)
        else match s.planTables d i ts with
          | .error e => (r.1, .error e)
          | .ok tabs =>
            if !s.rangesOk (maskRanges tabs) then (r.1, .error (2, noItem))
            else
              let q := r.1.readAll (maskRanges tabs)
              if q.2 then (q.1, .error (5, noItem))
              else (q.1, (s.planPlace d i ts tabs).map some)

/-- Table contents on every active core (R341, R344, R346 to R349). -/
def State.tableWrites (s : State) (p : Plan2) : List (Nat × List MByte) :=
  s.fuse.ring.flatMap (fun c => p.tabs.flatMap (fun t =>
    match p.placed.find? (fun x => x.desc.handle == t.handle) with
    | none => []
    | some w =>
      let at_ := fun (o : Nat) (bs : List Byte) => (spadBase c + o, markAll false bs)
      let tiles := ((p.tiles.find? (fun x => x.1 == t.ut)).map Prod.snd).getD []
      if t.op then
        [at_ t.base (tiles.zipIdx.flatMap (fun x => t.tileEntry w x.1.1 x.1.2 x.2)),
         at_ t.base2 ((tiles.zipIdx.filter (fun x => !x.1.2)).flatMap (fun x => leBytes 4 x.2))]
      else
        let lb := match p.placed.find? (fun x => x.desc.handle == t.act) with
          | some a => lineBytes (a.desc.fmt % 16)
          | none => 0
        [at_ t.base ((List.range t.count).flatMap (t.unitEntry s.fuse (s.fuse.pos c) lb)),
         at_ t.base2 (match s.fuse.injQuarter c with
           | some q => (List.range (ceilDiv t.count 4)).flatMap (t.injEntry w q)
           | none => List.replicate (16 * ceilDiv t.count 4) 0)]))

/-- A structure or mask that a bind reads stands in a quiesced stack: its reads wait there (R380). -/
def State.bindWaits (s : State) (d : Desc) : Bool :=
  let masks := match s.planHead d with
    | .ok (i, ts) => (match s.planTables d i ts with
      | .ok tabs => maskRanges tabs
      | .error _ => [])
    | .error _ => []
  bindFieldsOk d && (bindRanges d ++ masks).any (fun r => s.waitsRange r.1 r.2)

/-- The program that a plan puts in force. -/
def Plan2.prog (p : Plan2) (debug : Bool) : Prog :=
  { bundles := (p.bundles.zipIdx.filter (fun x => x.1 != 0)).map (fun x => (x.2, BitVec.ofNat 256 x.1)), nBundles := p.bundles.length
    entries := p.image.entries, templates := p.image.templates, tables := p.tabs, tensors := p.placed, check := BitVec.ofNat 32 p.image.check
    digest := p.digest, debug := debug, tb := p.tb }

/-- DETAIL of a bind's record (R587). -/
def bindDetail (item tb moved : Nat) : List Byte := detailOf [(4, item), (1, tb), (3, 0), (8, moved)]

/-- A plan begins to take effect: the present context ends, unless a debug bind first waits for a change to STEP 1
    (R302, R564). -/
def State.beginBind (s : State) (d : Desc) (id kind : Nat) (p : Plan2) : State :=
  let debug := bitOf (fieldAt d 42 1) 0
  let down := debug && (List.range 16).any (fun r => (s.region r).step == 0)
  let t : State := { s with
    replacing := none
    ctx := some {
      kind := kind, cmd := id, seed := BitVec.ofNat 64 (fieldAt d 56 8), prog := some (p.prog debug)
      writes := s.tableWrites p ++ [(fieldAt d 48 8, markAll false (reportBytes p.placed p.tabs p.tb p.moved))]
      detail := bindDetail noItem p.tb p.moved, stepDown := if down then 1 else 0 } }
  if down then t else t.beginContext

/-- BIND_PROGRAM: ring r's head command is checked and planned whole; refused, it changes nothing (R563, R564). -/
def execBindProgram (r : Nat) (s : State) : Host.Outcome State Fault Refusal := live s <|
  .next (if s.headWaits r s.bindWaits then s else s.deliver r .bind (fun s d id =>
    if !bindFieldsOk d then s.complete id [1] (bindDetail noItem 0 0)
    else
      let x := s.planBind d false
      match x.2 with
      | .ok (some p) => x.1.beginBind d id 0 p
      | .ok none => x.1
      | .error e => x.1.complete id [e.1] (bindDetail e.2 0 0)))

/-- RE_PLACEMENT: ring r's head command is checked and waits for a step boundary; from now on nothing starts (R353, R354,
    R565). -/
def execRePlacement (r : Nat) (s : State) : Host.Outcome State Fault Refusal := live s <|
  .next (if s.headWaits r s.bindWaits then s else s.deliver r .replace (fun s d id =>
    if !bindFieldsOk d then s.complete id [1] (bindDetail noItem 0 0)
    else
      let x := s.planBind d true
      match x.2 with
      | .ok _ => { x.1 with replacing := some id }
      | .error e => x.1.complete id [e.1] (bindDetail e.2 0 0)))

/-- No Ladle copy, ingest job or active Press job is outstanding; no run is, since none could start (R354; 00). -/
def State.atBoundary (s : State) : Bool :=
  s.run.isNone && s.cmds.all (fun c => c.posting || (match rowOf c.desc with
    | some .ladle | some .ingest => false
    | some .press => s.press.jobs.any (fun j => j.cmd == c.id && j.armed)
    | _ => true))

/-- PLACEMENT_AT_BOUNDARY: the new placement is computed; it is refused with the old one in force, or acts as a bind
    (R355). -/
def execPlacementAtBoundary (s : State) : Host.Outcome State Fault Refusal := live s <|
  .next (match s.replacing, s.replacing.bind s.cmd with
    | some id, some c =>
      if !s.atBoundary || s.changeHolds || s.bindWaits c.desc then s
      else
        let x := s.planBind c.desc false
        match x.2 with
        | .ok (some p) => x.1.beginBind c.desc id 1 p
        | .ok none => x.1
        | .error e => ({ x.1 with replacing := none } : State).complete id [e.1] (bindDetail e.2 0 0)
    | _, _ => s)

/-! ### The start of a context (R322, R355, R356, R514, R560, R564, R580) -/

/-- Where a placed tensor stands on a core; every core for a scratchpad part. -/
def State.sites (s : State) (p : Placed) : List Nat :=
  if p.tier = 0 then s.fuse.ring.map (fun c => resolveSelf c p.addr) else [p.addr]

/-- Contents moved into a new range, read before anything is written: from the core's own part where both are in scratchpad,
    else from the one part; parts that several cores hold and that differ leave the byte open (R355; log 24). -/
def State.moveWrites (s : State) (m : Placed × Placed) : List (Nat × List MByte) :=
  let src := s.sites m.1
  let dst := s.sites m.2
  let n := m.2.bytes
  if src.length = dst.length then (src.zip dst).map (fun x => (x.2, s.mbytesAt x.1 n))
  else if src.length = 1 then dst.map (fun a => (a, s.mbytesAt (src.headD 0) n))
  else dst.map (fun a => (a, (List.range n).map (fun i =>
    let b := s.mbyteAt (src.headD 0 + i)
    if src.all (fun x => s.mbyteAt (x + i) == b) then b else (Config.freeByte s.free a i, false))))

/-- The contents that a re-placement moves, and those of transient tensors with a new range, which are undefined afterwards
    (R355). -/
def State.replaceWrites (s : State) (old new : List Placed) : List (Nat × List MByte) :=
  let lost := new.filter (fun n => n.desc.lifetime != 0 && old.any (fun o => o.desc.handle == n.desc.handle))
  lost.flatMap (fun n => (s.sites n).map (fun a => (a, s.freeRange a n.bytes))) ++ (movesOf old new).flatMap s.moveWrites

/-- Where the contents that move are read (R355). -/
def State.moveReads (s : State) (old new : List Placed) : List (Nat × Nat) :=
  (movesOf old new).flatMap (fun m => (s.sites m.1).map (fun a => (a, m.2.bytes)))

/-- Row masks that stay: of tiles unskipped in the old table and in the new one (R356). -/
def State.keepWrites (s : State) (old new : Prog) (writes : List (Nat × List MByte)) : List (Nat × List MByte) :=
  s.fuse.ring.flatMap (fun c => (new.tables.filter (fun t => t.op)).flatMap (fun t =>
    match old.table t.ut with
    | some o => if !o.op then [] else
      let e := ((writes.find? (fun w => w.1 == spadBase c + t.base)).map (fun w => w.2.map Prod.fst)).getD []
      (List.range (min o.count t.count)).filterMap (fun u =>
        let skipped := bitOf (leNat (s.spadBytes c (o.base + 32 * u + 16) 2)) 14
        if skipped || bitOf (leAt e (32 * u + 16) 2) 14 then none
        else some (spadBase c + t.base + 32 * u + 8, s.mbytesAt (spadBase c + o.base + 32 * u + 8) 8))
    | none => []))

/-- CONTEXT_START: every outstanding write is acknowledged; the old context ends, contents move, tables and report are
    written, the new context starts and the command completes (R322, R355, R356, R560, R564, R580). It waits for a change's
    release (R514) and for a quiesced stack (R380); contents that are read bad are moved as they are and the command completes with the parity-error
    status (R371, R375); a debug bind at STEP 0 first asks for the change to STEP 1 once it can (R302). -/
def execContextStart (s : State) : Host.Outcome State Fault Refusal := live s <|
  .next (match s.ctx with
    | none => s
    | some x =>
      if x.stepDown = 1 then
        if s.mixed || s.clk.change.isSome || s.clk.ecfPend.isSome then s
        else ({ s.acceptChange 1 1 (s.epoch + 65536) true with ctx := some { x with stepDown := 0 } } : State).beginContext
      else if !s.beginContext.quiet || s.changeHolds then s
      else
        let reads := match s.prog, x.prog, x.kind with
          | some o, some n, 1 => s.moveReads o.tensors n.tensors
          | _, _, _ => []
        if (reads ++ x.writes.map (fun w => (w.1, w.2.length))).any (fun a => s.waitsRange a.1 a.2) then s
        else
        let bad := (s.readAll reads).2
        let s := (s.readAll reads).1.beginContext.finishRun
        let s1 := { s.clearContext (some x.seed) (x.kind != 2) with
          prog := if x.kind = 2 then s.prog else x.prog, ctx := none }
        let writes := match s.prog, x.prog, x.kind with
          | some o, some n, 1 => s.replaceWrites o.tensors n.tensors ++ x.writes ++ s.keepWrites o n x.writes
          | _, _, _ => x.writes
        let s2 := writes.foldl (fun s w => s.bindWrite x.cmd w) { s1 with free := s1.free + 1 }
        s2.complete x.cmd (if bad then [5] else []) (if x.kind = 2 then leBytes 8 s2.epoch else x.detail))

end Sys2Proof.Machine
end

