-- ==== Sys2Proof/Machine/Links.lean ====
section
/-! DEFINITION. Griby ports as links: training, failure, the control lane, WRITE and SEM messages from other devices, forwarding
(15 R465 to R487, 10 R317 to R320). -/

namespace Sys2Proof.Machine

/-! ### Ports up and down (R476, R477) -/

/-- k added to counter c of a port, saturating. -/
def Port.bump (p : Port) (c k : Nat) : Port := { p with cnt := Sparse.set 0 p.cnt c (min (Sparse.get 0 p.cnt c + k) (2 ^ 64 - 1)) }

/-- What a port that leaves service loses: slots formed and in the replay buffer, headers received (R476, R479). -/
def Port.emptied (p : Port) : Port := 
  { p with wheyq := [], outq := [], lane := [], hdrs := 0, replay := [], headers := [], replays := 0, replayFrom := none, rxNak := false, credited := false }

/-- GRB_PORTn_FAR as it reads. -/
def Port.farWord (p : Port) : Nat := match p.far with
  | some (self, inc, port) => 2 ^ 63 + port % 32 * 2 ^ 32 + inc % 2 ^ 16 * 2 ^ 16 + self % 2 ^ 14
  | none => 0

/-- Port n's recovered clock is in use as the reference, or a switch to it is under way (R491). -/
def State.onReference (s : State) (n : Nat) : Bool :=
  (s.clk.useSrc && s.clk.usePort == n) || (s.clk.switching && s.clk.refSrc && s.clk.refPort == n)

/-- A link fails with a cause: its slots are lost, a link event is posted, Press jobs whose neighbour it served end (R446,
    R476, R546). Where its recovered clock is the reference, that stops and the device does nothing more (R492, R493). -/
def State.failPort (s : State) (n cause : Nat) : State :=
  let p := s.port n
  let s1 := s.setPort n { p.emptied with state := 3, failCause := cause }
  if s.onReference n then { s1 with clk := { s1.clk with lost := true } }
  else (s1.postEvent (bits s.grbCtl 10 8) 3 (0x200 + n) cause (leBytes 8 p.farWord)).pressLinkFailed n

/-- A port taken to STATE down, without an event (R476, R624); with the reference on it, the device stops (R492, R493). -/
def State.portDown (s : State) (n : Nat) : State :=
  let p := s.port n
  let s1 := s.setPort n { p.emptied with state := 0, want := false }
  if s.onReference n && p.state == 2 then { s1 with clk := { s1.clk with lost := true } } else s1

/-- A port that has been asked for and is down begins training once GRB_SELF is valid (R476, R477). -/
def State.tryTrain (s : State) (n : Nat) : State :=
  let p := s.port n
  if p.want && p.state == 0 && s.grbSelfValid then s.setPort n { p with state := 1, want := false, failCause := 0 } else s

/-- Config accesses reach port n's registers (R498, 15). -/
def State.portOn (s : State) (n : Nat) : Bool := s.regAlive && s.boot.done && decide (n < 24) && bitOf s.clk.enGrb n

/-- A write of GRB_PORTn_CTL; ignored while the port's loop-back runs (R623), and with UP_REQ = 0 on the selected reference
    (R494). -/
def State.portCtl (s : State) (n value : Nat) : State :=
  let p := { s.port n with laneInv := bits value 15 8 }
  if s.testOn 0 n then s
  else if bitOf value 0 then
    if p.upReq then s.setPort n p else (s.setPort n { p with upReq := true, want := true }).tryTrain n
  else if (s.clk.refSrc && s.clk.refPort == n) || (s.clk.useSrc && s.clk.usePort == n) then s
  else (s.setPort n { p with upReq := false }).portDown n

/-- PORT_UP_REQUEST: a write of GRB_PORTn_CTL with UP_REQ = 1 (R476). -/
def execPortUpRequest (n value : Nat) (s : State) : Host.Outcome State Fault Refusal := live s <|
  .next (if s.portOn n && bitOf value 0 then s.portCtl n value else s)

/-- PORT_DOWN_REQUEST: a write of GRB_PORTn_CTL with UP_REQ = 0 (R476). -/
def execPortDownRequest (n value : Nat) (s : State) : Host.Outcome State Fault Refusal := live s <|
  .next (if s.portOn n && !bitOf value 0 then s.portCtl n value else s)

/-- LINK_UP: port n finishes training with a measured round trip: both ends count from 0, the receive buffers are free, an
    identity item leaves (R472, R473, R475, R477). -/
def execLinkUp (n rtt : Nat) (s : State) : Host.Outcome State Fault Refusal := live s <|
  let p := s.port n
  .next (if p.state ≠ 1 ∨ 24 ≤ n then s
    else
      let q : Port := { p.emptied with
        state := 2, rtt := min rtt 255, far := none, creditBulk := 1024, creditWhey := 2, txSeq := 0, rxSeq := 0, lastAck := 255 }
      (s.setPort n q).sendItem n (.identity s.grbSelf s.incarn n))

/-- LINK_FAILURE: replays exhausted (1), alignment lost (2) or a protocol error (3) on a port that is up, or training failed
    (4) (R476). -/
def execLinkFailure (n cause : Nat) (s : State) : Host.Outcome State Fault Refusal := live s <|
  let st := (s.port n).state
  .next (if (st = 1 ∧ cause = 4) ∨ (st = 2 ∧ 1 ≤ cause ∧ cause ≤ 3) then s.failPort n cause else s)

/-! ### The control lane (R468, R471 to R474, R477) -/

/-- Something arrives on a port: none where the port is not in service, where it follows an uncorrectable codeword and is not of the replay, or
    where it has been received before; else the slots up to its last one are counted as received in order (R473, R474). -/
def State.arrive (s : State) (x : Rx) : Option State :=
  let p := s.port x.port
  let d := (x.seq % 256 + 513 - p.rxSeq % 256) % 256
  if !s.portUp x.port || (p.rxNak && !x.again) || decide (128 < d) then none
  else some (s.setPort x.port { p with rxSeq := (p.rxSeq + d) % 256, rxNak := false, credited := p.credited && d == 0 })

/-- f of the state after an arrival; nothing where it is not taken. -/
def State.onArrival (s : State) (x : Rx) (f : State → State) : State := match s.arrive x with
  | some s' => f s'
  | none => s

/-- CREDIT: flit buffers of a channel come back (R472); an item of a slot is applied once (R474). -/
def execCreditItem (x : Rx) (whey : Bool) (count : Nat) (s : State) : Host.Outcome State Fault Refusal := live s <|
  .next (s.onArrival x fun s =>
    let p := s.port x.port
    if p.credited || decide (2048 ≤ count) then s
    else
      let q : Port := if whey then { p with creditWhey := p.creditWhey + count, credited := true }
        else { p with creditBulk := p.creditBulk + count, credited := true }
      (s.setPort x.port q).pumpPort x.port)

/-- LANE_ACK: every slot up to a number has been received; an ack older than the last one applied is ignored (R474). -/
def execLaneAck (x : Rx) (seq : Nat) (s : State) : Host.Outcome State Fault Refusal := live s <|
  .next (s.onArrival x fun s =>
    let p := s.port x.port
    if !p.replay.any (fun e => e.1 == seq) then s
    else
      let q : Port := { p with replay := (p.replay.dropWhile (fun e => e.1 != seq)).drop 1, lastAck := seq, replays := 0, replayFrom := none }
      (s.setPort x.port q).pumpPort x.port)

/-- NAK: the sender sends again from the named slot, in order, before anything new; where 16 replays in a row from one slot have made no
    progress, the link fails (R458, R474, R476). -/
def execNakItem (x : Rx) (seq : Nat) (s : State) : Host.Outcome State Fault Refusal := live s <|
  .next (s.onArrival x fun s =>
    let p := s.port x.port
    if !p.replay.any (fun e => e.1 == seq) then s
    else
      let made := if p.replayFrom = some seq then p.replays else 0
      if 16 ≤ made then s.failPort x.port 1
      else
        (p.replay.dropWhile (fun e => e.1 != seq)).foldl (fun s e => s.emit (.slot x.port e.1 e.2.whey (e.2.bytes s.free e.1)))
          (s.setPort x.port { p.bump 2 1 with replays := made + 1, replayFrom := some seq }))

/-- HEADER: the header of a bulk message; a reserved KIND is a protocol error (R469, R471). -/
def execHeaderItem (x : Rx) (kind hops dst src incarn len tag addr arg : Nat) (s : State) : Host.Outcome State Fault Refusal := live s <|
  .next (s.onArrival x fun s =>
    let p := s.port x.port
    if kind ≠ 1 ∧ kind ≠ 2 then s.failPort x.port 3
    else s.setPort x.port { p with headers := p.headers ++
      [{ kind := kind, hops := hops % 16, dst := dst % 2 ^ 14, src := src % 2 ^ 14, incarn := incarn % 2 ^ 16, tag := tag % 2 ^ 32, addr := addr % 2 ^ 64,
         arg := arg % 2 ^ 64, len := len % 2 ^ 32 }] })

/-- IDENTITY: recorded in GRB_PORTn_FAR (R477); the far end is granted buffer space of the Press where the peer table reaches it
    (R488; log 25). -/
def execIdentityItem (x : Rx) (self incarn port : Nat) (s : State) : Host.Outcome State Fault Refusal := live s <|
  .next (s.onArrival x fun s =>
    (s.setPort x.port { s.port x.port with far := some (self % 2 ^ 14, incarn % 2 ^ 16, port % 32) }).pressGrant (self % 2 ^ 14) 1024)

/-- UNCORRECTABLE_CODEWORD: the slots up to x have been received; the receiver discards the next one and every later one, and asks for
    them again (R474). -/
def execUncorrectableCodeword (x : Rx) (s : State) : Host.Outcome State Fault Refusal := live s <|
  .next (s.onArrival x fun s =>
    (s.setPort x.port { (s.port x.port).bump 3 1 with rxNak := true }).sendItem x.port (.nak (s.port x.port).rxSeq))

/-! ### Arrivals (R469 to R471, R480, R482, R483, R486) -/

/-- Slots of an arrived message: counted, acknowledged, their buffers returned (R472 to R474). -/
def State.gotSlots (s : State) (n : Nat) (whey : Bool) (slots : Nat) : State :=
  let p := s.port n
  ((s.setPort n (p.bump 1 slots)).sendItem n (.ack ((p.rxSeq + 255) % 256))).sendItem n (.credit whey slots)

/-- FLOW of a forwarded message (R479). -/
def State.flowOf (s : State) (m : Msg) : Nat :=
  if m.kind = 0x10 then bits m.arg 43 34
  else if m.kind = 2 ∨ m.kind = 0x12 then bits m.addr 52 38
  else s.freeFlow m.tag

/-- A message for another device, received on port n, crosses the mesh to the port on which it leaves, with one hop less, or is discarded
    (R480). -/
def State.forward (s : State) (n : Nat) (m : Msg) : State :=
  let s1 := s.setPort n ((s.port n).bump 5 1)
  match if bitOf s.grbCtl 1 && m.hops != 0 then s1.portFor (s1.flowOf m) m.dst else none with
  | some out => { s1.send [.fwd n out { m with hops := m.hops - 1 }] with free := s1.free + 1 }
  | none => if m.kind = 0x11 then s1 else s1.answer m 4

/-- Why a WRITE or SEM message of another device is refused: its incarnation (2), or REMOTE_EN = 0 (1) (R482, R483). -/
def State.remoteRefusal (s : State) (m : Msg) : Nat := if m.incarn ≠ s.incarn then 2 else if !bitOf s.grbCtl 0 then 1 else 0

/-- A WRITE's range lies in the stacks, the Bulk tank or a scratchpad of this device (R486). -/
def State.writeRange (s : State) (addr len : Nat) : Bool :=
  !inHost addr && !inPeer addr && s.rangeOkDev false addr (addr + len - 1)

/-- The writes of a WRITE message's body, 128 bytes each (R454, R617). -/
def State.carryOut (s : State) (m : Msg) : State :=
  let k := ceilDiv m.body.length 128
  State.send { s with writesIn := s.writesIn ++ [(s.remoteId, { m with body := [] }, k)], remoteId := s.remoteId + 1 }
    ((List.range k).map (fun i => .write (.message s.remoteId) (m.addr % 2 ^ 63 + 128 * i) ((m.body.drop (128 * i)).take 128) false))

/-- WRITE: the body of the next WRITE header of a port has arrived: checked and carried out, or forwarded, or refused; the ACK follows the
    acknowledgement of its last write (R480 to R486, R617). -/
def execWriteMsg (x : Rx) (body : List Byte) (s : State) : Host.Outcome State Fault Refusal := live s <|
  .next (match (s.port x.port).headers with
    | [] => s
    | h :: rest =>
      if h.kind != 1 || h.len != body.length then s
      else s.onArrival x fun s =>
        let m := { h with body := markAll (bitOf h.addr 63) body }
        let a := m.addr % 2 ^ 63
        let s1 := (s.setPort x.port { s.port x.port with headers := rest }).gotSlots x.port false (ceilDiv body.length 256)
        if m.dst ≠ s.grbSelf then s1.forward x.port m
        else match s.remoteRefusal m with
          | 0 =>
            if body.length = 0 ∨ body.length % 32 ≠ 0 ∨ 65536 < body.length ∨ a % 32 ≠ 0 ∨ 2 ^ 52 ≤ a ∨ !s.writeRange a body.length then s1.answer m 1
            else s1.carryOut m
          | e => s1.answer m e)

/-- SEM: a SEM message arrives and is applied to its semaphore, or refused, or forwarded (R317 to R320, R480, R483); for a
    semaphore of a stopped region it waits (R518). -/
def execSemMsg (x : Rx) (hops dst src incarn tag arg : Nat) (s : State) : Host.Outcome State Fault Refusal := live s <|
  let m : Msg := { kind := 0x10, hops := hops % 16, dst := dst % 2 ^ 14, src := src % 2 ^ 14, incarn := incarn % 2 ^ 16, tag := tag % 2 ^ 32,
                   addr := 0, arg := arg % 2 ^ 64 }
  .next (if m.dst = s.grbSelf ∧ s.semStopped (bits m.arg 51 44) then s else s.onArrival x fun s =>
    let s1 := s.gotSlots x.port true 1
    if m.dst ≠ s.grbSelf then s1.forward x.port m
    else match s.remoteRefusal m with
      | 0 =>
        let v : Int := (m.arg % 2 ^ 32 : Nat)
        let core := bits m.arg 51 44
        let glob := bitOf m.arg 33
        if glob != (core == 255) || (decide (159 < core) && core != 255) || (!glob && decide (256 ≤ bits m.arg 43 34)) then s1.answer m 1
        else
          let r := s1.applyRemote core (bits m.arg 43 34) (if bitOf m.arg 32 then -v else v)
          r.1.answer m r.2
      | e => s1.answer m e)

end Sys2Proof.Machine
end

