-- ==== Sys2Proof/Machine/CalTest.lean ====
section
/-! DEFINITION. Calibration-and-test commands: the calibration record, loop-backs, gauge samples (18 R581 to R583, 19 R604 to
R608, 20 R621 to R625). -/

namespace Sys2Proof.Machine

/-! ### Checks at delivery (R557, R581 to R583) -/

/-- Bytes that every calibration-and-test descriptor holds at zero; loop: LOOPBACK, which uses bytes 9 to 12 and 32 to 39. -/
def calZero (d : Desc) (loop : Bool) : Bool :=
  zeroAt d 1 3 && zeroAt d 13 3 && zeroAt d 40 24 && (loop || (zeroAt d 9 4 && zeroAt d 32 8))

/-- The ADDR field is an address and a multiple of 32 (R558, R581). -/
def calAddr (d : Desc) : Bool := decide (fieldAt d 16 8 < 2 ^ 52) && fieldAt d 16 8 % 32 == 0

/-- Bytes of the calibration record. -/
def flashSize : Nat := 0x400000

/-- DETAIL of a calibration-and-test command. -/
def calDetail (n m : Nat) : List Byte := detailOf [(8, n), (8, m)]

/-- CAL_READ (R582). -/
def execCalRead (r : Nat) (s : State) : Host.Outcome State Fault Refusal := live s <|
  .next (s.deliver r .calRead (fun s d id =>
    let len := fieldAt d 28 4
    if !calZero d false || !calAddr d || len == 0 || len % 32 != 0 || decide (flashSize < fieldAt d 24 4 + len) then s.complete id [1] (calDetail 0 0)
    else if !s.rangeOkDev false (fieldAt d 16 8) (fieldAt d 16 8 + len - 1) then s.complete id [2] (calDetail 0 0)
    else s))

/-- CAL_WRITE (R582). -/
def execCalWrite (r : Nat) (s : State) : Host.Outcome State Fault Refusal := live s <|
  .next (s.deliver r .calWrite (fun s d id =>
    let len := fieldAt d 28 4
    let off := fieldAt d 24 4
    if !calZero d false || !calAddr d || len == 0 || len % 4096 != 0 || off == 0 || off % 4096 != 0 || decide (flashSize < off + len) then
      s.complete id [1] (calDetail 0 0)
    else if !s.rangeOkDev false (fieldAt d 16 8) (fieldAt d 16 8 + len - 1) then s.complete id [2] (calDetail 0 0)
    else s))

/-- GAUGE_SAMPLE (R582): every other field is 0. -/
def execGaugeSample (r : Nat) (s : State) : Host.Outcome State Fault Refusal := live s <|
  .next (s.deliver r .gauge (fun s d id =>
    if zeroAt d 1 3 && zeroAt d 9 55 then s else s.complete id [1] (calDetail 0 0)))

/-! ### Loop-backs -/

/-- INSTANCE and DEPTH are in the table of R583. -/
def loopFields (t u depth : Nat) : Bool :=
  match t with
  | 0 => decide (u < 24) && decide (depth < 3)
  | 1 => decide (u < 4) && decide (depth < 2)
  | 2 => decide (u < 8) && decide (depth < 2)
  | 3 => decide (u < 16) && decide (depth < 2)
  | 4 => decide (u < 160) && depth == 0
  | 5 => decide (u < 160) && depth == 0
  | _ => false

/-- The condition of R583 on the target. -/
def State.loopOk (s : State) (t u depth : Nat) : Bool :=
  match t with
  | 0 => bitOf s.clk.enGrb u && !(s.clk.refSrc && s.clk.refPort == u) && !(s.clk.useSrc && s.clk.usePort == u)
         && (s.port u).state == (if depth = 2 then 2 else 0)
  | 1 => !bitOf s.boot.modules u
  | 2 => (s.unit u).quiesced
  | 3 => bitOf s.clk.enMisc u && !(s.unit 8).ready
  | 4 => true
  | _ => !s.fuse.routerFail.getLsbD u && !s.meshRegs.decl.getLsbD u

/-- Link ports of a router that do not lie at the die edge (R622). -/
def meshPorts (u : Nat) : Nat :=
  (if u % 16 = 15 then 0 else 1) + (if u / 16 = 9 then 0 else 1) + (if u % 16 = 0 then 0 else 1) + (if u / 16 = 0 then 0 else 1)

/-- LOOPBACK: the pattern starts on its way, or the test is refused (R582, R583, R623, R625). -/
def execLoopback (r : Nat) (s : State) : Host.Outcome State Fault Refusal := live s <|
  .next (s.deliver r .loopback (fun s d id =>
    let t := fieldAt d 9 1
    let u := fieldAt d 10 2
    let depth := fieldAt d 12 1
    let len := fieldAt d 28 4
    if !calZero d true || !zeroAt d 16 12 || len == 0 || len % 32 != 0 || !loopFields t u depth then s.complete id [1] (calDetail 0 0)
    else if t == 4 && !s.fuse.active u then s.complete id [2] (calDetail 0 0)
    else if !s.loopOk t u depth then s.complete id [0x62] (calDetail 0 0)
    else
      let test : LoopTest := { cmd := id, target := t, unit := u, depth := depth, len := if t = 5 then len * meshPorts u else len, seed := fieldAt d 32 8 }
      { s with lbStatus := none, loopTest := some test }))

/-- The next state of the pattern generator (R621). -/
def patternNext (s : W64) : W64 :=
  let a := s ^^^ (s <<< 13)
  let b := a ^^^ (a >>> 7)
  b ^^^ (b <<< 17)

/-- n words of the pattern from a generator state (R621). -/
def patternWords : Nat → W64 → List W64
  | 0, _ => []
  | n + 1, s => patternNext s :: patternWords n (patternNext s)

/-- The pattern's first n bytes (R621). -/
def patternBytes (seed n : Nat) : List Byte :=
  let s : W64 := if seed % 2 ^ 64 = 0 then 0x2545F4914F6CDD1D else BitVec.ofNat 64 seed
  ((patternWords ((n + 7) / 8) s).flatMap (fun w => leBytes 8 w.toNat)).take n

/-- The bytes that a test sends: the pattern, on a router once per port (R622). -/
def LoopTest.sent (t : LoopTest) (len : Nat) : List Byte :=
  (List.range t.len).map (fun i => (patternBytes t.seed len).getD (i % len) 0)

/-- Bits that differ in byte i; all eight where it has not returned in time (R625). -/
def LoopTest.wrong (t : LoopTest) (len : Nat) (back : List Byte) (i : Nat) : Nat :=
  if t.lost.contains i then 8
  else (List.range 8).countP (fun j => ((t.sent len).getD i 0).getLsbD j != (back.getD i 0).getLsbD j)

/-- LOOPBACK_BYTE_TIMEOUT: byte i has not returned within 10 ms of its sending (R625). -/
def execLoopbackByteTimeout (byte : Nat) (s : State) : Host.Outcome State Fault Refusal := live s <|
  .next { s with loopTest := s.loopTest.map (fun t => if t.len ≤ byte ∨ t.lost.contains byte then t else { t with lost := t.lost ++ [byte] }) }

/-- The target's state when a test ends (R622): a far-end test leaves the port down. -/
def State.afterTest (s : State) (t : LoopTest) : State :=
  if t.target = 0 ∧ t.depth = 2 then s.portDown t.unit
  else if t.target = 4 then s.setCore t.unit { s.core t.unit with fwd := {}, ret := {}, retPrev := {} }
  else s

/-- The loop-back ends: what returned is compared with what was sent (R625, R587). -/
def State.endLoop (s : State) (t : LoopTest) (len : Nat) (back : List Byte) (lane : Nat) : State :=
  let errs := (List.range t.len).map (t.wrong len back)
  let total := errs.sum
  let s1 := ({ s with loopTest := none } : State).afterTest t
  match errs.findIdx? (fun n => n != 0) with
  | some i =>
    ({ s1 with lbStatus := some (if t.target < 2 then min lane 255 else 255, i % len) } : State).complete t.cmd [0x61] (calDetail t.len total)
  | none => s1.complete t.cmd [] (calDetail t.len 0)

/-! ### The calibration record (R582, R604) -/

/-- Bytes written into the record. -/
def putFlash (m : Sparse Byte) (o : Nat) : List Byte → Sparse Byte
  | [] => m
  | b :: t => putFlash (Sparse.set 0 m o b) (o + 1) t

/-- CAL_WRITE's work: sectors are programmed up to the first that reads back wrong, if any (R582, R673). -/
def State.calProgram (s : State) (c : Cmd) (bad : Option Nat) : State :=
  let a := fieldAt c.desc 16 8
  let off := fieldAt c.desc 24 4
  let len := fieldAt c.desc 28 4
  let src := s.readStruct a len
  let s1 := src.2.2
  if src.2.1 then s1.complete c.id [5] (calDetail 0 0)
  else match bad with
    | none => ({ s1 with flash := putFlash s1.flash off src.1 } : State).complete c.id [] (calDetail len 0)
    | some k =>
      if len / 4096 ≤ k then ({ s1 with flash := putFlash s1.flash off src.1 } : State).complete c.id [] (calDetail len 0)
      else
        let f := putFlash s1.flash off (src.1.take (4096 * k))
        let f := putFlash f (off + 4096 * k) ((List.range 4096).map (Config.freeByte s1.free 0))
        ({ s1 with flash := f, free := s1.free + 1 } : State).complete c.id [0x60] (calDetail (4096 * k) (off + 4096 * k))

/-- CALIBRATION_TEST_OPERATION_END: the operation in progress has taken its time (R556, R582). bad: the first sector that reads
    back wrong; back, lane: what a loop-back returned and the lane of its first mismatch; drifts, temps: a gauge sample. -/
def execCalibrationTestOperationEnd (bad : Option Nat) (back : List Byte) (lane : Nat) (drifts temps : List Nat) (s : State) :
    Host.Outcome State Fault Refusal := live s <|
  .next (match s.cmds.find? (fun c => fieldAt c.desc 0 1 == 0x0A && c.ended.isNone) with
    | none => s
    | some c =>
      let a := fieldAt c.desc 16 8
      let len := fieldAt c.desc 28 4
      match rowOf c.desc with
      | some .calRead =>
        if s.waitsRange a len then s
        else (s.bindWrite c.id (a, markAll false ((List.range len).map (fun i => Sparse.get 0 s.flash (fieldAt c.desc 24 4 + i))))).complete
          c.id [] (calDetail len 0)
      | some .calWrite => if s.waitsRange a len then s else s.calProgram c bad
      | some .loopback => match s.loopTest with
        | some t => if t.cmd = c.id ∧ back.length = t.len then s.endLoop t len back lane else s
        | none => s
      | some .gauge => (s.gaugeSample drifts temps).complete c.id [] (calDetail 0 0)
      | _ => s)

/-! ### Reflection (R624) -/

/-- REFLECT: a write of TST_GRB_REFLECT; a bit can be set only on a port that is up and not the selected reference;
    clearing one takes its port down, with no event. -/
def execReflect (value : Nat) (s : State) : Host.Outcome State Fault Refusal := live s <|
  let may := fun (n : Nat) => (s.port n).state == 2 && !(s.clk.refSrc && s.clk.refPort == n) && !(s.clk.useSrc && s.clk.usePort == n)
  let new := (List.range 24).foldl (fun m n => if bitOf value n && (bitOf s.reflect n || may n) then setBit m n else m) 0
  .next (if !s.regAlive then s
    else (List.range 24).foldl (fun s' n => if bitOf s.reflect n && !bitOf new n then s'.portDown n else s') { s with reflect := new })

end Sys2Proof.Machine
end

