-- ==== Sys2Proof/Machine/Mesh.lean ====
section
/-! DEFINITION. Service requests and the mesh's dynamic mode (15 R459 to R461). -/

namespace Sys2Proof.Machine

/-- Every good router is reached from the root. -/
def connected (good : Routers) : Bool :=
  evaluated good (fun good => evaluated (routerSet [rootOf good] &&& good) (within good 160) == good)

/-- Why a service request is refused (R461): 0 not at all. -/
def State.serviceRefusal (s : State) : Nat :=
  if s.meshRegs.decl &&& ~~~s.fuse.fusedOff != 0 then 1
  else if s.meshRegs.decl &&& routerSet attachments != 0 then 2
  else if !connected s.goodRouters then 3
  else 0

/-- SERVICE_REQUEST: a write of TST_MESH_CTL with SERVICE = 1 in phase 6: service mode and DONE, or the refusal and FAIL 3
    (R459 to R462, R602). -/
def execServiceRequest (value : Nat) (s : State) : Host.Outcome State Fault Refusal := live s <|
  let m := s.meshRegs
  .next (if !s.regAlive || !bitOf value 0 || m.service || m.refuse != 0 || s.boot.failed || s.boot.phase != 6 then s
    else match s.serviceRefusal with
      | 0 => { s with
          meshRegs := { m with service := true, updown := s.goodRouters != BitVec.allOnes 160 }
          boot := { s.boot with done := true, phase := 7 } }
      | e => { s with meshRegs := { m with refuse := e }, boot := { s.boot with failed := true, fail := 3, phase := 7 } })

/-! ### Dynamic mode (R459, R460) -/

/-- Hops between two routers of a mesh without failures. -/
def hops (a b : Nat) : Nat := (a % 16 - b % 16) + (b % 16 - a % 16) + (a / 16 - b / 16) + (b / 16 - a / 16)

/-- Where a router sends the flits it holds in the next cycle, given by their destinations, oldest first: a flit that has arrived is
    delivered (r itself); each other leaves by a port not yet taken, by one that brings it closer where there is one, never to a failed
    router (R460). -/
def dynamicOut (good : Routers) (r : Nat) : List Nat → List Nat → List (Option Nat)
  | [], _ => []
  | d :: t, taken =>
    if d = r then some r :: dynamicOut good r t taken
    else
      let free := (neighbours r).filter (fun b => good.getLsbD b && !taken.contains b)
      match (free.find? (fun b => decide (hops b d < hops r d))) <|> free.head? with
      | some b => some b :: dynamicOut good r t (b :: taken)
      | none => none :: dynamicOut good r t taken

end Sys2Proof.Machine
end

