-- ==== Sys2Proof/Machine/Boot.lean ====
section
/-! DEFINITION. Device reset, start-up, the UCIe link's replays (19 R588 to R612, 17 R526, R527). -/

namespace Sys2Proof.Machine

/-! ### Device reset (R588 to R591) -/

/-- A CAL_WRITE cut short leaves the sectors it was writing undefined (R606). -/
def State.cutFlash (s : State) : Sparse Byte :=
  match s.cmds.find? (fun c => rowOf c.desc == some .calWrite && c.ended.isNone) with
  | some c => putFlash s.flash (fieldAt c.desc 24 4) ((List.range (fieldAt c.desc 28 4)).map (Config.freeByte s.free 1))
  | none => s.flash

/-- The state after a device reset: fuses, the calibration record and hard repairs are kept, the incarnation grows by 1, host
    memory and the queue of commands are not the device's (R591, R482). -/
def State.afterReset (s : State) : State :=
  { State.ofReset s.fuse ((s.incarn + 1) % 2 ^ 16) with
    pending := s.pending, outbox := s.outbox, free := s.free + 1, flash := s.cutFlash, hardLeft := s.hardLeft
    mem := s.mem.filter (fun c => inHost c.1) }

/-- DEVICE_RESET: DEV_RESET_N or the host die's wire (R588, R589). -/
def execDeviceReset (s : State) : Host.Outcome State Fault Refusal := .next s.afterReset

/-- DEVICE_RESET_REQUEST: a write of the key to UCI_RESET_CTL (R590). -/
def execDeviceResetRequest (value : Nat) (s : State) : Host.Outcome State Fault Refusal := live s <|
  .next (if s.regAlive && value % 2 ^ 32 == 0x5EB90001 then s.afterReset else s)

/-! ### The calibration record at start-up (R597, R603) -/

/-- n bytes of the record. -/
def State.flashBytes (s : State) (o n : Nat) : List Byte := (List.range n).map (fun i => Sparse.get 0 s.flash (o + i))

/-- Offset and size of section i. -/
def sectionAt : Nat → Nat × Nat
  | 0 => (0x1000, 0x1000) | 1 => (0x2000, 0x1000) | 2 => (0x3000, 0x10000) | 3 => (0x13000, 0x1000) | 4 => (0x14000, 0x1000)
  | 5 => (0x15000, 0x80000) | _ => (0x95000, 0x10000)

/-- The header is valid: MAGIC, VERSION, NSECT and its CRC. -/
def State.headerOk (s : State) : Bool :=
  leNat (s.flashBytes 0 4) == 0x43565753 && leNat (s.flashBytes 4 2) == 1 && leNat (s.flashBytes 6 2) == 7
  && leNat (s.flashBytes 4092 4) == crc32c (s.flashBytes 0 4092)

/-- TOP_CAL and DRIFT_LIMIT of region r. -/
def State.margin (s : State) (r : Nat) : Nat × Nat := (leNat (s.flashBytes (0x2000 + 16 * r) 1), leNat (s.flashBytes (0x2001 + 16 * r) 1))

/-- Section i is valid; range: the device finds a value out of range in a section whose layout is not architectural. -/
def State.sectionOk (s : State) (range i : Nat) : Bool :=
  let len := leNat (s.flashBytes (16 + 8 * i) 4)
  decide (len ≤ (sectionAt i).2) && crc32c (s.flashBytes (sectionAt i).1 len) == leNat (s.flashBytes (20 + 8 * i) 4)
  && (if i = 1 then len == 256 && (List.range 16).all (fun r => decide ((s.margin r).1 ≤ 5) && decide (1 ≤ (s.margin r).2)) else !bitOf range i)

/-- REC_BAD: bit 0 the header, bit 1 + i section i. -/
def State.recBad (s : State) (range : Nat) : Nat :=
  if s.headerOk then (List.range 7).foldl (fun m i => if s.sectionOk range i then m else setBit m (i + 1)) 0 else 0xFF

/-- The cap that invalid sections put on every TOP (R597). -/
def capOf (bad : Nat) : Nat :=
  if bitOf bad 1 then 5 else if bitOf bad 2 || bitOf bad 5 then 3 else if bitOf bad 4 then 2 else 0

/-! ### Start-up (R592 to R602) -/

/-- Phase 0's checks (R596). -/
def Fuse.mapOk (f : Fuse) : Bool :=
  f.g == f.grade && (List.range 16).all (fun r => decide (8 ≤ (f.ring.filter (fun c => regionOf c == r)).length))
  && (List.range 4).all (fun q => decide (32 ≤ (f.ring.filter (fun c => quarterOf c == q)).length))
  && (f.routerFail &&& routerSet attachments) == 0

/-- The modules that enter service of those that trained (R526). -/
def inService (trained : Nat) : Nat := if trained % 16 = 15 then 15 else if trained % 4 = 3 then 3 else if trained / 4 % 4 = 3 then 12 else 0

/-- The region after phases 2 and 3 (R598, R609): without the crossing result. -/
def State.regionUp (s : State) (bad : Nat) (drifts temps : List Nat) (r : Nat) : Region :=
  let ceil := Sparse.get 0 s.fuse.ceiling r
  let cal := if bitOf bad 2 then (5, 0) else s.margin r
  let d := if bitOf bad 4 then 0 else min (drifts.getD r 0) 4095
  let res := if bitOf bad 2 then 0 else cal.1 + d / cal.2
  { step := 5, topCal := cal.1, driftLimit := cal.2, drift := d, exhausted := decide (5 < res), temp := temps.getD r 0 % 256
    top := min 5 (max ceil (max (capOf bad) res)) }

/-- Measured latency of a crossing at a step: at least 4; where the device names none, 8. -/
def measured (cross : List (Nat × Nat)) (b d step : Nat) : Nat :=
  max 4 (Sparse.get 8 cross ((2 * b + d) * 8 + step))

/-- The two regions that boundary b joins (R524). -/
def sides (b : Nat) : Nat × Nat := if b < 14 then (8 * (b / 7) + b % 7, 8 * (b / 7) + b % 7 + 1) else (b - 14, b - 6)

/-- Crossing calibration of one boundary, from STEP 5 to the slowest TOP (R599). -/
def crossStep (cross : List (Nat × Nat)) (s : State) (p : Nat × Nat × Nat) : State :=
  let l := measured cross p.1 p.2.1 p.2.2
  let ab := sides p.1
  let lower := fun (s : State) (r : Nat) => let g := s.region r; s.setRegion r { g with top := max g.top (min 5 (p.2.2 + 1)) }
  if 8 < l then lower (lower s ab.1) ab.2
  else { s with clk := { s.clk with lat := Sparse.set 8 s.clk.lat ((2 * p.1 + p.2.1) * 8 + p.2.2) l } }

/-- Every crossing, direction and step that phase 4 measures. -/
def crossings (top : Nat) : List (Nat × Nat × Nat) :=
  (List.range 22).flatMap (fun b => [0, 1].flatMap (fun d => ((List.range 6).filter (top ≤ ·)).map (fun st => (b, d, st))))

/-- A crossing passes at no latency up to 8 at STEP 5 (R599). -/
def crossFails (cross : List (Nat × Nat)) : Bool := (List.range 44).any (fun i => decide (8 < measured cross (i / 2) (i % 2) 5))

/-- Start-up ends with a FAIL code (R592, R595). -/
def State.startFail (s : State) (code : Nat) : State := { s with boot := { s.boot with failed := true, fail := code, phase := 7 } }

/-- Stack k's rate: the highest of the three, by MEM_STK_STATUS.RATE 0 to 2, at which every pseudo-channel passes; none where there is none
    (R358). -/
def stackRate (fails : List (Nat × Nat)) (k : Nat) : Option Nat := (List.range 3).find? (fun r => fails.all (fun f => f.1 / 64 != k || f.2 != r))

/-- START_UP: reset has been released; phases 0 to 6 (R592). modules, slow: the UCIe modules that trained, at 16 GT/s; range:
    sections with a value out of range; drifts, temps: the start-up gauge sample; cross: measured latencies by
    (2 × boundary + direction) × 8 + step; fails: pseudo-channels, as 64 × stack + number, with a rate at which each fails; strap: MGMT_ADDR. -/
def execStartUp (modules : Nat) (slow : Bool) (range : Nat) (drifts temps : List Nat) (cross : List (Nat × Nat)) (fails : List (Nat × Nat)) (strap : Nat)
    (s : State) : Host.Outcome State Fault Refusal := live s <|
  let up := inService modules
  let s1 := { s with
    boot := { s.boot with started := true, modules := up, rate := slow, phase := 1 }, mgmt := { s.mgmt with strap := strap % 4 } }
  .next (if s.boot.started then s
    else if !s.fuse.mapOk then s1.startFail 4
    else if up = 0 then s1
    else
      let bad := s.recBad range
      let s2 : State := { s1 with
        boot := { s1.boot with recBad := bad }, sec := { s1.sec with calImage := s1.flash }
        regions := Sparse.ofFn {} 16 (s.regionUp bad drifts temps) }
      let s3 := (crossings s2.dieTop).foldl (crossStep cross) s2
      if crossFails cross then s3.startFail 2
      else if (List.range 8).any (fun k => (stackRate fails k).isNone) then s3.startFail 1
      else { s3 with
        memUnits := Sparse.ofFn {} 9 (fun k => if k < 8 then { ready := true, rate := (stackRate fails k).getD 0 } else s3.unit 8)
        boot := { s3.boot with phase := 6 } })

/-! ### The UCIe link (R527) -/

/-- FLIT_REPLAY: a flit that failed its CRC is sent again, and passes or fails; 16 failed replays of one flit in a row take
    the link down. -/
def execFlitReplay (passes : Bool) (s : State) : Host.Outcome State Fault Refusal := live s <|
  let b := s.boot
  let n := if passes then 0 else b.flitFails + 1
  .next (if b.modules = 0 ∨ s.linkDown then s
    else { s with boot := { b with replays := min (b.replays + 1) (2 ^ 64 - 1), flitFails := n }, linkDown := decide (16 ≤ n) })

end Sys2Proof.Machine
end

