-- ==== Sys2Proof/Machine/Video.lean ====
section
/-! DEFINITION. From an ingest job's input to its output pictures: transport stream, framing, supported streams, display order, bitstream
errors, fields and cropping (13 R390 to R400). -/

namespace Sys2Proof.Machine

/-! ### Transport packets (R390) -/

/-- Bytes skipped until three 0x47 bytes stand 188 apart. -/
def tsSkip : List Byte → List Byte
  | [] => []
  | b :: t => if b = 0x47 ∧ (b :: t)[188]? = some 0x47 ∧ (b :: t)[376]? = some 0x47 then b :: t else tsSkip t

/-- Transport packets of the input; a fuel of the input's length is enough. -/
def tsPackets : Nat → List Byte → List (List Byte)
  | 0, _ => []
  | f + 1, bs =>
    if bs.length < 188 then []
    else if bs.head? = some 0x47 then bs.take 188 :: tsPackets f (bs.drop 188)
    else tsPackets f (tsSkip bs)

/-- PID of a packet. -/
def tsPid (p : List Byte) : Nat := (p.getD 1 0).toNat % 32 * 256 + (p.getD 2 0).toNat

/-- Packets without transport_error_indicator. -/
def tsGood (ps : List (List Byte)) : List (List Byte) := ps.filter (fun p => !bitOf (p.getD 1 0).toNat 7)

/-- payload_unit_start_indicator. -/
def tsStart (p : List Byte) : Bool := bitOf (p.getD 1 0).toNat 6

/-- The packet has a payload (adaptation_field_control). -/
def tsHasPayload (p : List Byte) : Bool := bitOf (p.getD 3 0).toNat 4

/-- A packet's payload, after an adaptation field. -/
def tsPayload (p : List Byte) : List Byte :=
  if !tsHasPayload p then [] else p.drop (if bitOf (p.getD 3 0).toNat 5 then 5 + (p.getD 4 0).toNat else 4)

/-! ### Program tables (R390) -/

/-- What the packets of a PID carry as sections, cut where a section starts at a pointer_field. -/
def sectionRuns (pid : Nat) : List (List Byte) → Option (List Byte) → List (List Byte)
  | [], cur => cur.toList
  | p :: t, cur =>
    let b := tsPayload p
    if tsPid p ≠ pid then sectionRuns pid t cur
    else if tsStart p then
      let n := (b.headD 0).toNat
      (cur.map (fun c => c ++ (b.drop 1).take n)).toList ++ sectionRuns pid t (some (b.drop (1 + n)))
    else sectionRuns pid t (cur.map (fun c => c ++ b))

/-- Bytes b to b + n - 1 of a list, highest first, as a number. -/
def beAt (bs : List Byte) (b n : Nat) : Nat := ((bs.drop b).take n).foldl (fun v x => 256 * v + x.toNat) 0

/-- The whole sections of a run. -/
def splitSections : Nat → List Byte → List (List Byte)
  | 0, _ => []
  | f + 1, bs =>
    let n := 3 + beAt bs 1 2 % 4096
    if bs.head? = some 0xFF ∨ bs.length < n then [] else bs.take n :: splitSections f (bs.drop n)

/-- Sections of a PID with a table_id that apply now. -/
def sections (pid table : Nat) (pkts : List (List Byte)) : List (List Byte) :=
  (sectionRuns pid pkts none).flatMap (fun r => (splitSections r.length r).filter (fun s => beAt s 0 1 == table && bitOf (beAt s 5 1) 0))

/-- The first program of the PAT: program_number and the PID of its PMT. -/
def firstProgram (pkts : List (List Byte)) : Option (Nat × Nat) :=
  ((sections 0 0 pkts).flatMap (fun s => (List.range ((s.length - 12) / 4)).map (fun i => (beAt s (8 + 4 * i) 2, beAt s (10 + 4 * i) 2 % 8192)))).find?
    (fun x => x.1 != 0)

/-- stream_type and PID of each elementary stream from byte o of a PMT section. -/
def streamsAt : Nat → List Byte → List (Nat × Nat)
  | 0, _ => []
  | f + 1, bs => if bs.length < 5 then [] else (beAt bs 0 1, beAt bs 1 2 % 8192) :: streamsAt f (bs.drop (5 + beAt bs 3 2 % 4096))

/-- The elementary streams of the first program. -/
def streams (pkts : List (List Byte)) : List (Nat × Nat) :=
  match firstProgram pkts with
  | some (n, pid) => match (sections pid 2 pkts).find? (fun s => beAt s 3 2 == n) with
    | some s => streamsAt s.length ((s.take (s.length - 4)).drop (12 + beAt s 10 2 % 4096))
    | none => []
  | none => []

/-- CODEC of a stream_type (R390). -/
def codecOf (ty : Nat) : Option Nat := if ty = 0x02 then some 1 else if ty = 0x1B then some 2 else if ty = 0x24 then some 3 else none

/-- The video PID and its codec: as the profile names them, else from the PMT; 0 for a stream_type that is none of the three. -/
def videoStream (pkts : List (List Byte)) (pid codec : Nat) : Option (Nat × Nat) :=
  let es := streams pkts
  let pick := if pid = 0x1FFF then es.find? (fun e => (codecOf e.1).isSome) else es.find? (fun e => e.2 == pid)
  if pid ≠ 0x1FFF ∧ codec ≠ 0 then some (pid, codec)
  else pick.map (fun e => (e.2, if codec = 0 then (codecOf e.1).getD 0 else codec))

/-! ### PES packets (R390) -/

/-- An item of an elementary stream: a byte, a bitstream error, the start of a PES packet's payload with its PTS. -/
inductive EsItem where
  | byte (b : Byte)
  | err
  | pts (v : Nat)
  deriving DecidableEq, Repr

/-- The video PID's packets, one list per PES packet: bytes, and an error at a continuity_counter gap or a scrambled packet. A packet that
    repeats the count is a repeat and left out. prev: the count before; cur: the PES packet in progress. -/
def pesRuns (pid : Nat) : List (List Byte) → Option Nat → Option (List EsItem) → List (List EsItem)
  | [], _, cur => cur.toList
  | p :: t, prev, cur =>
    let cc := (p.getD 3 0).toNat % 16
    if tsPid p ≠ pid ∨ !tsHasPayload p ∨ prev = some cc then pesRuns pid t prev cur
    else
      let gap := match prev with
        | some v => (v + 1) % 16 != cc
        | none => false
      let scrambled := decide (64 ≤ (p.getD 3 0).toNat)
      let items := (if scrambled then [EsItem.err] else (tsPayload p).map EsItem.byte)
      let cur' := cur.map (fun c => if gap then c ++ [.err] else c)
      if tsStart p && !scrambled then cur'.toList ++ pesRuns pid t (some cc) (some items)
      else pesRuns pid t (some cc) (cur'.map (fun c => c ++ items))

/-- n bytes taken off, errors kept. -/
def dropBytes : Nat → List EsItem → List EsItem
  | 0, l => l
  | _, [] => []
  | n + 1, .byte _ :: t => dropBytes n t
  | n + 1, x :: t => x :: dropBytes (n + 1) t

/-- The bytes among items. -/
def EsItem.bytes (l : List EsItem) : List Byte := l.filterMap (fun x => match x with
  | .byte b => some b
  | _ => none)

/-- A PES packet's payload after its PTS; one that does not start as a PES packet is an error. -/
def pesItems (l : List EsItem) : List EsItem :=
  let b := EsItem.bytes (l.take 64)
  if beAt b 0 3 ≠ 1 then [.err]
  else
    let pts := beAt b 9 1 / 2 % 8 * 2 ^ 30 + beAt b 10 2 / 2 * 2 ^ 15 + beAt b 12 2 / 2
    (if bitOf (beAt b 7 1) 7 then [.pts pts] else []) ++ dropBytes (9 + beAt b 8 1) l

/-! ### Framing (R392) -/

/-- Units of a byte stream with start codes. zeros: zero bytes not yet given out; cur: the unit in progress; pts: of a PES packet in which no
    unit has begun. -/
def annexB : List EsItem → Nat → Option Config.Unit → Option Nat → List Config.Unit
  | [], _, cur, _ => cur.toList
  | .pts v :: t, z, cur, _ => annexB t z cur (some v)
  | .err :: t, z, cur, p => annexB t z (cur.map (fun u => { u with damaged := true })) p
  | .byte b :: t, z, cur, p =>
    if b = 0 then annexB t (z + 1) cur p
    else if b = 1 ∧ 2 ≤ z then cur.toList ++ annexB t 0 (some { data := [], pts := p }) none
    else annexB t 0 (cur.map (fun u => { u with data := u.data ++ List.replicate z 0 ++ [b] })) p

/-- A number in leb128 and the bytes after it. -/
def leb128 : Nat → List Byte → Option (Nat × List Byte)
  | 0, _ => none
  | _, [] => none
  | f + 1, b :: t => if b.toNat < 128 then some (b.toNat, t) else (leb128 f t).map (fun r => (b.toNat - 128 + 128 * r.1, r.2))

/-- OBUs with size fields; what has none, or breaks off, is an error. -/
def obus : Nat → List Byte → List Config.Unit
  | 0, _ => []
  | _, [] => []
  | f + 1, b :: t =>
    let ext := if bitOf b.toNat 2 then 1 else 0
    match (if bitOf b.toNat 1 then leb128 8 (t.drop ext) else none) with
    | some (n, r) => { data := b :: t.take ext ++ r.take n, damaged := decide (r.length < n) } :: obus f (r.drop n)
    | none => [{ data := b :: t, damaged := true }]

/-- Frames each preceded by its length in 4 bytes. -/
def lengthFrames : Nat → List Byte → List Config.Unit
  | 0, _ => []
  | _, [] => []
  | f + 1, bs =>
    let n := leAt bs 0 4
    let r := bs.drop 4
    { data := r.take n, damaged := decide (bs.length < 4 + n) } :: lengthFrames f (r.drop n)

/-- The units of an elementary stream, and its codec; none where the input has no video stream. -/
def unitsOf (mode codec pid : Nat) (pkts : List (List Byte)) (bytes : List Byte) : Option (Nat × List Config.Unit) :=
  if mode = 0 then (videoStream pkts pid codec).map (fun v => (v.2, annexB ((pesRuns v.1 pkts none none).flatMap pesItems) 0 none none))
  else some (codec, if codec ≤ 3 then annexB (bytes.map EsItem.byte) 0 none none
    else if codec = 4 then obus bytes.length bytes else lengthFrames bytes.length bytes)

/-! ### Supported streams (R393) -/

/-- The table of R393. -/
def supported (mode codec : Nat) (h : Config.Header) : Bool :=
  decide (h.codedW ≤ 4096) && decide (h.codedH ≤ 2304) && (h.chroma == 1 || (codec == 4 && h.chroma == 0))
  && (match codec with
    | 1 => h.profile == .main && decide (h.level ≤ 4) && h.depth == 8
    | 2 => h.profile == .high && decide (h.level ≤ 52) && h.depth == 8
    | 3 => (h.profile == .main || h.profile == .main10) && !h.highTier && decide (h.level ≤ 52) && (h.depth == 8 || h.depth == 10)
    | 4 => mode == 1 && h.profile == .main && decide (h.level ≤ 60) && (h.depth == 8 || h.depth == 10)
    | 5 => mode == 1 && (h.profile == .p0 || h.profile == .p2) && (h.depth == 8 || h.depth == 10)
    | _ => false)

/-- What is decoded up to the first sequence header that breaks the table or changes the display size, each under its header, and whether one
    does. -/
def accepted (mode codec : Nat) : List Config.Coded → Option Config.Header → List (Config.Header × Config.Coded) × Bool
  | [], _ => ([], false)
  | .header h :: t, cur =>
    let same := match cur with
      | some c => c.dispW == h.dispW && c.dispH == h.dispH
      | none => true
    if supported mode codec h && same then accepted mode codec t (some h) else ([], true)
  | x :: t, some h =>
    let r := accepted mode codec t (some h)
    ((h, x) :: r.1, r.2)
  | _ :: t, none => accepted mode codec t none

/-! ### Display order and bitstream errors (R394, R397) -/

/-- Coded pictures in decoding order. -/
def picturesOf (l : List (Config.Header × Config.Coded)) : List (Config.Header × Config.Picture) :=
  l.filterMap (fun x => match x.2 with
    | .picture p => some (x.1, p)
    | _ => none)

/-- Numbers of the pictures that start bad, or are predicted from a bad one or from one that the stream does not hold; a random access point
    is predicted from none. -/
def infected (start : Config.Picture → Bool) (l : List Config.Picture) : List Nat :=
  (l.foldl (fun (a : List Nat × List Nat) p =>
    (a.1 ++ [p.num], if start p || (!p.rap && p.refs.any (fun r => a.2.contains r || !a.1.contains r)) then a.2 ++ [p.num] else a.2)) ([], [])).2

/-- A picture as it is shown: its header, whether it is decodable, its PTS. -/
structure Shown where
  hdr : Config.Header
  pic : Config.Picture
  ok : Bool
  pts : Option Nat
  deriving DecidableEq, Repr

/-- The shown pictures in display order from the first that is decodable from the first random access point; hidden ones are shown only where
    the stream shows them again (R394, R397). -/
def shownPictures (l : List (Config.Header × Config.Coded)) : List Shown :=
  let pics := (picturesOf l).map Prod.snd
  let before := (pics.takeWhile (fun p => !p.rap)).map Config.Picture.num
  let early := infected (fun p => before.contains p.num) pics
  let bad := infected (fun p => p.damaged || before.contains p.num) pics
  let show_ := fun (h : Config.Header) (p : Config.Picture) (order : Nat) (pts : Option Nat) =>
    (order, ({ hdr := h, pic := p, ok := !bad.contains p.num, pts := pts } : Shown))
  let all := l.filterMap (fun x => match x.2 with
    | .picture p => if p.hidden || before.contains p.num then none else some (show_ x.1 p p.order p.pts)
    | .again n order pts => ((picturesOf l).find? (fun y => y.2.num == n && !before.contains n)).map (fun y => show_ y.1 y.2 order pts)
    | .header _ => none)
  ((sortBy (fun a b : Nat × Shown => decide (a.1 ≤ b.1)) all).map Prod.snd).dropWhile (fun x => early.contains x.pic.num)

/-! ### Output pictures (R398 to R401) -/

/-- An output picture: the picture, and its parity if it is a field of a split frame. -/
abbrev OutPic := Shown × Option Bool

/-- A field-coded picture, which is an output picture as it stands (R398). -/
def fieldCoded (codec : Nat) (o : Shown) : Bool := (codec == 1 && o.pic.fieldPicture) || (codec == 3 && o.hdr.fieldSeq)

/-- The stream marks the frame interlaced (R398). -/
def interlaced (codec : Nat) (o : Shown) : Bool := (codec == 1 && !o.pic.progressiveFrame) || (codec == 2 && !o.hdr.frameMbsOnly)

/-- The stream signals bottom field first (R399). -/
def bottomFirst (codec : Nat) (o : Shown) : Bool := (codec == 1 && !o.pic.topFieldFirst) || (codec == 2 && o.pic.bottomOrder)

/-- Is the picture split (R398). -/
def splitIt (mode codec : Nat) (o : Shown) : Bool :=
  !fieldCoded codec o && decide (codec ≤ 3) && (mode == 2 || (mode == 0 && interlaced codec o))

/-- A decoded picture's output pictures, first field first; a second field carries no PTS (R399). -/
def outPics (mode codec : Nat) (o : Shown) : List OutPic :=
  if splitIt mode codec o then [(o, some (bottomFirst codec o)), ({ o with pts := none }, some (!bottomFirst codec o))] else [(o, none)]

/-- A stream's output pictures, and whether it breaks the table of R393. -/
def outputs (mode fieldMode codec : Nat) (units : List Config.Unit) : List OutPic × Bool :=
  let r := accepted mode codec (Config.decodeUnits codec units) none
  ((shownPictures r.1).flatMap (outPics fieldMode codec), r.2)

/-- The picture holds half the lines of its frame: a field of a split frame, or an MPEG-2 field picture. -/
def halfHeight (o : OutPic) : Bool := o.2.isSome || o.1.pic.fieldPicture

/-- Width and height of an output picture: the display picture, or half its lines (R399, R400). -/
def outSize (o : OutPic) : Nat × Nat := (o.1.hdr.dispW, if halfHeight o then o.1.hdr.dispH / 2 else o.1.hdr.dispH)

/-- The 12-bit code of plane ch at luma position (x, y) of an output picture, within the coded picture by the codec's cropping (R399 to R401). A
    sample that the decoded picture does not hold is free. -/
def sample (fr : Nat) (o : OutPic) (ch x y : Nat) : Int :=
  let h := o.1.hdr
  let line := fun (v : Nat) => match o.2 with
    | some b => 2 * v + (if b then 1 else 0)
    | none => v
  let free := (Config.freeBits fr (x * 4096 + y)).toNat % 2 ^ h.depth
  let v := if ch = 0 then o.1.pic.luma.getD ((h.dispY + line y) * h.codedW + h.dispX + x) free
    else if h.chroma = 0 then 2 ^ (h.depth - 1)
    else (if ch = 1 then o.1.pic.cb else o.1.pic.cr).getD ((h.dispY / 2 + line (y / 2)) * ((h.codedW + 1) / 2) + h.dispX / 2 + x / 2) free
  (v * 2 ^ (12 - h.depth) : Nat)

end Sys2Proof.Machine
end

