-- ==== Sys2Proof/Machine/Creamery.lean ====
section
/-! DEFINITION. The Creamery: ingest jobs, pictures to clips, clip records and signals (13 R385 to R389, R391, R401 to R411). -/

namespace Sys2Proof.Machine

/-! ### Profiles (R388, R389) -/

/-- An ingest profile. -/
structure Profile where
  mode : Nat
  codec : Nat
  pid : Nat
  aux : List Nat
  fieldMode : Nat
  fmt : Nat
  patch : Bool
  cv : Option Nat
  k : Nat
  t : Nat
  skip : Nat
  cropX : Nat
  cropY : Nat
  cropW : Nat
  cropH : Nat
  outW : Nat
  outH : Nat
  pt : Nat
  ph : Nat
  pw : Nat
  sem : Option Nat
  m : List W32
  filter : Nat
  stage : Nat
  stageBytes : Nat
  out : Nat
  slot : Nat
  recs : Nat
  auxBase : Nat
  auxBytes : Nat
  deriving DecidableEq, Repr

/-- The profile in 256 bytes. -/
def profileOf (b : List Byte) : Profile :=
  let f := leAt b
  { mode := f 0 1, codec := f 1 1, pid := f 2 2, aux := (List.range 4).map (fun i => f (4 + 2 * i) 2), fieldMode := f 12 1
    fmt := f 13 1, patch := f 14 1 == 1, cv := if bitOf (f 15 1) 7 then some (f 15 1 % 4) else none, k := f 16 2, t := f 18 2
    skip := f 20 4, cropX := f 24 2, cropY := f 26 2, cropW := f 28 2, cropH := f 30 2, outW := f 32 2, outH := f 34 2
    pt := f 36 1, ph := f 37 1, pw := f 38 1, sem := if bitOf (f 40 2) 15 then some (f 40 2 % 1024) else none
    m := (List.range 12).map (fun i => BitVec.ofNat 32 (f (48 + 4 * i) 4)), filter := f 96 8, stage := f 104 8
    stageBytes := f 112 8, out := f 120 8, slot := f 128 8, recs := f 136 8, auxBase := f 144 8, auxBytes := f 152 8 }

/-- Every field holds a value in its range, every reserved byte is 0 (R388, R389). -/
def profileFieldsOk (b : List Byte) : Bool :=
  let f := leAt b
  let p := profileOf b
  decide (p.mode ≤ 1) && decide (p.codec ≤ 5) && !(p.mode == 1 && p.codec == 0) && decide (p.pid ≤ 0x1FFF)
  && p.aux.all (fun a => decide (a ≤ 0x1FFF)) && decide (p.fieldMode ≤ 2) && [0x01, 0x03, 0x04, 0x13, 0x14].contains p.fmt
  && decide (f 14 1 ≤ 1) && bits (f 15 1) 6 2 == 0 && decide (1 ≤ p.k) && decide (p.k ≤ 64) && decide (1 ≤ p.t) && decide (p.t ≤ 256)
  && decide (16 ≤ p.outW) && decide (p.outW ≤ 1024) && decide (16 ≤ p.outH) && decide (p.outH ≤ 1024)
  && (if p.patch then decide (1 ≤ p.pt) && decide (1 ≤ p.ph) && decide (1 ≤ p.pw) else p.pt == 0 && p.ph == 0 && p.pw == 0)
  && f 39 1 == 0 && bits (f 40 2) 14 10 == 0 && f 42 6 == 0 && leNat (b.drop 160) == 0
  && p.filter % 128 == 0 && p.stage % 4096 == 0 && p.stageBytes % 4096 == 0 && decide (2 ^ 20 ≤ p.stageBytes)
  && decide (p.stageBytes ≤ 2 ^ 28) && p.out % 4096 == 0 && p.slot % 4096 == 0 && p.recs % 64 == 0
  && (!p.patch || (p.t % p.pt == 0 && p.outH % p.ph == 0 && p.outW % p.pw == 0))

/-! ### Clip layout (R405) -/

/-- Rows of the clip tensor and elements in a row. -/
def Profile.shape (p : Profile) : Nat × Nat :=
  if p.patch then (p.t / p.pt * (p.outH / p.ph) * (p.outW / p.pw), 3 * p.pt * p.ph * p.pw) else (p.t * 3 * p.outH, p.outW)

/-- Lines of 64 elements. -/
def Profile.lines (p : Profile) : Nat := p.shape.1 * ceilDiv p.shape.2 64

/-- Bytes of the data. -/
def Profile.dataBytes (p : Profile) : Nat := p.lines * 64 * (elemBits (p.fmt % 16) / 8)

/-- Offset of the scale plane (R405). -/
def Profile.scaleOff (p : Profile) : Nat := roundUp p.dataBytes 128

/-- Bytes of the clip tensor with its scale plane (R142). -/
def Profile.clipBytes (p : Profile) : Nat := if fmtIsMX p.fmt then p.scaleOff + 2 * p.lines else p.dataBytes

/-- Frame, channel, row and column of element e of row r (R405). -/
def Profile.position (p : Profile) (r e : Nat) : Nat × Nat × Nat × Nat :=
  if p.patch then
    let nw := p.outW / p.pw
    let nh := p.outH / p.ph
    (r / nw / nh * p.pt + e / 3 / p.pw / p.ph, e % 3, r / nw % nh * p.ph + e / 3 / p.pw % p.ph, r % nw * p.pw + e / 3 % p.pw)
  else (r / p.outH / 3, r / p.outH % 3, r % p.outH, e)

/-! ### The resize (R402) and the matrix (R403) -/

/-- i limited to lo to hi. -/
def clampTo (lo hi i : Int) : Int := max lo (min hi i)

/-- A filter block's tap: phase and tap of the horizontal or the vertical table. -/
def tapOf (b : List Byte) (vert : Bool) (ph t : Nat) : Int :=
  sext 16 (leAt b (if vert then 2048 + 16 * ph + 2 * t else 32 * ph + 2 * t) 2)

/-- The filter position of output index x: source index and phase. -/
def filterPos (x crop size off : Nat) : Int × Nat :=
  let pos : Int := (((2 * x + 1) * crop * 2 ^ 15 / size : Nat) : Int) - 2 ^ 15 + (off : Int) * 2 ^ 16
  (pos / 65536, (pos / 1024 % 64).toNat)

/-- Line r of the horizontal pass at output column x. -/
def hPass (p : Profile) (filt : List Byte) (fr : Nat) (o : OutPic) (ch r x : Nat) : Int :=
  let f := filterPos x p.cropW p.outW p.cropX
  let a := ((List.range 16).map (fun t =>
    tapOf filt false f.2 t * sample fr o ch (clampTo 0 ((outSize o).1 - 1) (f.1 - 7 + t)).toNat r)).sum
  clampTo (-(2 ^ 17)) (2 ^ 17 - 1) ((a + 2 ^ 9) / 2 ^ 10)

/-- The resized plane at (x, y). -/
def resized (p : Profile) (filt : List Byte) (fr : Nat) (o : OutPic) (ch x y : Nat) : Nat :=
  let f := filterPos y p.cropH p.outH p.cropY
  let a := ((List.range 8).map (fun t =>
    tapOf filt true f.2 t * hPass p filt fr o ch (clampTo 0 ((outSize o).2 - 1) (f.1 - 3 + t)).toNat x)).sum
  (clampTo 0 4095 ((a + 2 ^ 17) / 2 ^ 18)).toNat

/-- Channel j of the output sample at (x, y) (R403). -/
def outValue (p : Profile) (filt : List Byte) (fr : Nat) (o : OutPic) (j x y : Nat) : W32 :=
  let comp := fun (ch : Nat) => toF32 (Num.ofInt (resized p filt fr o ch x y))
  let m := fun (i : Nat) => p.m.getD (4 * j + i) 0
  ffma (m 2) (comp 2) (ffma (m 1) (comp 1) (ffma (m 0) (comp 0) (m 3)))

/-! ### A clip's bytes (R403, R405) -/

/-- A line's 64 values in the output format: data bytes, and two scale bytes for a block-scaled format. -/
def clipLine (fmt : Nat) (vals : List Num) : List Byte × List Byte :=
  let n := elemBits (fmt % 16) / 8
  if fmtIsMX fmt then
    let a := quantiseBlock (fmt % 16) (vals.take 32)
    let b := quantiseBlock (fmt % 16) (vals.drop 32)
    ((a.2 ++ b.2).flatMap (leBytes n), leBytes 1 a.1 ++ leBytes 1 b.1)
  else (vals.flatMap (fun v => leBytes n (encodeElem (fmt % 16) true v)), [])

/-- A clip's data and its scale plane from its sampled pictures. -/
def clipTensor (p : Profile) (filt : List Byte) (fr : Nat) (frames : List OutPic) : List Byte × List Byte :=
  let vals := fun (r l : Nat) => (List.range 64).map (fun i =>
    let e := 64 * l + i
    if e < p.shape.2 then
      let q := p.position r e
      match frames[q.1]? with
      | some o => f32 (outValue p filt fr o q.2.1 q.2.2.2 q.2.2.1)
      | none => Num.fin false 0 0
    else Num.fin false 0 0)
  let ls := (List.range p.shape.1).flatMap (fun r => (List.range (ceilDiv p.shape.2 64)).map (fun l => clipLine p.fmt (vals r l)))
  (ls.flatMap Prod.fst, ls.flatMap Prod.snd)

/-- A clip record (R406). -/
def clipRecord (codec stream clip : Nat) (pic : Nat) (o : OutPic) (check slotAddr : Nat) : List Byte :=
  let pts := match o.1.pts with
    | some v => v % 2 ^ 33 + 2 ^ 63
    | none => 0
  let bottom := match o.2 with
    | some b => b
    | none => fieldCoded codec o.1 && o.1.pic.bottom
  let flags := (if o.2.isSome then 1 else 0) + (if bottom then 2 else 0) + (if o.1.hdr.depth = 10 then 4 else 0)
  leBytes 4 stream ++ leBytes 4 clip ++ leBytes 8 pts ++ leBytes 4 pic ++ leBytes 1 flags ++ leBytes 3 0 ++ leBytes 8 check
    ++ leBytes 8 slotAddr ++ leBytes 24 0

/-! ### Writes of a job -/

/-- Bytes cut into packets of at most 128 bytes. -/
def chunks (a : Nat) (bs : List Byte) : List (Nat × List Byte) :=
  (List.range (ceilDiv bs.length 128)).map (fun i => (a + 128 * i, (bs.drop (128 * i)).take 128))

/-- Clip c's writes leave; each counts until it is acknowledged. -/
def State.clipWrites (s : State) (e c : Nat) (ws : List (Nat × List Byte)) : State :=
  s.send (ws.map (fun w => Packet.write (.clip e c) w.1 (markAll false w.2) false))

/-- Clip c written whole: data, scale plane and record (R405 to R407, R422). -/
def State.writeClip (s : State) (e : Nat) (p : Profile) (codec : Nat) (d : Desc) (filt : List Byte) (c pic : Nat) (frames : List OutPic) : State :=
  let g := s.engine e
  let slot := fieldAt d 40 4 + g.written
  let a := p.out + slot * p.slot
  let t := clipTensor p filt s.free frames
  let check := match p.cv with
    | some n =>
      let v := s.cv n
      crcValue v.poly (crcBytes v.poly (cvPrefix v (if v.fold = 1 then fieldAt d 8 4 * 2 ^ 32 + c else a)) (t.1 ++ t.2))
    | none => 0
  let rec_ := match frames with
    | o :: _ => clipRecord codec (fieldAt d 8 4) c pic o check a
    | [] => []
  let ws := chunks a t.1 ++ chunks (a + p.scaleOff) t.2 ++ [(p.recs + 64 * slot, rec_)]
  (State.setEngine { s with clipsWritten := min (s.clipsWritten + 1) (2 ^ 32 - 1) } e
    { g with written := g.written + 1, clips := g.clips ++ [(c, ws.length)] }).clipWrites e c ws

/-- A clip dropped (R397, R411). -/
def State.dropClip (s : State) (e : Nat) : State :=
  let g := s.engine e
  State.setEngine { s with clipsDropped := min (s.clipsDropped + 1) (2 ^ 32 - 1) } e { g with dropped := g.dropped + 1 }

/-- Is the picture decodable for this job (R397, R400). -/
def Profile.usable (p : Profile) (o : OutPic) : Bool :=
  o.1.ok && decide (p.cropX + p.cropW ≤ (outSize o).1) && decide (p.cropY + p.cropH ≤ (outSize o).2)

/-- Clips c to c + n - 1 written or dropped, until MAX_CLIPS are written: the state, and the clip at which that ended it
    (R404, R406, R408). -/
def runClips (p : Profile) (codec : Nat) (d : Desc) (filt : List Byte) (e : Nat) (pics : List OutPic) : Nat → Nat → State → State × Option Nat
  | 0, _, s => (s, none)
  | n + 1, c, s =>
    let first := p.skip + c * p.t * p.k
    let frames := (List.range p.t).filterMap (fun m => pics[first + m * p.k]?)
    let s1 := if frames.length = p.t ∧ frames.all p.usable then s.writeClip e p codec d filt c first frames else s.dropClip e
    if (s1.engine e).written = fieldAt d 12 4 then (s1, some c) else runClips p codec d filt e pics n (c + 1) s1

/-! ### Jobs -/

/-- The command's fields (R558, R570). -/
def ingestFieldsOk (d : Desc) : Bool :=
  zeroAt d 1 3 && zeroAt d 44 20 && decide (1 ≤ fieldAt d 12 4) && decide (1 ≤ fieldAt d 24 8) && fieldAt d 32 8 % 128 == 0
  && decide (fieldAt d 16 8 < 2 ^ 52) && decide (fieldAt d 32 8 < 2 ^ 52)

/-- INGEST_JOB: ring r's head command enters the one queue, or completes gated where no engine is enabled (R386, R570). -/
def execIngestJob (r : Nat) (s : State) : Host.Outcome State Fault Refusal := live s <|
  .next (s.deliver r .ingest (fun s d id =>
    if !ingestFieldsOk d then s.complete id [1] []
    else if s.clk.enCrm = 0 then s.complete id [4] []
    else { s with ingestQ := s.ingestQ ++ [id] }))

/-- The lowest engine that is free and enabled (R386). -/
def State.freeEngine (s : State) : Option Nat :=
  (List.range 32).find? (fun e => bitOf s.clk.enCrm e && (s.engine e).cmd == 0)

/-- Is a range in the stacks. -/
def inStacks (lo n : Nat) : Bool := decide (1 ≤ n) && decide (lo + n ≤ 0x0C000000000)

/-- The ranges of the command and the profile on engine e (R387, R389). -/
def State.ingestRangesOk (s : State) (p : Profile) (d : Desc) (e : Nat) : Bool :=
  let a := fieldAt d 16 8
  let n := fieldAt d 24 8
  let s0 := fieldAt d 40 4
  let m := fieldAt d 12 4
  (inHost a || inWordMem a) && s.rangeOkDev false a (a + n - 1)
  && s.rangeOkDev false p.filter (p.filter + 3071) && inStacks (p.stage + e * p.stageBytes) p.stageBytes
  && s.rangeOkDev false (p.out + s0 * p.slot) (p.out + (s0 + m) * p.slot - 1)
  && s.rangeOkDev false (p.recs + 64 * s0) (p.recs + 64 * (s0 + m) - 1)
  && (p.auxBytes == 0 || s.rangeOkDev false p.auxBase (p.auxBase + p.auxBytes - 1))

/-- Is the unit that the profile names clocked and in Creamery mode (R389). -/
def State.cvReady (s : State) (p : Profile) : Bool := match p.cv with
  | some n => s.cvOn n && (s.cv n).src == 2
  | none => true

/-- The completion record's DETAIL (R587). -/
def Ingest.detail (g : Ingest) (e : Nat) : List Byte :=
  detailOf [(4, g.written), (4, g.dropped), (4, g.pics), (3, min g.auxLost (2 ^ 24 - 1)), (1, (if g.truncated then 1 else 0) + 8 * e)]

/-- The pass-through packets among the input's first n packets, written and counted (R391). -/
def State.passThrough (s : State) (e : Nat) (p : Profile) (pkts : List (List Byte)) : State :=
  let l := pkts.filter (fun k => p.aux.any (fun a => a != 0x1FFF && a == tsPid k))
  let fit := l.take (p.auxBytes / 188)
  let g := s.engine e
  let ws := chunks p.auxBase (fit.flatMap (fun k => k))
  (s.setEngine e { g with auxLost := l.length - fit.length, auxOut := ws.length }).clipWrites e auxClip ws

/-- Place of input byte i in the staging ring, whose first byte of a job lies at a place that the spec leaves open: a multiple of 32. -/
def stagePlace (p : Profile) (e start i : Nat) : Nat := p.stage + e * p.stageBytes + (start + i) % p.stageBytes

/-- The input's bytes, copied in order through the engine's staging ring and read from it (R387). -/
def State.staged (s : State) (p : Profile) (e : Nat) (bs : List MByte) : State :=
  let start := (Config.freeBits s.free 387).toNat % (p.stageBytes / 32) * 32
  (List.range (ceilDiv bs.length 32)).foldl (fun s i =>
    let a := stagePlace p e start (32 * i)
    let w := (bs.drop (32 * i)).take 32
    (s.noteWrite a w).noteRead a w.length) s

/-- The job of descriptor d on engine e, with its profile and filter block: its input through the staging ring, its pictures, clips and end.
    par: the clip during which a parity error of the Creamery ends it; cut: how far it has read when it ends before its
    input does (R387, R390 to R411). -/
def State.runIngest (s : State) (e : Nat) (p : Profile) (d : Desc) (filt : List Byte) (par : Option Nat) (cut : Cut) : State :=
  let a := fieldAt d 16 8
  let n := fieldAt d 24 8
  let all := s.mbytesAt a n
  let good := (all.takeWhile (fun b => !b.2)).map Prod.fst
  let poisoned := anyMarked all
  let pkts := if p.mode = 0 then tsGood (tsPackets good.length good) else []
  let units := (unitsOf p.mode p.codec p.pid pkts good).getD (0, [])
  let codec := units.1
  let dec := if units.2.isEmpty then ([], false) else outputs p.mode p.fieldMode codec units.2
  let pics := dec.1
  let span := p.t * p.k
  let whole := (pics.length - p.skip) / span
  let stop := match par with
    | some c => min c whole
    | none => whole
  let copied := fun (s : State) (k : Nat) => (s.noteRead a k).staged p e (all.take k)
  let r := runClips p codec d filt e pics stop 0 s
  let g := fun (f : Ingest → Ingest) (s : State) => s.setEngine e (f (s.engine e))
  match r.2 with
  | some c =>
    g (fun x => { x with truncated := true, pics := p.skip + (c + 1) * span }) ((copied r.1 (min n cut.fetched)).passThrough e p (pkts.take cut.seen))
  | none =>
    let partly := decide (p.skip + stop * span < pics.length)
    let failed := par.isSome || (poisoned && !dec.2)
    let s1 := if failed && partly then r.1.dropClip e else r.1
    let s2 := if par.isSome then { s1 with crmErr := setBit s1.crmErr 0 }
      else if failed then { s1 with crmErr := setBit s1.crmErr 1 } else s1
    let found := if failed then [5] else if dec.2 then [0x41] else []
    let early := par.isSome || poisoned || dec.2
    let seen := if par.isSome || dec.2 then cut.seen else pkts.length
    g (fun x => { x with found := found, pics := if par.isSome then p.skip + stop * span else pics.length })
      ((copied s2 (if early then min n (max cut.fetched (if poisoned && par.isNone then good.length + 1 else 0)) else n)).passThrough e p (pkts.take seen))

/-- The job's reads and its staging ring wait for a quiesced stack (R380). -/
def State.ingestWaits (s : State) (d : Desc) (e : Nat) : Bool :=
  let a := fieldAt d 32 8
  let p := profileOf (s.bytesAt a 256)
  s.waitsRange a 256 || s.waitsRange (fieldAt d 16 8) (fieldAt d 24 8) || s.waitsRange p.filter 3072
    || s.waitsRange (p.stage + e * p.stageBytes) p.stageBytes

/-- INGEST_JOB_ASSIGN: the queue's head goes to the lowest free enabled engine; its profile is checked and it runs, or it is
    refused before it reads input (R386 to R411, R673). par, cut: as for the job. -/
def execIngestJobAssign (par : Option Nat) (cut : Cut) (s : State) : Host.Outcome State Fault Refusal := live s <|
  .next (match s.ingestQ, s.freeEngine with
    | id :: rest, some e =>
      match s.cmd id with
      | none => { s with ingestQ := rest }
      | some c =>
        let d := c.desc
        let a := fieldAt d 32 8
        let s0 := { s with ingestQ := rest, noProgress := 0 }
        let refuse := fun (s : State) (st : Nat) => s.complete id [st] (({} : Ingest).detail e)
        if s.ingestWaits d e then s
        else if !s.rangeOkDev false a (a + 255) then refuse s0 0x40
        else
          let b := s0.readStruct a 256
          let p := profileOf b.1
          if b.2.1 then refuse b.2.2 5
          else if !(profileFieldsOk b.1 && b.2.2.ingestRangesOk p d e && decide (p.clipBytes ≤ p.slot) && b.2.2.cvReady p) then
            refuse b.2.2 0x40
          else
            let f := b.2.2.readStruct p.filter 3072
            if f.2.1 then refuse f.2.2 5
            else
              let s1 := f.2.2.setEngine e { cmd := id, sem := p.sem, cv := p.cv }
              { s1.runIngest e p d f.1 par cut with free := s.free + 1 }
    | _, _ => s)

/-- CLIP_SIGNAL: every write of the engine's oldest clip is acknowledged; 1 is added to the job's semaphore, in clip order
    (R407). -/
def execClipSignal (e : Nat) (s : State) : Host.Outcome State Fault Refusal := live s <|
  let g := s.engine e
  .next (match g.clips with
    | (_, 0) :: rest =>
      if s.epoch ≤ g.doneAt || (g.sem.isSome && s.semStopped 255) then s
      else
      let s1 := s.setEngine e { g with clips := rest }
      match g.sem with
      | some i => s1.signalSem true 0 i 1
      | none => s1
    | _ => s)

/-- INGEST_JOB_COMPLETE: the engine's job has written its clips and signalled them; its record is made and the engine is free
    (R386, R408). -/
def execIngestJobComplete (e : Nat) (s : State) : Host.Outcome State Fault Refusal := live s <|
  let g := s.engine e
  .next (if g.cmd ≠ 0 ∧ g.clips = [] ∧ g.auxOut = 0 then (s.setEngine e {}).complete g.cmd g.found (g.detail e) else s)

end Sys2Proof.Machine
end

