-- ==== Sys2Proof/Machine/Flow.lean ====
section
/-! DEFINITION. NOP and the program counter: idle, branches, loops, end (08 R235, R251 to R255, R276, R279). -/

namespace Sys2Proof.Machine

/-- NOP does nothing (R235). hits: parity errors that are there in its period, of the fetched bundle (R279) or in a core's storage (R98,
    R193); a NOP carries them whatever the bundle holds. -/
def execNop (n : Nat) (last : Bool) (hits : List Hit) (s : State) : Host.Outcome State Fault Refusal :=
  fetched s n (.nop (!hits.isEmpty)) <|
  .next ((s.strikes n hits).slot n last fun _ _ k => k)

/-- IDLE: nothing issues from the following count bundles (R254). -/
def execIdle (n : Nat) (last : Bool) (count : Nat) (s : State) : Host.Outcome State Fault Refusal :=
  fetched s n (iWord 0x36 0 0 count) <|
  .next (s.slot n last fun _ _ k => k.push n n (.idle count))

/-- IDLE_END: the count of IDLE expires, in cycles outside hold (R254): as many epoch counts pass as the longest count has left, or as many
    as may (log 13). n: the count of the IDLE bundle. -/
def execIdleEnd (_n : Nat) (s : State) : Host.Outcome State Fault Refusal := live s <|
  .next (s.passes (((List.range Config.nPhys).map (fun c => (s.core c).idle)).foldl max 0))

/-- Recent outcomes and a divergence noted in the run. -/
def RunState.noteOutcome (n : Nat) (now : List (Nat × Nat)) (differ : Bool) (r : RunState) : RunState :=
  { r with outcomes := now ++ r.outcomes.filter (fun p => n ≤ p.1 + 64), diverged := r.diverged || differ }

/-- A branch or LOOP of the bundle at count n: outc gives a core's outcome, act its effect. Outcomes that differ are
    the hazard of R304 in debug mode, on every core that issues or has issued it, and stop issue after the bundle (R306); outside debug mode the outcome is free
    (R22). -/
def State.steer (s : State) (n : Nat) (last isLoop : Bool) (outc : Nat → Core → Nat) (act : Nat → Core → Core)
    (reads : List (Nat × Nat)) : State :=
  let cs := (List.range Config.nPhys).filter (s.issues n)
  let mine := cs.map (fun c => outc c (s.core c))
  let before := match s.run with
    | some r => (r.outcomes.filter (fun p => p.1 == n)).map (fun p => p.2)
    | none => []
  let all := mine ++ before
  let differ := all.any (fun o => o != all.headD 0)
  let pick := fun (o : Nat) => if differ && !s.debug then (free64 s.free (site n 255 0)).toNat % (if isLoop then 2 ^ 32 else 2) else o
  let now := (mine.take 1).map (fun o => (n, o))
  let first := differ && s.debug && !before.isEmpty && s.run.any (fun r => !r.diverged)
  let s := { s with run := s.run.map (RunState.noteOutcome n now (differ && s.debug)) }
  -- the cores that issued the branch before, in a hold that splits the cores
  let s := if first then s.mapCores (fun _ k =>
      if k.issuing && decide (n < k.sched) then k.hazardOf s.debug n n 4 (if isLoop then 2 else before.headD 0) else k) else s
  s.slot n last fun s c k =>
    let o := outc c k
    let k := k.checkReads s.debug n reads
    act (pick o) (if differ then k.hazardAt s.debug n 4 (if isLoop then 2 else o) else k)

/-- A taken branch takes effect after two delay bundles (R251). -/
def Core.branchTo (target taken : Nat) (k : Core) : Core := if taken = 1 then { k with branch := some (target, 3) } else k

/-- BR (R249, R251). -/
def execBr (n : Nat) (last : Bool) (target : Nat) (s : State) : Host.Outcome State Fault Refusal :=
  fetched s n (bWord 0x38 0 0 target) <|
  .next (s.slot n last fun _ _ k => (k.branchTo target 1).contract s.fuse 24 n 0)

/-- A conditional branch on two scalar registers. -/
def State.branchIf (s : State) (n : Nat) (last : Bool) (sa sb target : Nat) (p : W64 → W64 → Bool) : State :=
  s.steer n last false (fun c k => (p (k.readS s.free c n sa) (k.readS s.free c n sb)).toNat) (fun o k => (k.branchTo target o).contract s.fuse 24 n 0)
    [(0, sa), (0, sb)]

/-- BEQ (R249, R251). -/
def execBeq (n : Nat) (last : Bool) (sa sb target : Nat) (s : State) : Host.Outcome State Fault Refusal :=
  fetched s n (bWord 0x39 sa sb target) <|
  .next (s.branchIf n last sa sb target (fun a b => a == b))

/-- BNE (R249, R251). -/
def execBne (n : Nat) (last : Bool) (sa sb target : Nat) (s : State) : Host.Outcome State Fault Refusal :=
  fetched s n (bWord 0x3A sa sb target) <|
  .next (s.branchIf n last sa sb target (fun a b => a != b))

/-- BLT, signed (R249, R251). -/
def execBlt (n : Nat) (last : Bool) (sa sb target : Nat) (s : State) : Host.Outcome State Fault Refusal :=
  fetched s n (bWord 0x3B sa sb target) <|
  .next (s.branchIf n last sa sb target (fun a b => a.slt b))

/-- BGE, signed (R249, R251). -/
def execBge (n : Nat) (last : Bool) (sa sb target : Nat) (s : State) : Host.Outcome State Fault Refusal :=
  fetched s n (bWord 0x3C sa sb target) <|
  .next (s.branchIf n last sa sb target (fun a b => b.sle a))

/-- LOOP: the bundles from the next through TARGET, S[SA][31:0] times; a count of 0 is 1 (R253). -/
def execLoop (n : Nat) (last : Bool) (sa target : Nat) (s : State) : Host.Outcome State Fault Refusal :=
  fetched s n (bWord 0x3E sa 0 target) <|
  .next (s.steer n last true (fun c k => (k.readS s.free c n sa).toNat % 2 ^ 32)
    (fun o k => { k with loops := ⟨k.pc + 1, target, max 1 o⟩ :: k.loops }) [(0, sa)])

/-- LOOP_COUNT_EXPIRY: after the last pass, issue goes on after the body; an enclosing loop that ends with the same
    bundle takes its own pass (R253). -/
def execLoopCountExpiry (n : Nat) (s : State) : Host.Outcome State Fault Refusal := live s <|
  let nb := match s.prog with
    | some p => p.nBundles
    | none => 16384
  .next (s.mapCores (fun _ k =>
      if k.loopDone && k.sched == n && k.stopped == none then
        ({ k with loopDone := false, loops := k.loops.tail }).nextPc.illegalFetch nb
      else k)).noteFirst

/-- END: no further bundle issues (R255). -/
def execEndProg (n : Nat) (last : Bool) (s : State) : Host.Outcome State Fault Refusal :=
  fetched s n (bWord 0x3F 0 0 0) <|
  let s' := if (List.range Config.nPhys).any (s.issues n) then
      { s with run := s.run.map (fun r => { r with endCount := some n }) } else s
  .next (s'.slot n last fun _ _ k => k.push n n .endProg)

end Sys2Proof.Machine
end

