-- ==== Sys2Proof/Machine/Inject.lean ====
section
/-! DEFINITION. The landing of injected units (03 R91, R669, 07 R223 to R226). Their requests are READ_REQUESTs of queue 7. -/

namespace Sys2Proof.Machine

/-- INJECTED_UNIT_LANDED: the data of a requested unit arrives at an injector core (R91, R669). A fetch through a damaged entry, or one whose
range fails R214, lands at once and poisoned. way: what its packets meet (R464). -/
def execInjectedUnitLanded (core unit : Nat) (forNext : Bool) (way : Way) (s : State) :
    Host.Outcome State Fault Refusal := live s <|
  .next (match s.injTable forNext, (s.core core).injq.find? (fun i => i.unit == unit && i.forNext == forNext && !i.landed) with
    | some t, some i =>
      if !s.clocked core then s
      else if !i.asked then (s.landBroken core unit forNext t).getD s
      else if i.lost then s
      else if way.lost then (s.modInj core unit forNext (fun i => { i with lost := true })).meshError true way.router 1
      else
        let u := Sparse.get ⟨[], [], false⟩ s.units (if forNext then forNextTag unit else unit)
        let r := s.payload (markAll false (u.data ++ u.scales)) way.bad way.router
        let fresh := anyMarked r.2 && !u.poison
        let s1 := if fresh then r.1.setCore core ((r.1.core core).ladleFail 7 2 (free32 s.free (site 0 core 312)).toNat) else r.1
        s1.landUnit core unit forNext { u with poison := u.poison || fresh } (if u.poison || fresh then 1 else 0)
    | _, _ => s)

end Sys2Proof.Machine
end

