-- ==== Sys2Proof/Machine/Stirrer.lean ====
section
/-! DEFINITION. The Stirrer and the host side of the check-value units (13 R412 to R423). -/

namespace Sys2Proof.Machine

/-! ### The permutation (R412) -/

/-- b of a window of n samples. -/
def stirBits (n : Nat) : Nat :=
  let l := if n ≤ 1 then 0 else Nat.log2 (n - 1) + 1
  max 2 (l + l % 2)

/-- Round key r. -/
def stirKey (seed : W64) (epoch : W32) (r : Nat) : W32 :=
  (if r % 2 = 0 then seed.setWidth 32 else (seed >>> 32).setWidth 32) ^^^ (epoch * 0x2545F491#32)
    ^^^ (BitVec.ofNat 32 (r + 1) * 0x9E3779B9#32)

/-- f of round r. -/
def stirF (seed : W64) (epoch : W32) (m : W32) (r : Nat) (x : W32) : W32 :=
  let y := (x ^^^ stirKey seed epoch r) * 0x85EBCA6B#32
  let y := (y ^^^ (y >>> 13)) * 0xC2B2AE35#32
  (y ^^^ (y >>> 16)) &&& m

/-- Eight Feistel rounds on half words of h bits. -/
def stirE (seed : W64) (epoch : W32) (h v : Nat) : Nat :=
  let m : W32 := BitVec.ofNat 32 (2 ^ h - 1)
  let p := (List.range 8).foldl (fun (p : W32 × W32) r => (p.2, p.1 ^^^ stirF seed epoch m r p.2))
    (BitVec.ofNat 32 (v / 2 ^ h), BitVec.ofNat 32 v &&& m)
  p.1.toNat * 2 ^ h + p.2.toNat

/-- Cycle-walking: e applied until the value is below n; at most 2^b times. -/
def stirWalk (seed : W64) (epoch : W32) (h n : Nat) : Nat → Nat → Nat
  | 0, v => v
  | f + 1, v => if v < n then v else stirWalk seed epoch h n f (stirE seed epoch h v)

/-- σ. -/
def stirSigma (seed : W64) (epoch : W32) (n i : Nat) : Nat :=
  let b := stirBits n
  stirWalk seed epoch (b / 2) n (2 ^ b) (stirE seed epoch (b / 2) i)

/-! ### Epoch commands (R413 to R417) -/

/-- The Stirrer plan in 64 bytes. -/
def stirPlan (b : List Byte) : Plan :=
  let f := leAt b
  { n := f 0 4, per := f 4 4, pool := f 8 8, slot := f 16 8, templ := f 24 8, targets := f 32 8, nt := f 40 2, nbuf := f 42 1
    bufStride := f 48 8, dstStride := f 56 8, rsvOk := f 43 5 == 0 }

/-- The plan's own ranges (R413, R416). -/
def Plan.ok (p : Plan) : Bool :=
  p.rsvOk && decide (1 ≤ p.n) && decide (p.n ≤ 2 ^ 24) && decide (1 ≤ p.per) && decide (p.per ≤ 65536) && decide (1 ≤ p.nt)
  && decide (p.nt ≤ 256) && decide (1 ≤ p.nbuf) && decide (p.nbuf ≤ 16) && p.templ % 128 == 0 && p.targets % 16 == 0

/-- The target entries; none where one is refused (R416). -/
def State.stirTargets (s : State) (b : List Byte) (nt : Nat) : Option (List (Nat × Nat × Nat × Nat × Nat)) :=
  let f := leAt b
  let l := (List.range nt).map (fun i => (f (16 * i) 1, f (16 * i + 1) 1, f (16 * i + 2) 1, f (16 * i + 3) 1, f (16 * i + 8) 8))
  if (List.range nt).all (fun i => f (16 * i + 4) 4 == 0)
      && l.all (fun t => s.fuse.active t.1 && decide (t.2.1 < 8) && s.queueOwner t.1 t.2.1 == 2) then some l else none

/-- An epoch command starts, or is refused before it emits anything (R416, R673): a status, or the epoch. -/
def State.stirStart (s : State) (id : Nat) (d : Desc) : State × Except Nat Epoch :=
  let a := fieldAt d 24 8
  if !s.rangeOkDev false a (a + 63) then (s, .error 2)
  else
    let b := s.readStruct a 64
    let p := stirPlan b.1
    if b.2.1 then (b.2.2, .error 5)
    else if !p.ok || decide (p.n < fieldAt d 12 4 + fieldAt d 32 4) then (b.2.2, .error 1)
    else if !(b.2.2.rangeOkDev false p.targets (p.targets + 16 * p.nt - 1) && b.2.2.rangeOkDev false p.templ (p.templ + 127)) then
      (b.2.2, .error 2)
    else
      let t := b.2.2.readStruct p.targets (16 * p.nt)
      let m := t.2.2.readStruct p.templ 128
      if t.2.1 || m.2.1 then (m.2.2, .error 5)
      else match m.2.2.stirTargets t.1 p.nt with
        | none => (m.2.2, .error 1)
        | some l => (m.2.2, .ok { cmd := id, plan := p, templ := ladleDesc m.1, targets := l })

/-- What an epoch command reads stands in a quiesced stack: its start waits there (R380). -/
def State.stirWaits (s : State) (d : Desc) : Bool :=
  let a := fieldAt d 24 8
  let p := stirPlan (s.bytesAt a 64)
  s.waits a || (s.rangeOkDev false a (a + 63) && p.ok && (s.waitsRange p.targets (16 * p.nt) || s.waits p.templ))

/-- The waiting epoch commands start in order until one runs, or waits for its plan (R413, R380). -/
def stirNext : List Nat → State → State
  | [], s => { s with epochQueue := [] }
  | id :: t, s =>
    match s.cmd id with
    | none => stirNext t s
    | some c =>
      if s.stirWaits c.desc then { s with epochQueue := id :: t }
      else match s.stirStart id c.desc with
      | (s1, .error st) => stirNext t (s1.complete id [st] (detailOf [(4, 0), (4, 0)]))
      | (s1, .ok e) => { s1 with epochCmd := some e, epochQueue := t }

/-- STIRRER_EPOCH: ring r's head command runs, after those before it (R413, R571). -/
def execStirrerEpoch (r : Nat) (s : State) : Host.Outcome State Fault Refusal := live s <|
  .next (s.deliver r .stirrer (fun s d id =>
    if !(zeroAt d 1 3 && zeroAt d 36 28) || fieldAt d 32 4 == 0 || fieldAt d 24 8 % 64 != 0 || decide (2 ^ 52 ≤ fieldAt d 24 8) then
      s.complete id [1] (detailOf [(4, 0), (4, 0)])
    else
      let s1 := { s with epochQueue := s.epochQueue ++ [id] }
      if s1.epochCmd.isSome then s1 else stirNext s1.epochQueue s1))

/-- Sample j's transfer: a copy of the template with its addresses replaced and no signal (R414). -/
def Epoch.transfer (e : Epoch) (d : Desc) (j : Nat) : Transfer :=
  let p := e.plan
  let b := j / p.per
  let t := e.targets.getD (b % p.nt) (0, 0, 0, 0, 0)
  let s := stirSigma (BitVec.ofNat 64 (fieldAt d 16 8)) (BitVec.ofNat 32 (fieldAt d 8 4)) p.n (fieldAt d 12 4 + j)
  { id := 2 ^ 64 + e.cmd * 2 ^ 40 + j
    desc := { e.templ with
      src := p.pool + s * p.slot
      dst := t.2.2.2.2 + b / p.nt % p.nbuf * p.bufStride + j % p.per * p.dstStride
      semKind := 0, semCore := 0, semIdx := 0, semAdd := 0 }
    by_ := .stirrer, cmd := e.cmd, batch := b }

/-- STIRRER_CREDIT: the next batch's target has a free buffer; the credit is taken and the batch's transfers are offered to its
    queue, which refuses them where the Stirrer does not own it (R210, R414, R415). par: the Stirrer meets a parity error. -/
def execStirrerCredit (par : Bool) (s : State) : Host.Outcome State Fault Refusal := live s <|
  .next (match s.epochCmd with
    | none => s
    | some e =>
      match s.cmd e.cmd with
      | none => s
      | some c =>
        let count := fieldAt c.desc 32 4
        let p := e.plan
        let t := e.targets.getD (e.credits % p.nt) (0, 0, 0, 0, 0)
        if count ≤ e.emitted ∨ Sparse.get 0 (s.core t.1).sems t.2.2.2.1 = 0 ∨ s.semStopped t.1 then s
        else
          let n := min p.per (count - e.emitted)
          let s1 := s.csemChange t.1 t.2.2.2.1 (-1)
          let ts := (List.range n).map (fun w => e.transfer c.desc (e.emitted + w))
          let s2 := if par then { s1 with crmErr := setBit s1.crmErr 2 }.modCmd e.cmd (fun x => { x with found := x.found ++ [5] }) else s1
          let s3 := { s2 with
            epochCmd := some { e with emitted := e.emitted + n, credits := e.credits + 1, left := e.left ++ [(e.credits, n)] }
            noProgress := 0 }
          if s3.queueOwner t.1 t.2.1 = 2 then s3.setCore t.1 (ts.foldl (fun k x => k.offer t.2.1 x) (s3.core t.1))
          else ts.foldl (fun s x => s.refuseTransfer t.1 t.2.1 1 x) s3)

/-- STIRRER_BATCH_FULL: every transfer of batch b is over; 1 is added to its target's FULL_SEM. With the last batch the
    command completes and the next one starts (R415, R413). -/
def execStirrerBatchFull (b : Nat) (s : State) : Host.Outcome State Fault Refusal := live s <|
  .next (match s.epochCmd with
    | none => s
    | some e =>
      let t := e.targets.getD (b % e.plan.nt) (0, 0, 0, 0, 0)
      if !e.left.contains (b, 0) || s.semStopped t.1 then s
      else
        let e1 := { e with left := e.left.filter (fun x => x.1 != b), batches := e.batches + 1 }
        let s1 := { s with epochCmd := some e1 }.signalSem false t.1 t.2.2.1 1
        let count := match s.cmd e.cmd with
          | some c => fieldAt c.desc 32 4
          | none => 0
        if e1.left.isEmpty ∧ count ≤ e1.emitted then
          let s2 := { s1 with epochCmd := none }.complete e.cmd [] (detailOf [(4, e1.emitted), (4, e1.batches)])
          stirNext s2.epochQueue s2
        else s1)

/-! ### Check-value units, host side (R419, R420) -/

/-- A job or a snooped transfer uses the unit (CRM_CVn_CTL). -/
def State.cvInUse (s : State) (n : Nat) : Bool :=
  !(s.cv n).snoops.isEmpty || (List.range 32).any (fun e => (s.engine e).cmd != 0 && (s.engine e).cv == some n)

/-- The fields of CRM_CVn_CTL written, a reserved SRC or FOLD excepted. -/
def Cv.setFields (v : Cv) (x : Nat) : Cv :=
  { v with
    core := bits x 23 16, queue := bits x 10 8, poly := bits x 1 0
    fold := if bits x 5 4 = 3 then v.fold else bits x 5 4
    src := if bits x 3 2 = 3 then v.src else bits x 3 2 }

/-- A write of CRM_CVn_CTL: one that changes a field is ignored while the unit is in use; START closes the host block and
    opens a new one with its prefix (R419). -/
def State.writeCvCtl (s : State) (n x : Nat) : State :=
  let v := s.cv n
  let w := v.setFields x
  if w ≠ v ∧ s.cvInUse n then s
  else if !bitOf x 31 then s.setCv n w
  else s.setCv n { w with opened := w.src == 0, reg := if w.src = 0 then cvPrefix w w.seq.toNat else w.reg }

/-- The configuration bus reaches unit n: it is clocked, and start-up is over (R9, R594). -/
def State.cvReach (s : State) (n : Nat) : Bool := s.regAlive && s.boot.done && decide (n < 4) && s.cvOn n

/-- CHECK_VALUE_BLOCK_START: a write of CRM_CVn_CTL with START = 1 (R419). -/
def execCheckValueBlockStart (n value : Nat) (s : State) : Host.Outcome State Fault Refusal := live s <|
  .next (if s.cvReach n && bitOf value 31 then s.writeCvCtl n (value % 2 ^ 32) else s)

/-- A feed write of k bytes; a poisoned one sets PAR (R420, R423). -/
def State.feed (s : State) (n k : Nat) (x : Fed) : State :=
  let v := s.cv n
  if !s.cvReach n then s
  else if v.src ≠ 0 then s.setCv n { v with feedErr := true }
  else if v.opened then s.setCv n { v with reg := crcBytes v.poly v.reg (leBytes k x.value), par := v.par || x.poison }
  else s

/-- FEEDB: feeds one byte (R420). -/
def execFeedb (n : Nat) (x : Fed) (s : State) : Host.Outcome State Fault Refusal := live s <| .next (s.feed n 1 x)

/-- FEEDH: feeds two bytes, lowest first (R420). -/
def execFeedh (n : Nat) (x : Fed) (s : State) : Host.Outcome State Fault Refusal := live s <| .next (s.feed n 2 x)

/-- FEEDW: feeds four bytes, lowest first (R420). -/
def execFeedw (n : Nat) (x : Fed) (s : State) : Host.Outcome State Fault Refusal := live s <| .next (s.feed n 4 x)

end Sys2Proof.Machine
end

