-- ==== Sys2Proof/Machine/Maint.lean ====
section
/-! DEFINITION. The maintenance window, refresh, temperature and scrubbing (12 R368 to R383). -/

namespace Sys2Proof.Machine

/-- What waited for a quiesced stack goes on: source blocks that Press jobs have still to read, the Stirrer's next epoch (R380). -/
def State.afterQuiesce (s : State) : State :=
  let s1 := ((s.press.jobs.filter (fun j => !j.todo.isEmpty)).map (fun j => j.cmd)).foldl (fun s c => s.pressGo c) s
  if s1.epochCmd.isNone then stirNext s1.epochQueue s1 else s1

/-- QUIESCE: a write of MEM_STK_CTL of stack k (R380); ignored while the stack's loop-back runs (R623). -/
def execQuiesce (k value : Nat) (s : State) : Host.Outcome State Fault Refusal := live s <|
  let u := s.unit k
  .next (if !s.regAlive || !s.boot.done || decide (8 ≤ k) || s.testOn 2 k then s
    else if bitOf value 0 then s.setUnit k { u with quiesce := true }
    else (s.setUnit k { u with quiesce := false, quiesced := false }).afterQuiesce)

/-- STACK_QUIESCED: the accesses already at the controller are complete (R380). An access in the model is at the
    controller for one command only. -/
def execStackQuiesced (k : Nat) (s : State) : Host.Outcome State Fault Refusal := live s <|
  let u := s.unit k
  .next (if decide (k < 8) && u.quiesce then s.setUnit k { u with quiesced := true } else s)

/-- The bank that MEM_MAINT_ADDR addresses, as a key. -/
def Maint.bankKey (m : Maint) : Nat := (m.stack * 64 + m.pc) * 32 + m.bank

/-- A maintenance operation is over. -/
def Maint.finish (m : Maint) (result : Nat) : Maint := { m with busy := false, done := true, result := result }

/-- A write of MEM_MAINT_CTL: fields, and with GO = 1 the start of an operation or its end at once (R382). -/
def State.maintWrite (s : State) (value : Nat) : State :=
  if s.maint.busy then s
  else
    let m := { s.maint with stack := bits value 7 5, cmd := bits value 3 1 }
    { s with maint :=
        if !bitOf value 0 then m
        else if m.cmd = 0 ∨ 4 < m.cmd then m.finish 4
        else if !(s.unit m.stack).quiesced then m.finish 2
        else if m.cmd < 4 ∧ 63 < m.pc then m.finish 4
        else { m with busy := true, done := false } }

/-- A maintenance row's write: one with GO = 1 and its own CMD. -/
def State.maintGo (s : State) (cmd value : Nat) : State :=
  if s.regAlive && s.boot.done && bitOf value 0 && bits value 3 1 == cmd then s.maintWrite value else s

/-- SPPR: soft repair of the addressed row (R382). -/
def execSppr (value : Nat) (s : State) : Host.Outcome State Fault Refusal := live s <| .next (s.maintGo 1 value)

/-- HPPR: hard repair of the addressed row (R382). -/
def execHppr (value : Nat) (s : State) : Host.Outcome State Fault Refusal := live s <| .next (s.maintGo 2 value)

/-- SPARES: REMAINING receives the hard-repair resources left in the addressed bank (R382). -/
def execSpares (value : Nat) (s : State) : Host.Outcome State Fault Refusal := live s <| .next (s.maintGo 3 value)

/-- IEEE1500: a shift through the stack's test port (R382). -/
def execIeee1500 (value : Nat) (s : State) : Host.Outcome State Fault Refusal := live s <| .next (s.maintGo 4 value)

/-- The word lies in the stack and pseudo-channel that the window addresses (R360). -/
def Maint.covers (m : Maint) (w : Nat) : Bool :=
  8 * w / 0x1800000000 == m.stack && 8 * w % 0x1800000000 / 4096 % 64 == m.pc

/-- After a repair every word of the row holds undefined contents, and may read as uncorrectable (R383). -/
def State.rowLost (s : State) (words : List (Nat × Nat)) : State :=
  (words.filter (fun w => s.maint.covers w.1)).foldl (fun s w =>
    { s with
      mem := putBytes s.mem (8 * w.1) ((List.range 8).map (Config.freeByte s.free w.1))
      ecc := Sparse.set 0 s.ecc w.1 (w.2 % 4), free := s.free + 1 }) s

/-- MAINTENANCE_OPERATION_END: the running operation ends (R382). iface: an interface error; words: the words of the
    repaired row, with what their check bits then say; out: what the test port shifted out. -/
def execMaintenanceOperationEnd (iface : Bool) (words : List (Nat × Nat)) (out : W64) (s : State) : Host.Outcome State Fault Refusal := live s <|
  let m := s.maint
  let left := Sparse.get 2 s.hardLeft m.bankKey
  let soft := (s.softReps.filter (fun p => p.1 == m.bankKey)).length
  .next (if !m.busy then s
    else if iface then { s with maint := m.finish 3 }
    else if m.cmd = 3 then { s with maint := { m with remaining := min left 255 }.finish 0 }
    else if m.cmd = 4 then { s with maint := { m with data := out }.finish 0 }
    else if left ≤ soft then { s with maint := m.finish 1 }
    else
      let s1 := s.rowLost words
      if m.cmd = 1 then { s1 with maint := m.finish 0, softReps := s1.softReps ++ [(m.bankKey, m.row)] }
      else { s1 with maint := m.finish 0, hardLeft := Sparse.set 2 s1.hardLeft m.bankKey (left - 1) })

/-- REFRESH: a bank's refresh interval expires. The controller refreshes it, with what it has postponed, or postpones it while reads to the
    bank are queued; with the eighth it has reached its limit, and issues what it has postponed before any further access (R368). It changes no
    data (R370). -/
def execRefresh (unit channel bank : Nat) (queued : Bool) (s : State) : Host.Outcome State Fault Refusal := live s <|
  let key := (unit * 64 + channel) * 32 + bank
  let n := Sparse.get 0 s.postponed key
  .next (if 9 ≤ unit ∨ (unit = 8 ∧ 16 ≤ channel) ∨ 64 ≤ channel ∨ 32 ≤ bank then s
    else { s with postponed := Sparse.set 0 s.postponed key (if queued ∧ n < 7 then n + 1 else 0) })

/-- TEMPERATURE_READ: the temperature of stack k, or of the Bulk tank's devices (k = 8), sets the refresh rate (R369). -/
def execTemperatureRead (k temp : Nat) (s : State) : Host.Outcome State Fault Refusal := live s <|
  .next (if k < 9 then s.setUnit k { s.unit k with temp := if k < 8 then temp % 256 else 0, ref2x := decide (85 ≤ temp) } else s)

/-- SCRUB: patrol scrubbing reads word w and writes it back if corrected (R377). upset: bits that the read finds flipped. -/
def execScrub (w : Nat) (upset : List (Nat × Nat)) (s : State) : Host.Outcome State Fault Refusal := live s <|
  .next (if bitOf s.memEccCtl 1 && (s.span false (8 * w)).isSome && inWordMem (8 * w) && (s.unit (unitOf (8 * w))).ready then
      let s1 := s.upset (upset.filter (fun p => p.1 / 8 == w))
      let one := Sparse.get 0 s1.ecc w == 1
      let s2 := s1.wordRead w
      if one then { s2 with ecc := Sparse.set 0 s2.ecc w 0 } else s2
    else s)

end Sys2Proof.Machine
end

