-- ==== Sys2Proof/Machine/Regs.lean ====
section
/-! DEFINITION. The config aperture: every register's offset, width and contents (22 R646 to R653, R7 to R13, R498, and the register
tables of 03 to 21). A read changes nothing (R13). -/

namespace Sys2Proof.Machine

/-! ### Fields -/

/-- A register word from its fields: low bit and value. -/
def fields (l : List (Nat × Nat)) : Nat := (l.map (fun p => p.2 * 2 ^ p.1)).sum

/-- A one-bit field. -/
def flag (lo : Nat) (b : Bool) : Nat × Nat := (lo, b.toNat)

/-- A set of bits of 0 to n - 1. -/
def bitsOf (n : Nat) (p : Nat → Bool) : Nat := (List.range n).foldl (fun m i => if p i then setBit m i else m) 0

/-! ### Identity, global control, rings (17, 19) -/

/-- UCI_IDENT. -/
def State.ident (s : State) : Nat := fields [(0, 0x57E1), (16, 0x5309), (32, s.fuse.grade % 256), (40, s.fuse.stepping % 256)]

/-- UCI_BOOT_STATUS. -/
def State.bootStatus (s : State) : Nat :=
  fields [flag 31 s.boot.done, flag 30 s.boot.failed, (20, s.boot.fail), (8, s.boot.recBad), (0, s.boot.phase)]

/-- UCI_CRINGr_CTL. -/
def CRing.ctl (k : CRing) : Nat := fields [flag 31 k.en, (24, k.err), (20, k.state), flag 12 k.prio, (8, k.evt), (0, k.log2)]

/-- The identity and global control block. -/
def State.regUci (s : State) (o : Nat) : Option (Nat × Nat) :=
  if o = 0x00 then some (8, s.ident)
  else if o = 0x10 then some (4, fields [(4, s.boot.modules), flag 0 s.boot.rate])
  else if o = 0x18 then some (8, s.boot.replays)
  else if o = 0x20 then some (4, s.bootStatus)
  else if o = 0x28 then some (4, 0)
  else if 0x1000 ≤ o ∧ o < 0x1800 then
    let k := s.cring ((o - 0x1000) / 32)
    match o % 32 with
    | 0x00 => some (8, k.base)
    | 0x08 => some (4, k.ctl)
    | 0x0C => some (4, k.head)
    | 0x10 => some (4, k.tail)
    | _ => none
  else if 0x2000 ≤ o ∧ o < 0x2100 then
    let k := s.ering ((o - 0x2000) / 32)
    match o % 32 with
    | 0x00 => some (8, k.base)
    | 0x08 => some (4, fields [flag 31 k.en, (0, k.log2)])
    | 0x0C => some (4, k.head)
    | 0x10 => some (4, k.tail)
    | 0x14 => some (4, fields [flag 31 k.intEn, flag 30 k.armed, (0, k.vector)])
    | 0x18 => some (8, k.lost)
    | _ => none
  else if 0x10000 ≤ o ∧ o < 0x18000 ∧ o % 0x1000 < 0x40 ∧ o % 8 = 0 then some (8, 0)
  else none

/-! ### Clock and regions (16, 07, 09, 19) -/

/-- CLK_HOLD_STATUS. -/
def State.holdStatus (s : State) : Nat :=
  fields [(16, bitsOf 16 (fun r => s.fuse.ring.all (fun c => regionOf c != r || (s.core c).stopped.isSome))),
    flag 9 s.hold.release.isSome, flag 8 s.hold.episode,
    (0, bitsOf 7 (fun c => s.anyRaised.contains c || (c == 6 && s.fuse.ring.any (fun x => (s.core x).issuing && (s.core x).stepping))))]

/-- CLK_REGr_STATUS, GAUGE and STRETCH. -/
def Region.status (g : Region) : Nat :=
  fields [(24, g.temp), (16, g.top), (8, g.step), flag 3 g.stopped, flag 2 g.duty, flag 1 g.jit]

/-- CLK_BNDb_LAT: the largest calibrated latency at the present step, 0 before calibration (R524). -/
def State.bndLat (s : State) (b : Nat) : Nat :=
  if s.boot.started then fields [(4, s.latency (sides b).2 (sides b).1), (0, s.latency (sides b).1 (sides b).2)] else 0

/-- The clock block. -/
def State.regClk (s : State) (o : Nat) : Option (Nat × Nat) :=
  let c := s.clk
  if 0x110 ≤ o ∧ o < 0x148 ∧ o % 8 = 0 then some (8, Sparse.get 0 s.hold.cause ((o - 0x110) / 8))
  else if 0x200 ≤ o ∧ o < 0x300 then
    let g := s.region ((o - 0x200) / 16)
    match o % 16 with
    | 0 => some (4, g.status)
    | 4 => some (4, fields [(8, g.drift), flag 3 g.exhausted, (0, g.topCal)])
    | 8 => some (8, fields [(32, g.denied), (0, g.stretched)])
    | _ => none
  else if 0x300 ≤ o ∧ o < 0x358 ∧ o % 4 = 0 then some (4, s.bndLat ((o - 0x300) / 4))
  else match o with
    | 0x00 => some (4, fields [flag 8 c.refSrc, (0, c.refPort)])
    | 0x04 => some (4, fields [flag 16 c.switching, flag 8 c.useSrc, (0, c.usePort)])
    | 0x08 => some (8, s.epoch % 2 ^ 64)
    | 0x10 => some (4, fields [flag 15 s.mixed, (8, s.dieTop), (0, (s.region 0).step)])
    | 0x14 => some (4, c.cfg)
    | 0x20 => some (4, fields [(8, c.fchgRing), (4, c.fchgCfg), (0, c.fchgStep)])
    | 0x28 => some (8, c.fchgN)
    | 0x30 => some (4, fields [flag 31 c.change.isSome, flag 30 c.fchgHw, (4, c.fchgResult), flag 0 c.fchgDone])
    | 0x38 => some (4, fields [flag 30 c.ecfBusy, (24, c.ecfResult), (8, c.ecfStep), (0, c.ecfRegion)])
    | 0x40 => some (4, c.enCrm)
    | 0x44 => some (4, c.enGrb)
    | 0x48 => some (4, c.enMisc)
    | 0x100 => some (4, fields [flag 1 s.hold.freeze])
    | 0x104 => some (4, s.holdStatus)
    | 0x108 => some (8, s.hold.total)
    | 0x148 => some (8, s.hold.episodes)
    | 0x150 => some (4, s.hold.skewMax)
    | 0x160 => some (8, fields ((List.range 16).map (fun i => (4 * i, s.fuse.excessOf i))))
    | 0x168 => some (8, fields ((List.range 9).map (fun j => (4 * j, s.fuse.excessOf (16 + j)))))
    | 0x180 => some (8, c.gaugeEpoch)
    | _ => none

/-! ### Core windows (03, 06, 07, 09, 10) -/

/-- CORE_RING. -/
def State.coreRing (s : State) (c : Nat) : Nat :=
  let act := s.fuse.active c
  let inj := s.fuse.injQuarter c
  fields [flag 31 act, flag 30 inj.isSome, (28, inj.getD 0), (26, quarterOf c), (22, regionOf c), (8, threadOf c),
    (0, if act then s.fuse.pos c else 255)]

/-- CORE_LADLE_Qn. -/
def State.ladleReg (s : State) (c n : Nat) : Nat :=
  let q := s.queue c n
  let inj := (s.core c).injq.filter (fun i => !i.landed)
  let asked := (inj.filter (fun i => i.asked)).length
  let n7 := n == 7 && (s.fuse.injQuarter c).isSome
  fields [(30, s.queueOwner c n), (16, if n7 then inj.length - asked else min 64 q.waiting.length),
    (8, if n7 then asked else min 64 q.out.length), (0, s.queueLimit c n)]

/-- The window of core c (R652). -/
def State.regCore (s : State) (c o : Nat) : Option (Nat × Nat) :=
  let k := s.core c
  if o = 0 then some (4, s.coreRing c)
  else if 0x10 ≤ o ∧ o < 0x20 ∧ o % 4 = 0 then some (4, (Sparse.get 0 s.fuse.repair (4 * c + (o - 0x10) / 4)).toNat &&& 0xBFBFBFBF)
  else if !s.fuse.active c then none
  else if 0x40 ≤ o ∧ o < 0x60 ∧ o % 4 = 0 then some (4, s.ladleReg c ((o - 0x40) / 4))
  else if 0x88 ≤ o ∧ o < 0xC0 ∧ o % 8 = 0 then some (8, Sparse.get 0 k.holdCause ((o - 0x88) / 8))
  else if 0x400 ≤ o ∧ o < 0x800 ∧ o % 4 = 0 then some (4, Sparse.get 0 k.sems ((o - 0x400) / 4))
  else match o with
    | 0x20 => some (4, k.churnErr)
    | 0x24 => some (4, k.vecErr)
    | 0x28 => some (4, k.spadErr)
    | 0x2C => some (4, k.spadErrAddr)
    | 0x60 => some (4, k.ladleErr)
    | 0x64 => some (4, k.ladleErrTag)
    | 0x80 => some (8, k.holdTotal)
    | 0xC0 => some (8, k.sched % 2 ^ 64)
    | 0xC8 => some (8, k.hazard.toNat)
    | 0xD0 => some (8, k.hazardCount)
    | 0xD8 => some (4, k.hazardDetail.toNat)
    | 0xE0 => some (4, k.semErr)
    | _ => none

/-! ### Memory block (12) -/

/-- MEM_ERR_ADDR. -/
def MemUnit.errWord (u : MemUnit) : Nat := match u.errAddr with
  | some (k, a) => fields [(63, 1), (61, k), (0, a)]
  | none => 0

/-- The memory block. -/
def State.regMem (s : State) (o : Nat) : Option (Nat × Nat) :=
  let m := s.maint
  if o < 0x9000 then
    let u := s.unit (o / 0x1000)
    let bt := decide (0x8000 ≤ o)
    let x := o % 0x1000
    if 0x20 ≤ x ∧ x < 0x50 ∧ x % 8 = 0 then some (8, Sparse.get 0 u.cnt ((x - 0x20) / 8))
    else if x = 0x10 then some (8, u.errWord)
    else if bt then match x with
      | 0x0 => some (4, u.cfg)
      | 0x4 => some (4, fields [(16, u.chFail), flag 0 u.ready])
      | 0x8 => some (8, if u.ready then u.cap else 0)
      | _ => none
    else match x with
      | 0x0 => some (4, fields [(16, u.temp), flag 5 u.ref2x, flag 4 u.quiesced, (2, u.rate), flag 0 u.ready])
      | 0x4 => some (4, fields [flag 0 u.quiesce])
      | _ => none
  else match o with
    | 0xF000 => some (4, s.memEccCtl)
    | 0xF100 => some (4, fields [(5, m.stack), (1, m.cmd)])
    | 0xF108 => some (8, fields [(32, m.row), (8, m.bank), (0, m.pc)])
    | 0xF110 => some (8, m.data.toNat)
    | 0xF118 => some (4, fields [(16, m.remaining), (4, m.result), flag 1 m.done, flag 0 m.busy])
    | _ => none

/-! ### Griby block (15, 10) -/

/-- A port's registers. -/
def Port.reg (p : Port) (x : Nat) : Option (Nat × Nat) :=
  if 0x10 ≤ x ∧ x < 0x40 ∧ x % 8 = 0 then some (8, Sparse.get 0 p.cnt ((x - 0x10) / 8))
  else match x with
    | 0x0 => some (4, fields [(8, p.laneInv), flag 0 p.upReq])
    | 0x4 => some (4, fields [(24, p.rtt), flag 23 (decide (p.rtt ≤ 64) && p.state == 2), (16, p.failCause), (0, p.state)])
    | 0x8 => some (8, p.farWord)
    | _ => none

/-- The Griby block. -/
def State.regGrb (s : State) (o : Nat) : Option (Nat × Nat) :=
  if o < 0x1800 then if bitOf s.clk.enGrb (o / 0x100) then (s.port (o / 0x100)).reg (o % 0x100) else none
  else if 0xE000 ≤ o ∧ o < 0xE080 ∧ o % 8 = 0 then
    let w := Sparse.get (false, 0) s.pwin ((o - 0xE000) / 8)
    some (8, fields [flag 63 w.1, (0, w.2)])
  else if o = 0xF000 then some (4, s.tmoExp)
  else if o = 0xF008 then some (4, s.grbCtl)
  else if o = 0xF010 then some (4, fields [(16, s.incarn), flag 15 s.grbSelfValid, (0, s.grbSelf)])
  else if 0x20000 ≤ o ∧ o < 0x40000 ∧ o % 8 = 0 then some (8, (Sparse.get 0 s.peers ((o - 0x20000) / 8)).toNat)
  else none

/-! ### Creamery, Press, Cellar (13, 14, 11) -/

/-- A check-value unit's registers. -/
def Cv.read (v : Cv) (x : Nat) : Option (Nat × Nat) :=
  match x with
  | 0x00 => some (4, fields [(16, v.core), (8, v.queue), (4, v.fold), (2, v.src), (0, v.poly)])
  | 0x08 => some (8, v.seq.toNat)
  | 0x10 => some (8, if v.opened then crcValue v.poly v.reg else 0)
  | 0x18 => some (4, 0)
  | 0x1C => some (4, 0)
  | 0x20 => some (4, 0)
  | 0x28 => some (8, v.resBase)
  | 0x30 => some (4, fields [flag 2 v.par, flag 1 v.feedErr, flag 0 v.opened])
  | _ => none

/-- The Creamery block. -/
def State.regCrm (s : State) (o : Nat) : Option (Nat × Nat) :=
  if 0x8000 ≤ o ∧ o < 0x8400 then
    if s.cvOn ((o - 0x8000) / 0x100) then (s.cv ((o - 0x8000) / 0x100)).read (o % 0x100) else none
  else match o with
    | 0x00 => some (4, bitsOf 32 (fun e => (s.engine e).cmd != 0))
    | 0x04 => some (4, fields [flag 16 s.epochCmd.isSome, (0, min s.ingestQ.length 0xFFFF)])
    | 0x08 => some (4, s.crmErr)
    | 0x10 => some (8, fields [(32, s.clipsDropped), (0, s.clipsWritten)])
    | _ => none

/-- PRS_GRPn. -/
def PressGroup.word (g : PressGroup) : Nat := fields [(32, g.gen), (17, g.p), (3, g.self), flag 1 g.failed, flag 0 g.valid]

/-- The Press block. -/
def State.regPrs (s : State) (o : Nat) : Option (Nat × Nat) :=
  let p := s.press
  if 0x100 ≤ o ∧ o < 0x180 ∧ o % 8 = 0 then some (8, (Sparse.get {} p.groups ((o - 0x100) / 8)).word)
  else if 0x200 ≤ o ∧ o < 0x238 ∧ o % 8 = 0 then some (8, Sparse.get 0 p.cnt ((o - 0x200) / 8))
  else match o with
    | 0x00 => some (4, p.tmoExp)
    | 0x04 => some (4, fields [(16, bitsOf 4 s.pressBusy), (0, p.jobs.length)])
    | 0x08 => some (4, p.err)
    | 0x10 => some (8, match p.skimFirst with
      | some (t, b) => fields [(63, 1), (30, t), (0, b)]
      | none => 0)
    | _ => none

/-- A bind or a re-placement is computing, building tables or moving contents (CEL_STATUS): not one that only waits for its boundary, where
    the new placement is first computed (R352, R355). -/
def State.celBusy (s : State) : Bool := match s.ctx with
  | some x => x.kind != 2
  | none => false

/-- The Cellar block. -/
def State.regCel (s : State) (o : Nat) : Option (Nat × Nat) :=
  let r := Sparse.get {} s.rsv ((o - 0x100) / 16)
  if o = 0 then some (4, fields [(8, match s.prog with
    | some p => p.tb
    | none => 0), flag 1 s.prog.isSome, flag 0 s.celBusy])
  else if 0x100 ≤ o ∧ o < 0x180 ∧ o % 16 = 0 then some (8, fields [flag 63 r.en, (0, r.start)])
  else if 0x100 ≤ o ∧ o < 0x180 ∧ o % 16 = 8 then some (8, r.stop)
  else none

/-! ### Management space (21 R642) -/

/-- n little-endian bytes at offset o of an item at offset base. -/
def itemByte (base v n o : Nat) : Option Byte := if base ≤ o ∧ o < base + n then some (BitVec.ofNat 8 (v / 2 ^ (8 * (o - base)))) else none

/-- Byte o of rail i. -/
def Mgmt.railByte (g : Mgmt) (o : Nat) : Byte :=
  let r := g.rails.getD (o / 16) (0, 0, 0, 0)
  BitVec.ofNat 8 (fields [(0, r.1 % 2 ^ 16), (16, r.2.1 % 2 ^ 16), (32, r.2.2.1 % 2 ^ 32), (64, r.2.2.2 % 2 ^ 64)] / 2 ^ (8 * (o % 16)))

/-- The byte at an offset of the management space; reserved offsets read as zero. -/
def State.mgmtByte (s : State) (o : Nat) : Byte :=
  if 0x40 ≤ o ∧ o < 0xC0 then s.mgmt.railByte (o - 0x40)
  else if 0x20 ≤ o ∧ o < 0x30 then BitVec.ofNat 8 (s.region (o - 0x20)).temp
  else if 0x30 ≤ o ∧ o < 0x38 then BitVec.ofNat 8 (s.unit (o - 0x30)).temp
  else (((itemByte 0 s.ident 8 o).or (itemByte 8 s.fuse.serial.toNat 8 o)).or
    ((itemByte 0x10 s.bootStatus 4 o).or ((itemByte 0x18 s.epoch 8 o).or
      (itemByte 0xC0 (s.mgmt.rails.map (fun r => r.2.2.1)).sum 4 o)))).getD 0

/-- n bytes of it. -/
def State.mgmtBytes (s : State) (o n : Nat) : List Byte := (List.range n).map (fun i => s.mgmtByte (o + i))

/-- The security and management block (21). w: the access's width, which the management space admits as 4 or 8. -/
def State.regSec (s : State) (o w : Nat) : Option (Nat × Nat) :=
  let c := s.sec
  let digest := fun (l : List Byte) (i : Nat) => leAt l (8 * i) 8
  if 0x1000 ≤ o ∧ o + w ≤ 0x10C4 then
    if (w = 4 ∨ w = 8) ∧ o % w = 0 then some (w, leNat (s.mgmtBytes (o - 0x1000) w)) else none
  else if 0x10 ≤ o ∧ o < 0x30 ∧ o % 8 = 0 then some (8, (c.nonce.getD ((o - 0x10) / 8) 0).toNat)
  else if 0x100 ≤ o ∧ o < 0x280 ∧ o % 8 = 0 then
    some (8, leNat ((List.range 8).map (fun i => Sparse.get 0 s.fuse.pubkey (o - 0x100 + i))))
  else if 0x300 ≤ o ∧ o < 0x320 ∧ o % 8 = 0 then some (8, digest (c.bootDigest.getD []) ((o - 0x300) / 8))
  else if 0x320 ≤ o ∧ o < 0x340 ∧ o % 8 = 0 then some (8, s.fuse.bootKeyDigest.toNat / 2 ^ (8 * (o - 0x320)) % 2 ^ 64)
  else match o with
    | 0x00 => some (4, 0)
    | 0x04 => some (4, fields [(12, c.bootResult), flag 9 c.bootDone, flag 8 c.bootBusy, (4, c.attResult), flag 1 c.attDone,
        flag 0 c.attBusy])
    | 0x30 => some (8, c.attAddr)
    | 0x38 => some (8, c.bootAddr)
    | 0x40 => some (8, s.fuse.serial.toNat)
    | _ => none

/-! ### Test block (20, 10, 15) -/

/-- A core has a non-zero error bit (TST_CORE_ERRk). -/
def Core.anyErr (k : Core) : Bool :=
  k.churnErr != 0 || k.vecErr % 4 != 0 || k.spadErr != 0 || k.ladleErr % 2 ^ 24 != 0 || k.semErr % 8 != 0

/-- 64 bits of a set of 160. -/
def slice160 (v : BitVec 160) (k : Nat) : Nat := v.toNat / 2 ^ (64 * k) % 2 ^ 64

/-- TST_ERR_SUMMARY. -/
def State.errSummary (s : State) : Nat :=
  fields [
    flag 8 (s.fuse.ring.any (fun c => bitOf (s.core c).hazard.toNat 31)), flag 7 s.dld.fired, flag 6 (s.gsemErr % 4 != 0),
    flag 5 (s.meshRegs.err / 256 % 4 != 0), flag 4 (s.press.err != 0),
    flag 3 (s.crmErr != 0 || (List.range 4).any (fun n => s.cvOn n && ((s.cv n).par || (s.cv n).feedErr))),
    flag 2 ((List.range 24).any (fun n => bitOf s.clk.enGrb n && (s.port n).state == 3)),
    flag 1 ((List.range 9).any (fun u => (s.unit u).errAddr.isSome)),
    flag 0 ((List.range 160).any (fun c => (s.core c).anyErr))]

/-- The test block. -/
def State.regTst (s : State) (o : Nat) : Option (Nat × Nat) :=
  let m := s.meshRegs
  let d := s.dld
  if 0x10 ≤ o ∧ o < 0x28 ∧ o % 8 = 0 then
    some (8, bitsOf 64 (fun i => decide (8 * (o - 0x10) + i < 160) && (s.core (8 * (o - 0x10) + i)).anyErr))
  else if 0x310 ≤ o ∧ o < 0x328 ∧ o % 8 = 0 then some (8, slice160 s.fuse.routerFail ((o - 0x310) / 8))
  else if 0x330 ≤ o ∧ o < 0x348 ∧ o % 8 = 0 then some (8, slice160 m.decl ((o - 0x330) / 8))
  else if 0x1000 ≤ o ∧ o < 0x2000 ∧ o % 4 = 0 then some (4, Sparse.get 0 s.gsems ((o - 0x1000) / 4))
  else match o with
    | 0x000 => some (4, s.errSummary)
    | 0x100 => some (4, s.gsemErr)
    | 0x200 => some (4, fields [flag 31 d.en, (8, d.ring), (0, d.k)])
    | 0x204 => some (4, fields [(16, d.fires), flag 0 d.fired])
    | 0x208 => some (8, d.snap)
    | 0x300 => some (4, fields [flag 0 (m.service || m.refuse != 0)])
    | 0x304 => some (4, fields [flag 8 m.updown, (4, m.refuse), (0, if m.service then 2 else if m.refuse != 0 then 3 else 0)])
    | 0x350 => some (4, m.err)
    | 0x360 => some (8, m.cnt0)
    | 0x368 => some (8, m.cnt1)
    | 0x400 => some (8, match s.lbStatus with
      | some (l, x) => fields [(63, 1), (32, l), (0, x)]
      | none => 0)
    | 0x410 => some (4, s.reflect)
    | _ => none

/-! ### The aperture -/

/-- Blocks that answer before DONE (R594, R651). -/
def State.answers (s : State) (o : Nat) : Bool := s.boot.done || decide (o < 0x200000) || decide (0xA00000 ≤ o)

/-- The register at an offset as an access of w bytes finds it: its width and contents; none where the access completes as a
    bus error (R9, R498, R646, R651, R652). -/
def State.reg (s : State) (o w : Nat) : Option (Nat × Nat) :=
  if !s.answers o then none
  else if o < 0x100000 then s.regUci o
  else if o < 0x200000 then s.regClk (o - 0x100000)
  else if o < 0x2A0000 then s.regCore ((o - 0x200000) / 0x1000) ((o - 0x200000) % 0x1000)
  else if 0x400000 ≤ o ∧ o < 0x500000 then s.regMem (o - 0x400000)
  else if 0x500000 ≤ o ∧ o < 0x600000 then s.regGrb (o - 0x500000)
  else if 0x600000 ≤ o ∧ o < 0x700000 then s.regCrm (o - 0x600000)
  else if 0x700000 ≤ o ∧ o < 0x800000 then s.regPrs (o - 0x700000)
  else if 0x800000 ≤ o ∧ o < 0x900000 then s.regCel (o - 0x800000)
  else if 0x900000 ≤ o ∧ o < 0xA00000 then s.regSec (o - 0x900000) w
  else if 0xA00000 ≤ o ∧ o < 0xB00000 then s.regTst (o - 0xA00000)
  else none

/-- The offset is in the core windows. -/
def inCores (o : Nat) : Bool := decide (0x200000 ≤ o) && decide (o < 0x2A0000)

/-- An access to a core's window waits while the clock of the core's region is stopped (R650). -/
def State.regWaits (s : State) (o : Nat) : Bool :=
  inCores o && (Sparse.get {} s.regions (regionOf ((o - 0x200000) / 0x1000))).stopped

/-- What a read of w bytes at an offset returns: the register's contents where the width is its own, else all ones with the error (R8, R9).
    None while it waits: for its region's clock, or for an earlier write to the core windows that has not taken effect (R16, R650). -/
def State.regRead (s : State) (o w : Nat) : Option (Nat × Nat) :=
  if s.regWaits o || (inCores o && !s.cfgWait.isEmpty) then none
  else match s.reg o w with
    | some (n, v) => some (if n = w then (0, v) else (1, 2 ^ (8 * w) - 1))
    | none => some (1, 2 ^ (8 * w) - 1)

end Sys2Proof.Machine
end

