-- ==== Sys2Proof/Machine/HostMem.lean ====
section
/-! DEFINITION. The host's memory transactions over UCIe (17 R528 to R532, 12 R374, 20 R616). -/

namespace Sys2Proof.Machine

/-- A host transaction's target: trained stacks, the Bulk tank in service, an active core's scratchpad (R529). -/
def State.hostTarget (s : State) (a n : Nat) : Bool :=
  decide (1 ≤ n) && s.rangeOkDev false a (a + n - 1) && !inHost a && !inPeer a
  && (decide (0x0C000000000 ≤ a) || (s.unit (unitOf a)).ready)

/-- A transaction stays in one 256-byte unit (R528). -/
def oneUnit (a n : Nat) : Bool := decide (1 ≤ n) && decide (a / 256 = (a + n - 1) / 256)

/-- A host access uses the wide ports of the banks of a scratchpad that it touches, in this period (R208). -/
def State.useBanks (s : State) (a n : Nat) : State :=
  if inSpad a then
    let c := (a - 0x20000000000) / 0x04000000
    { s with hostBanks := (s.hostBanks ++ [32 * c + bankOf (a - spadBase c), 32 * c + bankOf (a + n - 1 - spadBase c)]).eraseDups }
  else s

/-- MEMORY_READ: n bytes at a, 32 to 256, naturally aligned; ERR 1 where the target does not exist, 2 with the stored bits
    where a byte is marked (R528 to R531, R616). It crosses the mesh in service mode only (R460), and waits for a bank's wide port, a quiesced
    stack and room for its response (R380, R455, R530). -/
def execMemoryRead (a n : Nat) (way : ReadWay) (s : State) :
    Host.Outcome State Fault Refusal := live s <|
  .next (if !s.hostAlive then s
    else if !s.hostTarget a n || !oneUnit a n || decide (n < 32) || n &&& (n - 1) != 0 || a % n != 0 then
      s.emit (.reply 1 (List.replicate n 0xFF))
    else if !s.meshRegs.service || s.busyAt a n || !s.hasRoom (portOf a) 1 then s
    else if way.lost then s.meshError true way.router 1
    else
      let s1 := s.upset way.upset
      let r := ((s1.noteRead a n).useBanks a n).payload (s1.mbytesAt a n) way.bad way.router
      r.1.emit (.reply (if anyMarked r.2 then 2 else 0) (r.2.map Prod.fst)))

/-- Runs of enabled bytes: address and data. -/
def enabledRuns (a : Nat) (data : List (Option MByte)) : List (Nat × List MByte) :=
  data.zipIdx.filterMap (fun p => p.1.map (fun b => (a + p.2, [b])))

/-- Bytes of the word at 8w in the order of memory, each the written one where enabled. -/
def State.mergedWord (s : State) (a : Nat) (data : List (Option MByte)) (w : Nat) : List MByte :=
  (List.range 8).map (fun j =>
    let x := 8 * w + j
    match (if a ≤ x then (data.getD (x - a) none) else none) with
    | some b => b
    | none => (s.byteAt x, false))

/-- A write of fewer than 8 bytes of a word reads it first; a bad word is written back marked (R374). -/
def State.hostWord (a : Nat) (data : List (Option MByte)) (s : State) (w : Nat) : State :=
  let n := ((List.range 8).filter (fun j => a ≤ 8 * w + j && (data.getD (8 * w + j - a) none).isSome)).length
  if n = 0 then s
  else
    let s1 := if n < 8 then s.wordRead w else s
    let bad := decide (n < 8) && decide (2 ≤ Sparse.get 0 s1.ecc w)
    let ws := s1.mergedWord a data w
    let s2 := s1.storeBytes (8 * w) ws
    let s3 := if anyMarked ws then s2.wordPoisoned w else s2
    let s4 := if bad then { s3 with ecc := Sparse.set 0 s3.ecc w 3 } else s3
    s4.setUnit (unitOf a) ((s4.unit (unitOf a)).bump 4 n)

/-- Enabled bytes of a host write as they pass a router (R464). -/
def State.hostPayload (s : State) (data : HostData) (way : Way) : State × List (Option MByte) :=
  let r := s.payload (data.bytes.map (fun b => (b.getD 0, false))) way.bad way.router
  (r.1, (data.bytes.zip r.2).map (fun p => p.1.map (fun b => (b, data.poison || p.2.2))))

/-- MEMORY_WRITE: up to 256 bytes at a with byte enables (R528 to R530, R374, R616). It crosses the mesh as MEMORY_READ does. -/
def execMemoryWrite (a : Nat) (data : HostData) (way : Way) (s : State) : Host.Outcome State Fault Refusal := live s <|
  let n := data.bytes.length
  .next (if !s.hostAlive then s
    else if !s.hostTarget a n || !oneUnit a n then s.emit (.reply 1 [])
    else if !s.meshRegs.service || s.busyAt a n || !s.hasRoom (portOf a) 3 then s
    else if way.lost then s.meshError true way.router 1
    else
      let r := s.hostPayload data way
      if inWordMem a then (((List.range ((a + n + 7) / 8 - a / 8)).map (fun i => a / 8 + i)).foldl (State.hostWord a r.2) r.1).emit (.reply 0 [])
      else (((enabledRuns a r.2).foldl (fun s x => s.noteWrite x.1 x.2) r.1).useBanks a n).emit (.reply 0 []))

end Sys2Proof.Machine
end

