-- ==== Sys2Proof/Machine/Flags.lean ====
section
/-! DEFINITION. Results that are bits: compares and masks, lane reductions, and the order of status codes
(06, 08, 18). -/

namespace Sys2Proof.Machine

/-- A compare: bit i is the comparison in active lane i, 0 in the others (R167). -/
def Core.compare (s : State) (n : Nat) (v : VFields) (p : W32 → W32 → Bool) (c : Nat) (k : Core) : Core :=
  let slots := [v.va.slot, v.vb.slot]
  let m := maskOf (fun i => k.active s.free c n v.mask i && p (k.src s.free c n v.va i) (k.src s.free c n v.vb i))
  let bad := slots.any k.slotPoison || k.maskPois v.mask
  ((k.vecReads s.debug n [VSrc.lanes v.va, VSrc.lanes v.vb] [v.mask]).land n 4 (.mask v.vd m bad)).contract s.fuse 9 n 0

/-- A mask operation on all 128 bits (R246). -/
def Core.maskOp (s : State) (n md ma mb : Nat) (f : BitVec 128 → BitVec 128 → BitVec 128) (c : Nat) (k : Core) : Core :=
  let bad := k.maskPois ma || k.maskPois mb
  ((k.vecReads s.debug n [] [ma, mb]).land n 4 (.mask md (f (k.readMask s.free c n ma) (k.readMask s.free c n mb)) bad)).contract
    s.fuse 9 n 0

/-- One level of the lane tree: neighbours combined, the lower first (R183). -/
def pairUp (f : W32 → W32 → W32) : List W32 → List W32
  | a :: b :: t => f a b :: pairUp f t
  | l => l

/-- The seven levels of the lane tree (R183). -/
def laneTree (f : W32 → W32 → W32) (l : List W32) : W32 :=
  (pairUp f (pairUp f (pairUp f (pairUp f (pairUp f (pairUp f (pairUp f l))))))).headD 0

/-- A lane reduction of A, written to every lane (R183 to R186). -/
def Core.reduce (s : State) (n : Nat) (v : VFields) (f : List (Bool × W32) → W32) (c : Nat) (k : Core) : Core :=
  let l := (List.range 128).map (fun i => (k.active s.free c n v.mask i, k.src s.free c n v.va i))
  let bad := k.slotPoison v.va.slot || k.maskPois v.mask
  ((k.vecReads s.debug n [VSrc.lanes v.va] [v.mask]).land n 10
    (.slot v.vd (BitVec.allOnes 128) (List.replicate 128 (f l)) bad)).contract s.fuse 12 n 0

/-- The tree with the identity in inactive lanes (R185). -/
def treeOf (ident : W32) (f : W32 → W32 → W32) (l : List (Bool × W32)) : W32 :=
  laneTree f (l.map (fun p => if p.1 then p.2 else ident))

/-- The index of the maximum (R187). -/
def indexOfMax (l : List (Bool × W32)) : W32 :=
  let z := l.zipIdx
  match z.find? (fun p => p.1.1 && isNaN32 p.1.2) with
  | some p => BitVec.ofNat 32 p.2
  | none =>
    let best := z.foldl (fun (b : Option (Int × Nat)) p =>
      if p.1.1 then
        match b with
        | none => some (ordKey p.1.2, p.2)
        | some q => if q.1 < ordKey p.1.2 then some (ordKey p.1.2, p.2) else some q
      else b) none
    match best with
    | some q => BitVec.ofNat 32 q.2
    | none => BitVec.ofInt 32 (-1)

/-- Set bits of a mask (R256). -/
def maskCount (m : BitVec 128) : Nat := ((List.range 128).filter (fun i => m.getLsbD i)).length

/-! ### Status codes (R561, R562) -/

/-- The order in which one STATUS is chosen among conditions (R562). -/
def statusOrder : List Nat :=
  [0x21, 0x22, 0x20, 0x03, 0x51, 0x50, 0x30, 0x31, 0x32, 0x33, 0x02, 0x01, 0x05, 0x52]

/-- STATUS of a command with several conditions (R562); 0 with none. -/
def statusOf (l : List Nat) : Nat := (statusOrder.find? (fun c => l.contains c)).getD 0

/-- Status codes named by the CONDITIONS bits of a run (R587). Bit 3 has the codes of the outcomes themselves. -/
def condStatus (cond : Nat) : List Nat :=
  (if bitOf cond 0 then [0x05] else []) ++ (if bitOf cond 1 then [0x02] else []) ++ (if bitOf cond 2 then [0x01] else []) ++
  (if bitOf cond 4 then [0x22] else []) ++ (if bitOf cond 5 then [0x20] else []) ++ (if bitOf cond 6 then [0x21] else [])

end Sys2Proof.Machine
end

