-- ==== Sys2Proof/Machine/Move.lean ====
section
/-! DEFINITION. The move slot and MOP's issue (08 R239 to R243, R256 to R258). -/

namespace Sys2Proof.Machine

/-- MOP: the array operation reaches the arrays named, with the stream registers as they are now (R239 to R243). -/
def execMop (n : Nat) (last : Bool) (mode arrays : Nat) (acc : Bool) (rows as bs ut stride su : Nat) (s : State) :
    Host.Outcome State Fault Refusal :=
  fetched s n (mopWord mode arrays acc rows as bs ut stride su) <|
  .next (s.slot n last fun s c k =>
    let reads := if mode = 2 then [(4, as), (4, bs), (0, su)] else [(4, as)]
    ((k.checkReads s.debug n reads).push n n (.mop ⟨mode, arrays, acc, rows, k.readStream s.free c n as,
      if mode = 2 then k.readStream s.free c n bs else {}, ut, stride, if mode = 2 then (k.readS s.free c n su).toNat else 0, n⟩)).contract s.fuse 3 n 0)

/-- MOP_QUEUE_START: in the cycle after the running operation's last row, the queued MOP starts (R243). -/
def execMopQueueStart (n : Nat) (s : State) : Host.Outcome State Fault Refusal := live s <|
  .next (s.mapCores (fun c k =>
    if k.sched = n ∧ k.stopped = none then (List.range 4).foldl (s.startQueued c n) k else k))

/-- FILL (R170, R171, R256): unit k is read at count n + k, the slot is readable 8 counts after the last. -/
def execFill (n : Nat) (last : Bool) (slot : Nat) (laneBase c128 : Bool) (fmt sa : Nat) (s : State) :
    Host.Outcome State Fault Refusal :=
  fetched s n (fillWord slot laneBase c128 fmt sa) <|
  .next (s.slot n last fun s c k =>
    let start := (k.readS s.free c n sa).toNat % 2 ^ 25
    let count := if c128 then 128 else 64
    ((k.checkReads s.debug n [(0, sa)]).push n n (.fillUnit
      { slot := slot, base := if laneBase then 64 else 0, count := count, fmt := fmt, start := start, unit := 0,
        units := fillUnits fmt count start, got := [], poison := false })).contract s.fuse 3 n 0)

/-- STORE (R257, R258): refused, it writes nothing, does not signal and sets the address-error condition; else line i
    is taken at n + 2 + i, and a local line written at n + 4 + i + X. -/
def execStore (n : Nat) (last : Bool) (tmpl sa src sb : Nat) (loc : Bool) (sem : Nat) (sig : Bool) (s : State) :
    Host.Outcome State Fault Refusal :=
  fetched s n (storeWord tmpl sa src sb loc sem sig) <|
  .next (s.slot n last fun s c k =>
    match s.prog.bind (fun p => p.templates[tmpl]?) with
    | none => k
    | some t =>
      let k := k.checkReads s.debug n ((if t.srcVec then [] else [(0, sa)]) ++ [(0, sb)])
      let base := if loc then (k.readS s.free c n sb).toNat % 2 ^ 25 else (k.readS s.free c n sb).toNat % 2 ^ 52
      if s.storeRefused c t loc base then { k with cond := setBit k.cond 1 }
      else
        let st : StoreOp :=
          { id := n, tmpl := t, src := if t.srcVec then src else src % 4 + 4 * ((k.readS s.free c n sa).toNat % 2048),
            base := base, loc := loc, sem := sem, sig := sig, refused := false
            peer := if !loc && inPeer base then some (Sparse.get (false, 0) s.pwin ((base - 0x400000000000) / 0x40000000000)).2 else none }
        let k := { k with stores := k.stores ++ [st] }
        let k := (k.push (n + 2) n (.storeTake n 0)).contract s.fuse 20 n 0
        if loc then (k.push (n + 4 + t.lateBy) n (.storeWrite n 0)).contract s.fuse 21 n t.lateBy else k)

/-- STORE_SIGNAL: every write of the store is acknowledged, the last in an earlier cycle; 1 is added to its semaphore (R257, R315). -/
def execStoreSignal (core id : Nat) (s : State) : Host.Outcome State Fault Refusal := live s <|
  let k := s.core core
  .next (match k.getStore id with
    | some st =>
      if st.sent && st.outst == 0 && st.sig && decide (st.doneAt < s.epoch) then
        ((s.setCore core { k with stores := k.stores.filter (fun x => x.id != id) }).csemChange core st.sem 1).waitsMet
      else s
    | none => s)

/-- MOVSV: one lane from S[SA][31:0], readable 2 counts later (R256); a fill write (R172). -/
def execMovsv (n : Nat) (last : Bool) (slot lane sa : Nat) (s : State) : Host.Outcome State Fault Refusal :=
  fetched s n (movWord 3 slot lane sa) <|
  .next (s.slot n last fun s c k =>
    ((k.checkReads s.debug n [(0, sa)]).land n 2 (.fill slot lane [(k.readS s.free c n sa).setWidth 32] false)).contract s.fuse 6 n 0)

/-- MOVVS: one lane, zero-extended, readable 4 counts later (R256). -/
def execMovvs (n : Nat) (last : Bool) (slot lane sd : Nat) (s : State) : Host.Outcome State Fault Refusal :=
  fetched s n (movWord 4 slot lane sd) <|
  .next (s.slot n last fun s c k =>
    ((k.vecReads s.debug n [(slot, some lane)] []).land n 4 (.sreg false sd ((k.lane s.free c n slot lane).setWidth 64))).contract s.fuse 7 n 0)

/-- SETAS: base, pitches and format, usable from the next count (R256). -/
def execSetas (n : Nat) (last : Bool) (as sa sb sc fmt : Nat) (s : State) : Host.Outcome State Fault Refusal :=
  fetched s n (setasWord as sa sb sc fmt) <|
  .next (s.slot n last fun s c k =>
    ((k.checkReads s.debug n [(0, sa), (0, sb), (0, sc)]).land n 1
      (.stream as ⟨(k.readS s.free c n sa).toNat % 2 ^ 25, (k.readS s.free c n sb).setWidth 32,
        (k.readS s.free c n sc).setWidth 32, fmt⟩)).contract s.fuse 5 n 0)

/-- MPOP: the number of set bits, readable 2 counts later (R256). -/
def execMpop (n : Nat) (last : Bool) (mask sd : Nat) (s : State) : Host.Outcome State Fault Refusal :=
  fetched s n (mpopWord mask sd) <|
  .next (s.slot n last fun s c k =>
    ((k.vecReads s.debug n [] [mask]).land n 2 (.sreg false sd (BitVec.ofNat 64 (maskCount (k.readMask s.free c n mask))))).contract
      s.fuse 8 n 0)

end Sys2Proof.Machine
end

