-- ==== Sys2Proof/Machine/Press.lean ====
section
/-! DEFINITION. Press jobs, group tables, messages that arrive for the Press (14, 10 R324 to R326, 18 R572 to R576). -/

namespace Sys2Proof.Machine

/-! ### Delivery (R430, R431, R572, R573) -/

/-- The job that a descriptor describes. -/
def jobOf (d : Desc) (cmd : Nat) : PressJob :=
  let c := fieldAt d 12 2
  let src := fieldAt d 16 8
  let dst := fieldAt d 24 8
  { cmd := cmd, tag := fieldAt d 8 4, group := c % 16, mode := bits c 4 4, sat := bitOf c 5, skim := bits c 9 6, src := src % 2 ^ 52
    srcFmt := bits src 56 52, dst := dst % 2 ^ 52, dstFmt := bits dst 56 52, nb := fieldAt d 32 4, mult := BitVec.ofNat 32 (fieldAt d 36 4)
    armed := true, trigSem := fieldAt d 14 2 % 1024, thresh := fieldAt d 40 4, consume := bitOf c 11
    sig := if bitOf c 12 then some (bitOf c 13, fieldAt d 50 1, fieldAt d 48 2, fieldAt d 44 4) else none }

/-- A range of a job exists, in the stacks or the fitted Bulk tank. -/
def State.pressRange (s : State) (base fmt nb : Nat) : Bool :=
  decide (2 < fmt) || nb == 0 || (inWordMem base && s.rangeOkDev false base (base + nb * lineBytes fmt - 1))

/-- Descriptor faults of R430 and R573. -/
def State.pressFieldsOk (s : State) (d : Desc) (j : PressJob) : Bool :=
  let c := fieldAt d 12 2
  let n := fun (f : Nat) => j.nb * lineBytes f
  let sig := (fieldAt d 44 4, fieldAt d 48 2, fieldAt d 50 1)
  zeroAt d 1 3 && zeroAt d 51 13 && decide (c < 2 ^ 14) && decide (fieldAt d 14 2 < 1024) && decide (fieldAt d 16 8 < 2 ^ 57)
  && decide (fieldAt d 24 8 < 2 ^ 57) && decide (j.srcFmt ≤ 2) && decide (j.dstFmt ≤ 2) && decide (j.skim ≤ 13) && !(j.skim != 0 && j.mode == 1)
  && decide (1 ≤ j.nb) && decide (j.nb ≤ 2 ^ 30) && j.src % 128 == 0 && j.dst % 128 == 0
  && ((j.src == j.dst && n j.srcFmt == n j.dstFmt) || decide (j.src + n j.srcFmt ≤ j.dst) || decide (j.dst + n j.dstFmt ≤ j.src))
  && (s.group j.group).valid && !s.press.jobs.any (fun x => x.group == j.group && x.tag == j.tag)
  && !(f32 j.mult).special
  && (if bitOf c 10 then j.thresh != 0 else fieldAt d 14 2 == 0 && j.thresh == 0 && !j.consume)
  && (if bitOf c 12 then decide (sig.2.1 < (if bitOf c 13 then 1024 else 256)) && (!bitOf c 13 || sig.2.2 == 0)
      else !bitOf c 13 && sig == (0, 0, 0))

/-- Every ground on which a job ends at delivery (R430, R562, R573). -/
def State.pressRefusals (s : State) (d : Desc) (j : PressJob) : List Nat :=
  let addr := !(s.pressRange j.src j.srcFmt j.nb && s.pressRange j.dst j.dstFmt j.nb)
    || (match j.sig with
      | some (false, c, _) => !s.fuse.active c
      | _ => false)
  (if (s.group j.group).failed then [0x50] else []) ++ (if addr then [2] else []) ++ (if s.pressFieldsOk d j then [] else [1])

/-- PRESS_JOB: the ring's head command reserves a slot and starts, or arms a trigger entry, or is refused (R324, R430, R431). -/
def execPressJob (x : PressHead) (s : State) : Host.Outcome State Fault Refusal := live s <|
  .next (s.deliver x.ring .press (fun s d id =>
    let j := { jobOf d id with par := x.par }
    match s.pressRefusals d j with
    | [] =>
      let s := { s with press := { s.press with jobs := s.press.jobs ++ [j] } }
      if bitOf (fieldAt d 12 2) 10 then s else s.pressStart id
    | l => s.complete id l (j.detail 0 0 false)))

/-- TRIGGER_FIRE: the armed entries whose semaphores have reached their thresholds fire, in the order of delivery, each
    after what the one before it consumed (R325); none while a re-placement waits (R354) or the hub's clock is stopped (R518). -/
def execTriggerFire (s : State) : Host.Outcome State Fault Refusal := live s <|
  .next (if s.replacing.isSome || s.semStopped 255 then s
    else (s.press.jobs.filter (fun j => j.armed)).foldl (fun s j =>
      if s.press.jobs.any (fun x => x.cmd == j.cmd && x.armed) && decide (j.thresh ≤ Sparse.get 0 s.gsems j.trigSem) then
        (if j.consume then s.gsemConsume j.trigSem j.thresh else s).pressStart j.cmd
      else s) s)

/-! ### Group tables (R425 to R427, R574 to R576) -/

/-- Entries of a group's LIST. -/
def listOf (b : List Byte) (p : Nat) : List Nat := (List.range p).map (fun i => leAt b (2 * i) 2)

/-- Ring r is blocked by a load of the given row that has not ended. -/
def State.blockedLoad (s : State) (r : Nat) (row : Row) : Option Cmd :=
  match (s.cring r).blocked.bind s.cmd with
  | some c => if rowOf c.desc == some row && c.ended.isNone then some c else none
  | none => none

/-- A delivered load of a Press group table runs once no job names the group (R425, R427, R575); the
    ring neighbours are granted buffer space (R488). -/
def State.groupLoad (s : State) (c : Cmd) : State :=
  let d := c.desc
  let g := fieldAt d 9 1
  let p := fieldAt d 16 2
  let a := fieldAt d 24 8
  let fail := fun (s : State) (e : Nat) => s.complete c.id [e] []
  if s.press.jobs.any (fun j => j.group == g) || s.waitsRange a (2 * p) then s
  else if !s.rangeOkDev false a (a + 2 * p - 1) then fail s 2
  else
    let b := s.readStruct a (2 * p)
    let ring := listOf b.1 p
    if b.2.1 then fail b.2.2 5
    else if !(ring.all (fun x => decide (x < 2 ^ 14)) && allDiff ring && ring.getD (fieldAt d 18 2) 0 == s.grbSelf) then fail b.2.2 0x53
    else
      (State.grantNeighbours { b.2.2 with press := { b.2.2.press with
          groups := Sparse.set {} s.press.groups g { valid := true, gen := fieldAt d 12 4, p := p, ring := ring, self := fieldAt d 18 2 } } }
        ring p (fieldAt d 18 2)).complete c.id [] (detailOf [(4, fieldAt d 12 4), (2, p), (2, fieldAt d 18 2)])

/-- PRESS_GROUP_TABLE_LOAD: ring r's head command is checked and blocks its ring; then, as soon as it can, the table is
    replaced and FAILED cleared (R427, R575). -/
def execPressGroupTableLoad (r : Nat) (s : State) : Host.Outcome State Fault Refusal := live s <|
  .next (match s.blockedLoad r .groupLoad with
    | some c => s.groupLoad c
    | none => s.deliver r .groupLoad (fun s d id =>
      let p := fieldAt d 16 2
      if !(zeroAt d 1 3 && zeroAt d 10 2 && zeroAt d 20 4 && zeroAt d 48 16 && decide (fieldAt d 24 8 < 2 ^ 52)) then s.complete id [1] []
      else if !(decide (fieldAt d 9 1 ≤ 15) && decide (1 ≤ p) && decide (p ≤ 16384) && decide (fieldAt d 18 2 < p) && fieldAt d 24 8 % 32 == 0
          && zeroAt d 32 16) then s.complete id [0x53] []
      else
        let s := s.block id
        match s.cmd id with
        | some c => s.groupLoad c
        | none => s))

/-- A delivered load of the shard group table runs once no bind or re-placement is in progress (R576). -/
def State.shardLoad (s : State) (c : Cmd) : State :=
  let busy := s.replacing.isSome || (match s.ctx with
    | some x => x.kind != 2
    | none => false)
  if busy then s
  else
    ({ s with
        shard := (List.range 4).map (fun i => (fieldAt c.desc (32 + 4 * i) 2, fieldAt c.desc (34 + 4 * i) 2))
        prog := s.prog.map (fun p => { p with shardLoaded := true }) } : State).complete c.id [] []

/-- SHARD_GROUP_TABLE_LOAD: ring r's head command is checked and blocks its ring; then all four axes are replaced at once
    (R565, R575, R576). -/
def execShardGroupTableLoad (r : Nat) (s : State) : Host.Outcome State Fault Refusal := live s <|
  .next (match s.blockedLoad r .shardLoad with
    | some c => s.shardLoad c
    | none => s.deliver r .shardLoad (fun s d id =>
      let axis := fun (i : Nat) => (fieldAt d (32 + 4 * i) 2, fieldAt d (34 + 4 * i) 2)
      if !(zeroAt d 1 3 && zeroAt d 10 2 && zeroAt d 20 4 && zeroAt d 48 16 && decide (fieldAt d 24 8 < 2 ^ 52)) then s.complete id [1] []
      else if !(zeroAt d 9 1 && zeroAt d 12 8 && zeroAt d 24 8 && (List.range 4).all (fun i =>
          decide (1 ≤ (axis i).1) && decide ((axis i).1 ≤ 16384) && decide ((axis i).2 < (axis i).1))) then s.complete id [0x53] []
      else
        let s := s.block id
        match s.cmd id with
        | some c => s.shardLoad c
        | none => s))

/-! ### Lap messages (R435 to R437, R446, R471, R482, R617) -/

/-- Why a message of laps 1 and 2, or any message of a GEN, does not belong to a job: the ABORT_CAUSE (R446). -/
def PressJob.mismatch (j : PressJob) (m : Msg) : Option Nat :=
  if m.addr % 2 ^ 32 ≠ j.gen then some 3
  else if bits m.addr 37 36 ≠ 3 ∧ (m.arg % 2 ^ 30 + 1 ≠ j.nb ∨ bits m.arg 30 30 ≠ j.mode ∨ bits m.arg 35 32 ≠ j.skim) then some 4
  else none

/-- A message that does not belong ends the member's job; a sender of another generation is told by an abort of its own
    (R446, R447; log 25). -/
def State.pressMismatch (s : State) (j : PressJob) (m : Msg) (cause : Nat) : State :=
  let s := s.pressFail j.cmd cause
  if cause = 3 then s.pressCtl m.src 0 m.tag (m.addr % 2 ^ 36) (abortArg j.self 3) [] else s

/-- What is returned of a lap-1 message or of lap-2 records from `block` on, in PRESS_CTL messages of at most 480 bytes: a record each in
    lap 2 (R437, R469; log 25). -/
def State.pressReturn (s : State) (m : Msg) (block : Nat) : State :=
  let size := if bits m.addr 37 36 = 1 then 480 else if bitOf m.arg 30 then 256 else 260
  let each := if bits m.addr 37 36 = 1 then 480 else 1
  (List.range (ceilDiv m.body.length size)).foldl (fun s i =>
    s.pressCtl m.src (bits m.addr 52 38) m.tag m.addr (3 + (block + each * i) * 2 ^ 4) ((m.body.drop (size * i)).take size)) s

/-- The body of the next PRESS header of a port has arrived, a lap's: it is taken, forwarded, refused, returned where the job
    has not started, or processed by f. -/
def State.pressIn (s : State) (x : Rx) (lap block : Nat) (body : List Byte) (f : State → PressJob → Msg → State) : State :=
  match (s.port x.port).headers with
  | [] => s
  | h :: rest =>
    let m := { h with body := markAll false body }
    let job := s.press.jobs.find? (fun j => !j.armed && j.group == bits m.addr 35 32 && j.tag == m.tag)
    let wait := m.dst == s.grbSelf && (match job with
      | some j => lap != 3 && s.chunkWaits j (bits m.addr 52 38)
      | none => false)
    if h.kind != 2 || bits h.addr 37 36 != lap || h.len != body.length || wait then s
    else s.onArrival x fun s =>
      let s1 := (s.setPort x.port { s.port x.port with headers := rest }).gotSlots x.port false (ceilDiv body.length 256)
      if m.dst ≠ s.grbSelf then s1.forward x.port m
      else if m.incarn ≠ s.incarn then s1.answer m 2
      else
        let s2 := s1.pressGrant m.src 1
        match job with
        | some j => match j.mismatch m with
          | some e => s2.pressMismatch j m e
          | none => f ((s2.pressTouch j.cmd).pressCount 3 body.length) j m
        | none => if lap = 3 then s2 else (s2.pressCount 6 1).pressReturn m block

/-- The blocks of a message that lie in its chunk, each with its part of the body. -/
def PressJob.parts (j : PressJob) (m : Msg) (block size : Nat) : List (Nat × List Byte) :=
  ((List.range (m.len / size)).map (fun i => (block + i, ((m.body.map Prod.fst).drop (size * i)).take size))).filter
    (fun x => decide (x.1 < j.nb) && j.chunk x.1 == bits m.addr 52 38)

/-- f for each part of a message while the job is active. -/
def State.eachPart (s : State) (j : PressJob) (l : List (Nat × List Byte)) (f : State → PressJob → Nat → List Byte → State) : State :=
  l.foldl (fun s x => match s.pressJob j.cmd with
    | some j => f s j x.1 x.2
    | none => s) s

/-- Record bytes in a job's mode (R435). -/
def PressJob.recSize (j : PressJob) : Nat := if j.mode = 0 then 260 else 256

/-- SCALE_LAP_MESSAGE: lap-1 codes of blocks from `block` on arrive; each goes on as the larger code, or begins lap
    2 (R435, R437). par: a parity error in the engine. -/
def execScaleLapMessage (x : Rx) (block : Nat) (body : List Byte) (par : Bool) (s : State) : Host.Outcome State Fault Refusal := live s <|
  .next (s.pressIn x 1 block body (fun s j m => s.eachPart j (j.parts m block 1) (fun s j b x =>
    s.lap1 j b (leAt x 0 1) (bitOf m.addr 63) par)))

/-- SUM_LAP_RECORD: lap-2 records of blocks from `block` on arrive; the own contribution is added and each goes on,
    or is the total (R435, R436, R440). -/
def execSumLapRecord (x : Rx) (block : Nat) (body : List Byte) (par : Bool) (s : State) : Host.Outcome State Fault Refusal := live s <|
  .next (s.pressIn x 2 block body (fun s j m => s.eachPart j (j.parts m block j.recSize) (fun s j b x =>
    s.lap2 j (some (recOf b (bitOf m.addr 63) x)) b 0 (bitOf m.addr 63) par)))

/-- RESULT_LAP_RECORD: lap-3 totals of blocks from `block` on arrive; each is written and goes on (R435, R438). -/
def execResultLapRecord (x : Rx) (block : Nat) (body : List Byte) (par : Bool) (s : State) : Host.Outcome State Fault Refusal := live s <|
  .next (s.pressIn x 3 block body (fun s j m => s.eachPart j (j.parts m block j.recSize) (fun s j b x =>
    (if par then s.pressErr 0 else s).lap3 j (recOf b (bitOf m.addr 63 || par) x))))

/-! ### PRESS_CTL messages (R437, R443, R447, R469, R488) -/

/-- A PRESS_CTL message of an operation arrives: forwarded, refused, or handled by f. -/
def State.ctlIn (s : State) (x : Rx) (op : Nat) (m : Msg) (f : State → State) : State :=
  if m.arg % 16 != op then s
  else s.onArrival x fun s =>
    let s1 := s.gotSlots x.port true (if m.body.length ≤ 224 then 1 else 2)
    if m.dst ≠ s.grbSelf then s1.forward x.port m else if m.incarn ≠ s.incarn then s1.answer m 2 else f s1

/-- A PRESS_CTL message with header fields as they are on the wire. -/
def ctlMsg (hops dst src incarn tag addr arg : Nat) (body : List Byte) : Msg :=
  { kind := 0x12, hops := hops % 16, dst := dst % 2 ^ 14, src := src % 2 ^ 14, incarn := incarn % 2 ^ 16, tag := tag % 2 ^ 32
    addr := addr % 2 ^ 64, arg := arg % 2 ^ 64, body := markAll false body, len := body.length }

/-- Messages that wait for a peer's grants leave while there are any, oldest first, those of a job that has completed too (R435, R488). -/
def pressDrain (peer : Nat) : Nat → State → State
  | 0, s => s
  | f + 1, s =>
    let g := Sparse.get 0 s.press.grants peer
    match s.press.waiting.find? (fun w => w.1 == peer) with
    | none => s
    | some w =>
      if g = 0 then s
      else
        let s1 : State := { s with press := { s.press with waiting := s.press.waiting.erase w } }
        match s1.press.jobs.find? (fun j => !j.armed && j.group == bits w.2.2.addr 35 32 && j.tag == w.2.2.tag) with
        | some j => pressDrain peer f (s1.pressPut j.cmd w.2.2)
        | none => pressDrain peer f ((s1.pressLeave w.2.2).getD s1)

/-- GRANT: a peer grants buffer space for messages; those that wait for it leave (R488). -/
def execGrantMsg (x : Rx) (hops dst src incarn tag addr arg : Nat) (s : State) : Host.Outcome State Fault Refusal := live s <|
  let m := ctlMsg hops dst src incarn tag addr arg []
  .next (s.ctlIn x 1 m (fun s =>
    let s := { s with press := { s.press with
      grants := Sparse.set 0 s.press.grants m.src (Sparse.get 0 s.press.grants m.src + bits m.arg 35 4) } }
    pressDrain m.src s.press.waiting.length s))

/-- ABORT: the group fails, its jobs end, the abort goes on to the other neighbour, once (R447). -/
def execAbortMsg (x : Rx) (hops dst src incarn tag addr arg : Nat) (s : State) : Host.Outcome State Fault Refusal := live s <|
  let m := ctlMsg hops dst src incarn tag addr arg []
  .next (s.ctlIn x 2 m (fun s =>
    let gi := bits m.addr 35 32
    let g := s.group gi
    let id := (gi, m.addr % 2 ^ 32, m.tag, bits m.arg 19 4)
    if !g.valid || g.gen != m.addr % 2 ^ 32 || s.press.aborts.contains id then s
    else
      let s := { s with press := { s.press with aborts := id :: s.press.aborts, groups := Sparse.set {} s.press.groups gi { g with failed := true } } }
      let s := (s.press.jobs.filter (fun j => j.group == gi)).foldl (fun s j => s.pressEnd j (bits m.arg 19 4) (bits m.arg 23 20) true) s
      if g.p = 1 then s
      else
        let up := (g.self + 1) % g.p
        let down := (g.self + g.p - 1) % g.p
        let dest := if g.ring.getD up 0 = m.src then down else up
        s.pressCtl (g.ring.getD dest 0) 0 m.tag (m.addr % 2 ^ 36) m.arg []))

/-- RETURN: a message or a part of it comes back from a member whose job has not started; it is kept for resending (R437). body: what came
    back. -/
def execReturnMsg (x : Rx) (hops dst src incarn tag addr arg : Nat) (body : List Byte) (s : State) : Host.Outcome State Fault Refusal := live s <|
  let m := ctlMsg hops dst src incarn tag addr arg body
  .next (s.ctlIn x 3 m (fun s =>
    match s.press.jobs.find? (fun j => !j.armed && j.group == bits m.addr 35 32 && j.tag == m.tag && j.gen == m.addr % 2 ^ 32) with
    | none => s
    | some j =>
      let a := if bits m.addr 37 36 = 3 then 0 else (j.nb - 1) % 2 ^ 30 + j.mode * 2 ^ 30 + j.skim * 2 ^ 32
      let back := s.msgTo m.src 2 m.tag m.addr a m.body
      (s.modJob j.cmd (fun j => { j with returned := j.returned ++ [back] })).pressTouch j.cmd))

/-- SKIM: a child's sum for a sampled block arrives and enters the tree (R443 to R446). -/
def execSkimMsg (x : Rx) (hops dst src incarn tag addr arg : Nat) (body : List Byte) (s : State) : Host.Outcome State Fault Refusal := live s <|
  let m := ctlMsg hops dst src incarn tag addr arg body
  .next (s.ctlIn x 4 m (fun s =>
    match (s.press.jobs ++ s.press.old).find? (fun j => !j.armed && j.group == bits m.addr 35 32 && j.tag == m.tag) with
    | none => s
    | some j =>
      let b := bits m.arg 33 4
      if m.addr % 2 ^ 32 ≠ j.gen then (if (s.pressJob j.cmd).isSome then s.pressMismatch j m 3 else s)
      else if !j.sampled b || j.chunk b != bits m.addr 52 38 || decide (j.nb ≤ b) then s
      else (((s.pressTouch j.cmd).skimChild j.cmd (recOf b false body)).skimTry j.cmd b).skimSweep))

/-- PRESS_RESEND: 1,024 Press cycles after its return, the oldest returned message of a command's job is sent again (R437). -/
def execPressResend (cmd : Nat) (s : State) : Host.Outcome State Fault Refusal := live s <|
  .next (match s.pressJob cmd with
    | some j => match j.returned with
      | m :: rest => (s.modJob cmd (fun j => { j with returned := rest })).pressPut cmd m
      | [] => s
    | none => s)

/-! ### The end of a job (R441, R446) -/

/-- PRESS_TIMEOUT: a command's job has neither sent nor received for 2^t periods (R446). -/
def execPressTimeout (cmd : Nat) (s : State) : Host.Outcome State Fault Refusal := live s <|
  .next (match s.pressJob cmd with
    | some j => if !j.armed && decide (j.since + 2 ^ s.press.tmoExp ≤ s.periods0) then s.pressFail cmd 5 else s
    | none => s)

/-- The semaphore of a signal stands in a stopped region (R518). -/
def State.sigStopped (s : State) (sig : Option (Bool × Nat × Nat × Nat)) : Bool := match sig with
  | some (glob, c, _, _) => s.semStopped (if glob then 255 else c)
  | none => false

/-- PRESS_JOB_COMPLETE: every block has been written and acknowledged, in an earlier cycle, and every comparison made; the job signals and its
    record follows (R441, R444, R449). -/
def execPressJobComplete (cmd : Nat) (s : State) : Host.Outcome State Fault Refusal := live s <|
  .next (match s.pressJob cmd with
    | some j =>
      if j.written ≠ j.nb ∨ j.outst ≠ 0 ∨ s.epoch ≤ j.doneAt ∨ j.compare ≠ 0 ∨ s.sigStopped j.sig then s
      else
        let s1 : State := { s with press := { s.press with
          jobs := s.press.jobs.filter (fun x => x.cmd != cmd)
          old := if j.skims.isEmpty then s.press.old else s.press.old ++ [j] } }
        let s2 := match j.sig with
          | some (glob, c, idx, amount) => if j.dropSignal then s1 else s1.signalSem glob c idx amount
          | none => s1
        (s2.pressCount 0 1).complete cmd ((if j.poison then [5] else []) ++ (if j.mism ≠ 0 then [0x52] else [])) (j.detail 0 0 false)
    | none => s)

/-! ### Acknowledgements from other devices (R320, R446, R486, R487) -/

/-- The ABORT_CAUSE of a refusal's outcome (R446). -/
def causeOf (outcome : Nat) : Nat := if outcome = 2 then 1 else 2

/-- ACK: ends the remote operation of its TAG, or the WRITE, or names a refused message of a Press job (R320, R446, R486). It comes
    from the operation's target, or with the unreachable outcome from a device that discarded the message (R480). -/
def execAckMsg (x : Rx) (hops dst src incarn tag arg : Nat) (s : State) : Host.Outcome State Fault Refusal := live s <|
  let m : Msg := { kind := 0x11, hops := hops % 16, dst := dst % 2 ^ 14, src := src % 2 ^ 14, incarn := incarn % 2 ^ 16, tag := tag % 2 ^ 32
                   addr := 0, arg := arg % 2 ^ 64 }
  .next (s.onArrival x fun s =>
    let s1 := s.gotSlots x.port true 1
    if m.dst ≠ s.grbSelf then s1.forward x.port m
    else if m.incarn ≠ s.incarn then s1
    else match s1.remote.find? (fun o => o.id % 2 ^ 32 == m.tag && !o.self && (o.peer == m.src || m.arg % 8 == 4)) with
      | some op => s1.remoteEnd op (m.arg % 8)
      | none => match s1.writesOut.find? (fun w => w.1 % 2 ^ 32 == m.tag) with
        | some w => s1.writeEnds w.1 (m.arg % 8)
        | none =>
          if m.arg % 8 = 0 then s1
          else (s1.press.jobs.filter (fun j => !j.armed && j.tag == m.tag && (m.arg % 8 == 4 || j.ring.contains m.src))).foldl
            (fun s j => s.pressFail j.cmd (causeOf (m.arg % 8))) s1)

end Sys2Proof.Machine
end

