-- ==== Sys2Proof/Machine/Security.lean ====
section
/-! DEFINITION. Attestation reports, boot-image checks, I3C, rail telemetry, IEEE 1149.1 (21 R629 to R645). -/

namespace Sys2Proof.Machine

/-! ### Reports (R633 to R636) -/

/-- FUSE_DIGEST. -/
def fuseDigest : List Byte := (List.range 32).map Config.fuseDigest

/-- CAL_DIGEST: the 4 MiB of the record as phase 2 read them (R607, R633). -/
def State.calDigest (s : State) : List Byte := sha256 ((List.range (2 ^ 22)).map (Sparse.get 0 s.sec.calImage))

/-- Report bytes 0 to 383. -/
def State.reportBody (s : State) : List Byte :=
  let zeros := List.replicate 32 (0 : Byte)
  let flags := s.prog.isSome.toNat + 2 * Bool.toNat s.debug + 4 * (s.boot.recBad != 0).toNat + 8 * s.sec.bootDigest.isSome.toNat
  leBytes 4 0x54544153 ++ leBytes 2 1 ++ leBytes 2 768 ++ leBytes 2 0x57E1 ++ leBytes 2 0x5309 ++ leBytes 1 s.fuse.grade
    ++ leBytes 1 s.fuse.stepping ++ leBytes 1 flags ++ leBytes 1 0 ++ leBytes 8 s.fuse.serial.toNat ++ leBytes 8 s.epoch
    ++ leBytes 2 s.incarn ++ leBytes 6 0 ++ leBytes 4 s.bootStatus ++ leBytes 4 0 ++ s.sec.nonce.flatMap (fun w => leBytes 8 w.toNat)
    ++ fuseDigest ++ s.calDigest ++ (match s.prog with
      | some p => p.digest
      | none => zeros) ++ s.sec.bootDigest.getD zeros ++ List.replicate 176 0

/-- The report of 768 bytes: the body and its identity-key signature (R635). -/
def State.reportBytes768 (s : State) : List Byte :=
  let b := s.reportBody
  b ++ (List.range 384).map (Config.identitySign (sha256 b))

/-- The request at the head of the queue starts: a report captures its contents, unless a bind or a re-placement is in
    progress (R635, R640), and its writes leave. -/
def State.secStart (s : State) : State :=
  match s.sec.queue with
  | true :: _ =>
    if s.sec.report.isSome || s.celBusy || s.replacing.isSome then s
    else
      let r := s.reportBytes768
      let ws := chunks s.sec.attAddr r
      let s1 : State := { s with sec := { s.sec with report := some r, repOut := ws.length } }
      s1.send (ws.map (fun w => Packet.write .report w.1 (markAll false w.2) false))
  | _ => s

/-- A GO for a report: refused at once with ATT_RESULT 1 where the address is not a multiple of 128 or the range is not in the
    stacks or host memory; ignored while one is queued or running (R634, R640). -/
def State.attGo (s : State) : State :=
  let a := s.sec.attAddr
  if s.sec.attBusy then s
  else if a % 128 != 0 || !(inHost a || decide (a < 0x0C000000000)) || !s.rangeOkDev false a (a + 767) then
    { s with sec := { s.sec with attDone := true, attResult := 1 } }
  else ({ s with sec := { s.sec with attBusy := true, queue := s.sec.queue ++ [true] } } : State).secStart

/-- A GO for a boot check (R638, R640). -/
def State.bootGo (s : State) : State :=
  if s.sec.bootBusy then s else { s with sec := { s.sec with bootBusy := true, queue := s.sec.queue ++ [false] } }

/-- A write of SEC_CTL. -/
def State.writeSecCtl (s : State) (v : Nat) : State :=
  let s1 := if bitOf v 31 then s.attGo else s
  if bitOf v 30 then s1.bootGo else s1

/-- ATTESTATION_REQUEST: a write of SEC_CTL with ATT_GO = 1 (R634). -/
def execAttestationRequest (value : Nat) (s : State) : Host.Outcome State Fault Refusal := live s <|
  .next (if s.regAlive && s.boot.done && bitOf value 31 then s.writeSecCtl (value % 2 ^ 32) else s)

/-- The head request is over; the next one starts. -/
def State.secNext (s : State) : State := ({ s with sec := { s.sec with queue := s.sec.queue.drop 1 } } : State).secStart

/-- ATTESTATION_DONE: every write of the report has been acknowledged, err where one of them ended with an error; a report that
    waited for the end of a bind is captured instead (R635, R636). -/
def execAttestationDone (err : Bool) (s : State) : Host.Outcome State Fault Refusal := live s <|
  .next (match s.sec.queue with
    | true :: _ =>
      if s.sec.report.isNone then s.secStart
      else if 0 < s.sec.repOut then s
      else ({ s with sec := { s.sec with report := none, attBusy := false, attDone := true, attResult := if err then 2 else 0 } } : State).secNext
    | _ => s)

/-! ### Boot checks (R637 to R639) -/

/-- BOOT_CHECK_REQUEST: a write of SEC_CTL with BOOT_GO = 1 (R638). -/
def execBootCheckRequest (value : Nat) (s : State) : Host.Outcome State Fault Refusal := live s <|
  .next (if s.regAlive && s.boot.done && bitOf value 30 then s.writeSecCtl (value % 2 ^ 32) else s)

/-- A boot image's own fields are right. -/
def bootFieldsOk (b : List Byte) : Bool :=
  leAt b 0 4 == 0x4F425653 && leAt b 6 2 == 0 && decide (1 ≤ leAt b 8 4) && decide (leAt b 8 4 ≤ 2 ^ 26) && leAt b 12 4 == 0
  && leAt b 784 240 == 0

/-- The signed message (R639). -/
def bootMessage (b : List Byte) : List Byte := b.take 400 ++ (b.drop 1024).take (leAt b 8 4)

/-- BOOT_RESULT of the image at an address (R638). err: a read of host memory returned an error. -/
def State.bootCheck (s : State) (a : Nat) (err : Bool) : Nat × List Byte :=
  let inMem := fun (n : Nat) => (inHost a || decide (a + n ≤ 0x0C000000000)) && s.rangeOkDev false a (a + n - 1)
  if !inMem 1024 then (4, [])
  else
    let body := leAt (s.bytesAt a 1024) 8 4
    let n := 1024 + (if body ≤ 2 ^ 26 then body else 0)
    if !inMem n then (4, [])
    else
      let b := s.bytesAt a n
      if err || s.anyBad a n then (5, b)
      else if !bootFieldsOk b then (1, b)
      else if leNat (sha256 ((b.drop 16).take 384)) != s.fuse.bootKeyDigest.toNat then (2, b)
      else if !rsaVerify ((b.drop 16).take 384) ((b.drop 400).take 384) (bootMessage b) then (3, b)
      else (0, b)

/-- What a boot check reads stands in a quiesced stack: the check waits there (R380). -/
def State.bootWaits (s : State) (a : Nat) : Bool :=
  s.rangeOkDev false a (a + 1023) && (s.waitsRange a 1024 || s.waitsRange a (1024 + leAt (s.bytesAt a 1024) 8 4 % 2 ^ 27))

/-- BOOT_CHECK_END: the check that runs ends; one that passes sets BOOT_DIGEST (R638, R639). -/
def execBootCheckEnd (err : Bool) (s : State) : Host.Outcome State Fault Refusal := live s <|
  .next (match s.sec.queue with
    | false :: _ =>
      let a := s.sec.bootAddr
      if s.bootWaits a then s
      else
      let r := s.bootCheck a err
      let s1 := s.noteRead a r.2.length
      ({ s1 with sec := { s1.sec with
          bootBusy := false, bootDone := true, bootResult := r.1
          bootDigest := if r.1 = 0 then some (sha256 (bootMessage r.2)) else s1.sec.bootDigest } } : State).secNext
    | _ => s)

/-! ### I3C (R641, R642) -/

/-- The target answers: reset has been released and its clock runs (R492). -/
def State.i3cAlive (s : State) : Bool := s.boot.started && !s.clk.lost

/-- The static address (R641). -/
def Mgmt.static (g : Mgmt) : Nat := 0x50 + g.strap

/-- A private transfer's address is the target's: the dynamic one once assigned, else the static one. -/
def Mgmt.mine (g : Mgmt) (addr : Nat) : Bool := match g.dynAddr with
  | some d => d == addr
  | none => g.static == addr

/-- SETDASA: a dynamic address for the target at a static address (R641). -/
def execSetdasa (static dyn : Nat) (s : State) : Host.Outcome State Fault Refusal := live s <|
  .next (if s.i3cAlive && s.mgmt.dynAddr.isNone && s.mgmt.static == static then { s with mgmt := { s.mgmt with dynAddr := some (dyn % 128) } }
    else s)

/-- ENTDAA: the target takes part with its provisional ID, wins the arbitration and takes the address (R641). -/
def execEntdaa (dyn : Nat) (s : State) : Host.Outcome State Fault Refusal := live s <|
  .next (if s.i3cAlive && s.mgmt.dynAddr.isNone then
      ({ s with mgmt := { s.mgmt with dynAddr := some (dyn % 128) } } : State).emit
        (.i3c (leBytes 6 (0x5E7053090000 + s.fuse.serial.toNat % 2 ^ 16)).reverse)
    else s)

/-- PRIVATE_WRITE: two bytes set the offset, any other length is ignored (R642). -/
def execPrivateWrite (addr : Nat) (data : List Byte) (s : State) : Host.Outcome State Fault Refusal := live s <|
  .next (if s.i3cAlive && s.mgmt.mine addr && data.length == 2 then { s with mgmt := { s.mgmt with offset := leNat data, item := none } } else s)

/-- The next byte of a private read: an aligned 8-byte item is captured whole when its first byte is read (R642). -/
def State.mgmtNext (s : State) : State × Byte :=
  let o := s.mgmt.offset
  let base := o / 8 * 8
  let item := if o % 8 = 0 then some (base, s.mgmtBytes base 8) else s.mgmt.item
  let live := s.mgmtByte o
  let b := match item with
    | some (i, l) => if i = base then l.getD (o % 8) 0 else live
    | none => live
  ({ s with mgmt := { s.mgmt with offset := (o + 1) % 2 ^ 16, item := item } }, b)

/-- n bytes read one by one. -/
def mgmtReadGo : Nat → State → List Byte → State × List Byte
  | 0, s, acc => (s, acc)
  | n + 1, s, acc => mgmtReadGo n s.mgmtNext.1 (acc ++ [s.mgmtNext.2])

/-- PRIVATE_READ: n bytes from the offset onward (R642). -/
def execPrivateRead (addr n : Nat) (s : State) : Host.Outcome State Fault Refusal := live s <|
  .next (if s.i3cAlive && s.mgmt.mine addr then
      let r := mgmtReadGo n s []
      r.1.emit (.i3c r.2)
    else s)

/-- RAIL_TELEMETRY_UPDATE: the 1 ms averages of the eight rails: mV, 10 mA, mW (R643). -/
def execRailTelemetryUpdate (rails : List (Nat × Nat × Nat)) (s : State) : Host.Outcome State Fault Refusal := live s <|
  .next (if s.i3cAlive then
      { s with mgmt := { s.mgmt with rails := (List.range 8).map (fun i =>
          let old := s.mgmt.rails.getD i (0, 0, 0, 0)
          let r := rails.getD i (0, 0, 0)
          (r.1 % 2 ^ 16, r.2.1 % 2 ^ 16, r.2.2 % 2 ^ 32, (old.2.2.2 + 1) % 2 ^ 64)) } }
    else s)

/-! ### IEEE 1149.1 (R644, R645) -/

/-- An instruction of the test access port; drives: it takes the balls from the device. -/
def State.jtagInstr (s : State) (i : Nat) (drives : Bool) : State :=
  { s with jtag := { s.jtag with instr := i, driven := s.jtag.driven || drives } }

/-- Bits shifted out, first bit lowest. -/
def shiftOut (l : List Bool) : Nat := l.foldr (fun b n => b.toNat + 2 * n) 0

/-- BYPASS: one zero bit of the bypass register, then what was shifted in. -/
def execJtagBypass (data : List Bool) (s : State) : Host.Outcome State Fault Refusal :=
  .next ((s.jtagInstr 0 false).emit (.jtag (shiftOut (false :: data))))

/-- IDCODE: the device's identification (R644). -/
def execJtagIdcode (s : State) : Host.Outcome State Fault Refusal :=
  .next ((s.jtagInstr 1 false).emit (.jtag (0x0530956B + s.fuse.stepping % 16 * 2 ^ 28)))

/-- SAMPLE/PRELOAD: what the balls carry is shifted out, the boundary register is loaded. -/
def execSamplePreload (pins data : List Bool) (s : State) : Host.Outcome State Fault Refusal :=
  let t := s.jtagInstr 2 false
  .next (({ t with jtag := { t.jtag with boundary := data } } : State).emit (.jtag (shiftOut pins)))

/-- EXTEST: the balls are driven from the boundary register; what they carry is shifted out, the register loaded again. -/
def execJtagExtest (pins data : List Bool) (s : State) : Host.Outcome State Fault Refusal :=
  let t := s.jtagInstr 3 true
  .next (({ t with jtag := { t.jtag with boundary := data } } : State).emit (.jtag (shiftOut pins)))

/-- CLAMP: outputs stay as the boundary register has them; the bypass register is selected. -/
def execJtagClamp (data : List Bool) (s : State) : Host.Outcome State Fault Refusal :=
  .next ((s.jtagInstr 4 true).emit (.jtag (shiftOut (false :: data))))

/-- HIGHZ: outputs go to high impedance; the bypass register is selected. -/
def execJtagHighz (data : List Bool) (s : State) : Host.Outcome State Fault Refusal :=
  .next ((s.jtagInstr 5 true).emit (.jtag (shiftOut (false :: data))))

end Sys2Proof.Machine
end

