-- ==== Sys2Proof/Machine/RegWrite.lean ====
section
/-! DEFINITION. Register writes, field by field (22 R646 to R653 and the register tables of 03 to 21). -/

namespace Sys2Proof.Machine

/-- The state that a row's own meaning leaves. -/
def via (s : State) (f : State → Host.Outcome State Fault Refusal) : State := match f s with
  | .next t => t
  | _ => s

/-! ### Identity, global control, rings -/

/-- A write to the identity and global control block. -/
def State.putUci (s : State) (o v : Nat) : State :=
  let base := v % 2 ^ 47 / 4096 * 4096
  if o = 0x28 then via s (execDeviceResetRequest v)
  else if 0x1000 ≤ o ∧ o < 0x1800 then
    let r := (o - 0x1000) / 32
    let k := s.cring r
    match o % 32 with
    | 0x00 => if k.en then s else s.setCring r { k with base := base }
    | 0x08 => s.writeCringCtl r v
    | _ => s
  else if 0x2000 ≤ o ∧ o < 0x2100 then
    let e := (o - 0x2000) / 32
    let k := s.ering e
    match o % 32 with
    | 0x00 => if k.en then s else s.setEring e { k with base := base }
    | 0x08 => via s (execEventRingEnable e v)
    | 0x0C => via s (execEventRingHeadWrite e v)
    | 0x14 => via s (execArmed e v)
    | _ => s
  else if 0x10000 ≤ o then via s (execDoorbell ((o - 0x10000) / 0x1000 * 8 + o % 0x1000 / 8) v [])
  else s

/-! ### Clock block -/

/-- A write to the clock block. -/
def State.putClk (s : State) (o v : Nat) : State :=
  let c := s.clk
  if 0x200 ≤ o ∧ o < 0x300 ∧ o % 16 = 0 then
    let r := (o - 0x200) / 16
    let g := s.region r
    s.setRegion r { g with duty := g.duty && !bitOf v 2, jit := g.jit && !bitOf v 1 }
  else match o with
    | 0x00 => via s (execReferenceSwitch v)
    | 0x14 => via s (execCfgBusChange v)
    | 0x20 => if bitOf v 31 then via s (execSynchronisedChangeRequest v)
        else { s with clk := { c with fchgStep := bits v 2 0, fchgCfg := bits v 6 4, fchgRing := bits v 10 8 } }
    | 0x28 => if c.change.isSome then s else { s with clk := { c with fchgN := v } }
    | 0x30 => { s with clk := { c with fchgDone := c.fchgDone && !bitOf v 0 } }
    | 0x38 => if bitOf v 31 then via s (execStoppedChangeRequest v)
        else { s with clk := { c with ecfStep := bits v 10 8, ecfRegion := bits v 3 0 } }
    | 0x40 => via s (execClkEnCrm v)
    | 0x44 => via s (execClkEnGrb v)
    | 0x48 => via s (execClkEnMisc v)
    | 0x100 => if bitOf v 0 then via s (execHoldCounterClear v) else { s with hold := { s.hold with freeze := bitOf v 1 } }
    | _ => s

/-! ### Core windows -/

/-- A write of CORE_LADLE_Qn (R210, R217). -/
def State.putLadleQ (s : State) (c n v : Nat) : State :=
  let q := s.queue c n
  let owner := if bits v 31 30 = 3 then q.owner else bits v 31 30
  let limit := bits v 6 0
  if (n = 7 ∧ (s.fuse.injQuarter c).isSome) ∨ limit = 0 ∨ 64 < limit ∨ (owner ≠ q.owner ∧ (q.waiting ≠ [] ∨ q.out ≠ [])) then s
  else s.setQueue c n { q with owner := owner, limit := limit }

/-- CORE_SPAD_ERR after a write; VALID of CORE_SPAD_ERR_ADDR falls with its last bit. -/
def Core.clearSpad (k : Core) (v : Nat) : Core :=
  let e := clearBits k.spadErr v
  { k with spadErr := e, spadErrAddr := if e = 0 then k.spadErrAddr % 2 ^ 31 else k.spadErrAddr }

/-- A write to the window of core c. -/
def State.putCore (s : State) (c o v : Nat) : State :=
  let k := s.core c
  if 0x40 ≤ o ∧ o < 0x60 then s.putLadleQ c ((o - 0x40) / 4) v
  else match o with
    | 0x20 => s.setCore c { k with churnErr := clearBits k.churnErr v }
    | 0x24 => s.setCore c { k with vecErr := clearBits k.vecErr (v % 4) }
    | 0x28 => s.setCore c (k.clearSpad v)
    | 0x60 => s.setCore c { k with ladleErr := clearBits k.ladleErr (v % 2 ^ 24) }
    | 0xC8 => if bitOf v 31 then s.setCore c { k with hazard := 0, hazardDetail := 0 } else s
    | 0xE0 => s.setCore c { k with semErr := clearBits k.semErr (v % 8), semErr0 := clearBits k.semErr (v % 8) }
    | _ => s

/-! ### Memory block -/

/-- A write to the memory block. -/
def State.putMem (s : State) (o v : Nat) : State :=
  let m := s.maint
  if o < 0x9000 then
    let k := o / 0x1000
    let u := s.unit k
    if o % 0x1000 = 0x10 then if bitOf v 63 then s.setUnit k { u with errAddr := none } else s
    else if o = 0x8000 then
      if s.clk.enMisc % 2 ^ 16 ≠ 0 ∨ bits v 3 2 = 3 ∨ (List.range 16).any (s.testOn 3) then s else s.setUnit 8 { u with cfg := v % 16 }
    else if k < 8 ∧ o % 0x1000 = 0x4 then via s (execQuiesce k v)
    else s
  else match o with
    | 0xF000 => { s with memEccCtl := fields [(8, bits v 10 8), (0, bits v 1 0)] }
    | 0xF100 => s.maintWrite v
    | 0xF108 => if m.busy then s else { s with maint := { m with row := bits v 49 32, bank := bits v 12 8, pc := bits v 7 0 } }
    | 0xF110 => if m.busy then s else { s with maint := { m with data := BitVec.ofNat 64 v } }
    | 0xF118 => { s with maint := { m with done := m.done && !bitOf v 1 } }
    | _ => s

/-! ### Griby block -/

/-- GRB_CTL set. -/
def State.setGrbCtl (s : State) (v : Nat) : State := { s with grbCtl := v }

/-- A write to the Griby block. GRB_SELF is ignored while a port is not down; once it is valid, ports that are asked for
    train (R477). -/
def State.putGrb (s : State) (o v : Nat) : State :=
  if o < 0x1800 then if o % 0x100 = 0 then s.portCtl (o / 0x100) v else s
  else if 0xE000 ≤ o ∧ o < 0xE080 then
    { s with pwin := Sparse.set (false, 0) s.pwin ((o - 0xE000) / 8) (bitOf v 63, v % 2 ^ 14) }
  else if o = 0xF000 then if 16 ≤ v % 64 ∧ v % 64 ≤ 40 then { s with tmoExp := v % 64 } else s
  else if o = 0xF008 then State.setGrbCtl s (fields [(16, bits v 19 16), (8, bits v 10 8), (0, bits v 1 0)])
  else if o = 0xF010 then
    if (List.range 24).any (fun n => (s.port n).state != 0) then s
    else (List.range 24).foldl State.tryTrain { s with grbSelf := v % 2 ^ 14, grbSelfValid := bitOf v 15 }
  else
    { s with
      peers := Sparse.set 0 s.peers ((o - 0x20000) / 8) (BitVec.ofNat 64 (fields [(63, bits v 63 63), (32, bits v 55 32), (0, bits v 15 0)])) }

/-! ### Creamery, Press, Cellar -/

/-- A write to the Creamery block. -/
def State.putCrm (s : State) (o v : Nat) : State :=
  if 0x8000 ≤ o then
    let n := (o - 0x8000) / 0x100
    let u := s.cv n
    match o % 0x100 with
    | 0x00 => s.writeCvCtl n v
    | 0x08 => s.setCv n { u with seq := BitVec.ofNat 64 v }
    | 0x18 => s.feed n 1 ⟨v, false⟩
    | 0x1C => s.feed n 2 ⟨v, false⟩
    | 0x20 => s.feed n 4 ⟨v, false⟩
    | 0x28 => s.setCv n { u with resBase := v % 2 ^ 52 }
    | 0x30 => s.setCv n { u with par := u.par && !bitOf v 2, feedErr := u.feedErr && !bitOf v 1 }
    | _ => s
  else if o = 8 then { s with crmErr := clearBits s.crmErr (v % 8) }
  else s

/-- A write to the Press block. -/
def State.putPrs (s : State) (o v : Nat) : State :=
  let p := s.press
  match o with
  | 0x00 => if 16 ≤ v % 64 ∧ v % 64 ≤ 40 then { s with press := { p with tmoExp := v % 64 } } else s
  | 0x08 => { s with press := { p with err := clearBits p.err (v % 32) } }
  | 0x10 => if bitOf v 63 then { s with press := { p with skimFirst := none } } else s
  | _ => s

/-- A write to the Cellar block; ignored while BUSY = 1. -/
def State.putCel (s : State) (o v : Nat) : State :=
  let n := (o - 0x100) / 16
  let r := Sparse.get {} s.rsv n
  if s.celBusy ∨ o < 0x100 then s
  else if o % 16 = 0 then { s with rsv := Sparse.set {} s.rsv n { r with en := bitOf v 63, start := v % 2 ^ 52 } }
  else { s with rsv := Sparse.set {} s.rsv n { r with stop := v % 2 ^ 52 } }

/-! ### Security and test blocks -/

/-- A write to the security block (R634, R638, R640). -/
def State.putSec (s : State) (o v : Nat) : State :=
  let c := s.sec
  if 0x10 ≤ o ∧ o < 0x30 then
    if c.attBusy then s else { s with sec := { c with nonce := c.nonce.set ((o - 0x10) / 8) (BitVec.ofNat 64 v) } }
  else match o with
    | 0x00 => s.writeSecCtl v
    | 0x04 => { s with sec := { c with attDone := c.attDone && !bitOf v 1, bootDone := c.bootDone && !bitOf v 9 } }
    | 0x30 => if c.attBusy then s else { s with sec := { c with attAddr := v % 2 ^ 52 } }
    | 0x38 => if c.bootBusy then s else { s with sec := { c with bootAddr := v % 2 ^ 52 } }
    | _ => s

/-- A write to the test block. -/
def State.putTst (s : State) (o v : Nat) : State :=
  let m := s.meshRegs
  let d := s.dld
  if 0x330 ≤ o ∧ o < 0x348 then
    let k := (o - 0x330) / 8
    let old := m.decl.toNat
    if m.service ∨ m.refuse ≠ 0 then s
    else { s with meshRegs := { m with decl := BitVec.ofNat 160 (old - slice160 m.decl k * 2 ^ (64 * k) + v * 2 ^ (64 * k)) } }
  else match o with
    | 0x100 => { s with gsemErr := clearBits s.gsemErr (v % 4), gsemErr0 := clearBits s.gsemErr (v % 4) }
    | 0x200 => if 16 ≤ v % 64 ∧ v % 64 ≤ 40 then { s with dld := { d with en := bitOf v 31, ring := bits v 10 8, k := v % 64 } } else s
    | 0x204 => { s with dld := { d with fired := d.fired && !bitOf v 0 } }
    | 0x300 => via s (execServiceRequest v)
    | 0x350 => { s with meshRegs := { m with err := clearBits m.err (v % 1024 / 256 * 256) } }
    | 0x410 => via s (execReflect v)
    | _ => s

/-! ### The aperture -/

/-- A write that reaches its register. -/
def State.regPut (s : State) (o v : Nat) : State :=
  if o < 0x100000 then s.putUci o v
  else if o < 0x200000 then s.putClk (o - 0x100000) v
  else if o < 0x2A0000 then s.putCore ((o - 0x200000) / 0x1000) ((o - 0x200000) % 0x1000) v
  else if o < 0x500000 then s.putMem (o - 0x400000) v
  else if o < 0x600000 then s.putGrb (o - 0x500000) v
  else if o < 0x700000 then s.putCrm (o - 0x600000) v
  else if o < 0x800000 then s.putPrs (o - 0x700000) v
  else if o < 0x900000 then s.putCel (o - 0x800000) v
  else if o < 0xA00000 then s.putSec (o - 0x900000) v
  else s.putTst (o - 0xA00000) v

/-- The W1C bits of the register at an offset (R10). -/
def w1cBits (o : Nat) : Nat :=
  if 0x100200 ≤ o ∧ o < 0x100300 ∧ o % 16 = 0 then 6
  else if 0x200000 ≤ o ∧ o < 0x2A0000 then match o % 0x1000 with
    | 0x20 => 0xFF7 | 0x24 => 3 | 0x28 => 2 ^ 32 - 1 | 0x60 => 2 ^ 24 - 1 | 0xC8 => 2 ^ 31 | 0xE0 => 7 | _ => 0
  else if 0x400000 ≤ o ∧ o < 0x409000 ∧ o % 0x1000 = 0x10 then 2 ^ 63
  else if 0x608000 ≤ o ∧ o < 0x608400 ∧ o % 0x100 = 0x30 then 6
  else match o with
    | 0x100030 => 1 | 0x40F118 => 2 | 0x600008 => 7 | 0x700008 => 31 | 0x700010 => 2 ^ 63 | 0x900004 => 0x202
    | 0xA00100 => 3 | 0xA00204 => 1 | 0xA00350 => 0x300 | _ => 0

/-- A config write carried out: each field acts by its access code, and a write that no register of that width takes is a bus error
    (R8 to R10, R646 to R653). -/
def State.cfgWrite (s : State) (off w value : Nat) : State :=
  match s.reg off w with
  | some (n, _) => if n = w then (s.regPut off (value % 2 ^ (8 * w))).emit (.reply 0 []) else s.emit (.reply 1 [])
  | none => s.emit (.reply 1 [])

/-- Writes that wait are taken in order as far as their regions' clocks run (R16, R650). -/
def cfgDrain : List (Nat × Nat × Nat) → State → State
  | [], s => { s with cfgWait := [] }
  | a :: t, s => if s.regWaits a.1 then { s with cfgWait := a :: t } else cfgDrain t (s.cfgWrite a.1 a.2.1 a.2.2)

/-- A region's clock has started again. -/
def State.cfgResume (s : State) : State := cfgDrain s.cfgWait s

/-- REGISTER_WRITE: a config write of w bytes at an offset; W1C bits that the device sets in the same configuration-bus cycle the write
    does not clear (R12). A write to a core whose region's clock is stopped waits, and the later ones to the core windows wait
    behind it (R16, R650). -/
def execRegisterWrite (off w : Nat) (x : RegValue) (s : State) : Host.Outcome State Fault Refusal := live s <|
  let v := clearBits x.value (x.raced &&& w1cBits off)
  .next (if !s.regAlive then s
    else if s.regWaits off || (inCores off && !s.cfgWait.isEmpty) then { s with cfgWait := s.cfgWait ++ [(off, w, v)] }
    else s.cfgWrite off w v)

/-- STOPPED_CHANGE_RESTART: the stopped region's standby PLL has locked; it restarts at the new step, or at its old one with RESULT 2 where
    its TOP has been lowered below the new step since; the register writes that waited for it take effect (R16, R506, R518, R610, R650,
    log 61). -/
def execStoppedChangeRestart (s : State) : Host.Outcome State Fault Refusal := live s <|
  .next (match s.clk.ecfPend with
    | some (r, step) =>
      if !(s.region r).locked then s
      else
        let ok := decide ((s.region r).top ≤ step)
        let s1 := ({ s with clk := { s.clk with ecfBusy := false, ecfPend := none, ecfResult := if ok then 0 else 2 } }).setRegion r
          { s.region r with stopped := false, step := if ok then step else (s.region r).step }
        let s2 := match s1.clk.wanted with
          | some w => if s1.mixed then s1 else ({ s1 with clk := { s1.clk with wanted := none } }).deviceChange w
          | none => s1
        s2.cfgResume.waitsMet
    | none => s)

end Sys2Proof.Machine
end

