-- ==== Sys2Proof/Machine/Scalar.lean ====
section
/-! DEFINITION. The scalar slot's arithmetic, narrow accesses and special registers (08 R248 to R250). -/

namespace Sys2Proof.Machine

/-- The value of a special register on core c (R231). A reserved number is refused at bind (R249), so no program in
    force names one; it reads a free value here. -/
def State.specialReg (s : State) (c : Nat) (k : Core) (num : Nat) : W64 :=
  let entry := match s.run with
    | some r => r.entry
    | none => 0
  let arg := fun i => match s.run with
    | some r => r.args.getD i 0
    | none => 0
  match num with
  | 0 => BitVec.ofNat 64 (s.fuse.pos c)
  | 1 => BitVec.ofNat 64 s.fuse.g
  | 2 => BitVec.ofNat 64 c
  | 3 => BitVec.ofNat 64 k.stepNo
  | 4 => BitVec.ofNat 64 k.vl
  | 5 => BitVec.ofNat 64 entry
  | 6 => if s.debug then 1 else 0
  | 8 => arg 0
  | 9 => arg 1
  | 10 => arg 2
  | 11 => arg 3
  | _ => free64 s.free (site k.sched c (512 + num))

/-- ADD (R249). -/
def execAdd (n : Nat) (last : Bool) (sd sa sb : Nat) (s : State) : Host.Outcome State Fault Refusal :=
  fetched s n (rWord 0x01 sd sa sb) <|
  .next (s.slot n last fun s => Core.scalarR s n sd sa sb (· + ·))

/-- SUB (R249). -/
def execSub (n : Nat) (last : Bool) (sd sa sb : Nat) (s : State) : Host.Outcome State Fault Refusal :=
  fetched s n (rWord 0x02 sd sa sb) <|
  .next (s.slot n last fun s => Core.scalarR s n sd sa sb (· - ·))

/-- MUL, low 64 bits (R249). -/
def execMul (n : Nat) (last : Bool) (sd sa sb : Nat) (s : State) : Host.Outcome State Fault Refusal :=
  fetched s n (rWord 0x03 sd sa sb) <|
  .next (s.slot n last fun s => Core.scalarR s n sd sa sb (· * ·))

/-- AND (R249). -/
def execAnd (n : Nat) (last : Bool) (sd sa sb : Nat) (s : State) : Host.Outcome State Fault Refusal :=
  fetched s n (rWord 0x04 sd sa sb) <|
  .next (s.slot n last fun s => Core.scalarR s n sd sa sb (· &&& ·))

/-- OR (R249). -/
def execOr (n : Nat) (last : Bool) (sd sa sb : Nat) (s : State) : Host.Outcome State Fault Refusal :=
  fetched s n (rWord 0x05 sd sa sb) <|
  .next (s.slot n last fun s => Core.scalarR s n sd sa sb (· ||| ·))

/-- XOR (R249). -/
def execXor (n : Nat) (last : Bool) (sd sa sb : Nat) (s : State) : Host.Outcome State Fault Refusal :=
  fetched s n (rWord 0x06 sd sa sb) <|
  .next (s.slot n last fun s => Core.scalarR s n sd sa sb (· ^^^ ·))

/-- SHL by SB[5:0] (R249). -/
def execShl (n : Nat) (last : Bool) (sd sa sb : Nat) (s : State) : Host.Outcome State Fault Refusal :=
  fetched s n (rWord 0x07 sd sa sb) <|
  .next (s.slot n last fun s => Core.scalarR s n sd sa sb (fun a b => a <<< (b.toNat % 64)))

/-- SHR by SB[5:0] (R249). -/
def execShr (n : Nat) (last : Bool) (sd sa sb : Nat) (s : State) : Host.Outcome State Fault Refusal :=
  fetched s n (rWord 0x08 sd sa sb) <|
  .next (s.slot n last fun s => Core.scalarR s n sd sa sb (fun a b => a >>> (b.toNat % 64)))

/-- SAR by SB[5:0] (R249). -/
def execSar (n : Nat) (last : Bool) (sd sa sb : Nat) (s : State) : Host.Outcome State Fault Refusal :=
  fetched s n (rWord 0x09 sd sa sb) <|
  .next (s.slot n last fun s => Core.scalarR s n sd sa sb (fun a b => a.sshiftRight (b.toNat % 64)))

/-- MIN, signed (R249). -/
def execMin (n : Nat) (last : Bool) (sd sa sb : Nat) (s : State) : Host.Outcome State Fault Refusal :=
  fetched s n (rWord 0x0A sd sa sb) <|
  .next (s.slot n last fun s => Core.scalarR s n sd sa sb (fun a b => if b.slt a then b else a))

/-- MAX, signed (R249). -/
def execMax (n : Nat) (last : Bool) (sd sa sb : Nat) (s : State) : Host.Outcome State Fault Refusal :=
  fetched s n (rWord 0x0B sd sa sb) <|
  .next (s.slot n last fun s => Core.scalarR s n sd sa sb (fun a b => if a.slt b then b else a))

/-- SLT (R249). -/
def execSlt (n : Nat) (last : Bool) (sd sa sb : Nat) (s : State) : Host.Outcome State Fault Refusal :=
  fetched s n (rWord 0x0C sd sa sb) <|
  .next (s.slot n last fun s => Core.scalarR s n sd sa sb (fun a b => if a.slt b then 1 else 0))

/-- SLTU (R249). -/
def execSltu (n : Nat) (last : Bool) (sd sa sb : Nat) (s : State) : Host.Outcome State Fault Refusal :=
  fetched s n (rWord 0x0D sd sa sb) <|
  .next (s.slot n last fun s => Core.scalarR s n sd sa sb (fun a b => if a.ult b then 1 else 0))

/-- SEQ (R249). -/
def execSeq (n : Nat) (last : Bool) (sd sa sb : Nat) (s : State) : Host.Outcome State Fault Refusal :=
  fetched s n (rWord 0x0E sd sa sb) <|
  .next (s.slot n last fun s => Core.scalarR s n sd sa sb (fun a b => if a = b then 1 else 0))

/-- LI: IMM32 sign-extended (R249). -/
def execLi (n : Nat) (last : Bool) (sd : Nat) (imm : W32) (s : State) : Host.Outcome State Fault Refusal :=
  fetched s n (iWord 0x10 sd 0 imm.toNat) <|
  .next (s.slot n last fun s => fun _ => Core.scalarRes s n sd (sextImm imm))

/-- ADDI (R249). -/
def execAddi (n : Nat) (last : Bool) (sd sa : Nat) (imm : W32) (s : State) : Host.Outcome State Fault Refusal :=
  fetched s n (iWord 0x11 sd sa imm.toNat) <|
  .next (s.slot n last fun s => Core.scalarI s n sd sa (· + sextImm imm))

/-- ANDI (R249). -/
def execAndi (n : Nat) (last : Bool) (sd sa : Nat) (imm : W32) (s : State) : Host.Outcome State Fault Refusal :=
  fetched s n (iWord 0x14 sd sa imm.toNat) <|
  .next (s.slot n last fun s => Core.scalarI s n sd sa (· &&& sextImm imm))

/-- ORI (R249). -/
def execOri (n : Nat) (last : Bool) (sd sa : Nat) (imm : W32) (s : State) : Host.Outcome State Fault Refusal :=
  fetched s n (iWord 0x15 sd sa imm.toNat) <|
  .next (s.slot n last fun s => Core.scalarI s n sd sa (· ||| sextImm imm))

/-- XORI (R249). -/
def execXori (n : Nat) (last : Bool) (sd sa : Nat) (imm : W32) (s : State) : Host.Outcome State Fault Refusal :=
  fetched s n (iWord 0x16 sd sa imm.toNat) <|
  .next (s.slot n last fun s => Core.scalarI s n sd sa (· ^^^ sextImm imm))

/-- SHLI by IMM32[5:0] (R249). -/
def execShli (n : Nat) (last : Bool) (sd sa : Nat) (imm : W32) (s : State) : Host.Outcome State Fault Refusal :=
  fetched s n (iWord 0x17 sd sa imm.toNat) <|
  .next (s.slot n last fun s => Core.scalarI s n sd sa (fun a => a <<< (imm.toNat % 64)))

/-- SHRI by IMM32[5:0] (R249). -/
def execShri (n : Nat) (last : Bool) (sd sa : Nat) (imm : W32) (s : State) : Host.Outcome State Fault Refusal :=
  fetched s n (iWord 0x18 sd sa imm.toNat) <|
  .next (s.slot n last fun s => Core.scalarI s n sd sa (fun a => a >>> (imm.toNat % 64)))

/-- SARI by IMM32[5:0] (R249). -/
def execSari (n : Nat) (last : Bool) (sd sa : Nat) (imm : W32) (s : State) : Host.Outcome State Fault Refusal :=
  fetched s n (iWord 0x19 sd sa imm.toNat) <|
  .next (s.slot n last fun s => Core.scalarI s n sd sa (fun a => a.sshiftRight (imm.toNat % 64)))

/-- LUI: (SA and 0xFFFF_FFFF) or IMM32 shl 32 (R249). -/
def execLui (n : Nat) (last : Bool) (sd sa : Nat) (imm : W32) (s : State) : Host.Outcome State Fault Refusal :=
  fetched s n (iWord 0x1F sd sa imm.toNat) <|
  .next (s.slot n last fun s => Core.scalarI s n sd sa (fun a => (a &&& 0xFFFFFFFF#64) ||| (imm.setWidth 64 <<< 32)))

/-- LD8 to LD64: narrow read of 2^size bytes at SA + IMM32, zero-extended (R249, R250). The bank is read at the end of the period of issue (R204); the result is readable 3 counts after issue. -/
def execLd (n : Nat) (last : Bool) (size sd sa : Nat) (imm : W32) (s : State) : Host.Outcome State Fault Refusal :=
  fetched s n (iWord (0x20 + size) sd sa imm.toNat) <|
  .next (s.slot n last fun s => fun c k =>
    ((k.checkReads s.debug n [(0, sa)]).push n n (.narrowRead (k.narrowOff s.free c n sa imm) (2 ^ size) false sd)).contract s.fuse 1 n 0)

/-- LDS8 to LDS32: narrow read, sign-extended (R249, R250). -/
def execLds (n : Nat) (last : Bool) (size sd sa : Nat) (imm : W32) (s : State) : Host.Outcome State Fault Refusal :=
  fetched s n (iWord (0x24 + size) sd sa imm.toNat) <|
  .next (s.slot n last fun s => fun c k =>
    ((k.checkReads s.debug n [(0, sa)]).push n n (.narrowRead (k.narrowOff s.free c n sa imm) (2 ^ size) true sd)).contract s.fuse 1 n 0)

/-- ST8 to ST64: narrow write of SD at SA + IMM32 (R249, R250). -/
def execSt (n : Nat) (last : Bool) (size sd sa : Nat) (imm : W32) (s : State) : Host.Outcome State Fault Refusal :=
  fetched s n (iWord (0x28 + size) sd sa imm.toNat) <|
  .next (s.slot n last fun s => fun c k =>
    ((k.checkReads s.debug n [(0, sa), (0, sd)]).push n n
      (.narrowWrite (k.narrowOff s.free c n sa imm) (2 ^ size) (k.readS s.free c n sd))).contract s.fuse 2 n 0)

/-- The core as a bundle at count n reads its special registers: a STEP of the same bundle has not counted yet (log 16). -/
def Core.beforeStep (k : Core) (n : Nat) : Core := if k.lastStep = some n then { k with stepNo := k.stepNo - 1 } else k

/-- RDSR (R231, R249). -/
def execRdsr (n : Nat) (last : Bool) (sd num : Nat) (s : State) : Host.Outcome State Fault Refusal :=
  fetched s n (iWord 0x30 sd 0 num) <|
  .next (s.slot n last fun s => fun c k => Core.scalarRes s n sd (s.specialReg c (k.beforeStep n) num) k)

end Sys2Proof.Machine
end

