-- ==== Sys2Proof/Machine/Trans.lean ====
section
/-! DEFINITION. Transcendental functions (R188 to R191): a close value of the exact result, the bound around it,
the exact special results; which admissible word is returned is open (log 14). -/

namespace Sys2Proof.Machine

/-- The ten operations of R188. -/
inductive TransOp where
  | exp2 | exp | log2 | ln | rsqrt | sinpi | cospi | tanh | sigm | erf
  deriving DecidableEq, Repr

/-- Their number in Config.transPick. -/
def TransOp.num : TransOp → Nat
  | .exp2 => 0 | .exp => 1 | .log2 => 2 | .ln => 3 | .rsqrt => 4 | .sinpi => 5 | .cospi => 6 | .tanh => 7 | .sigm => 8
  | .erf => 9

/-- Fractional bits of the fixed-point evaluation. -/
def fixP : Nat := 256
/-- ln 2 in fixed point. -/
def fixLn2 : Nat := 80260960185991308862233904206310070533990667611589946606122867505419956976171
/-- log2 e in fixed point. -/
def fixLog2e : Nat := 167052672916848388242985626561247531987276682633131050150846402744536260568207
/-- π in fixed point. -/
def fixPi : Nat := 363771576891766324280234942777729862653393377328392429958772151117938894466185
/-- 2/√π in fixed point. -/
def fixErf : Nat := 130657381209852114387528029350014196574164286124850014242073919076264802271585

/-- The fixed-point magnitude of man × 2^exp. -/
def toFix (man : Nat) (exp : Int) : Nat :=
  if 0 ≤ exp + fixP then man * 2 ^ (exp + fixP).toNat else man / 2 ^ (-(exp + fixP)).toNat

/-- Σ t^j / j! from term k on. -/
def expSeries (t : Nat) : Nat → Nat → Nat → Nat
  | 0, _, _ => 0
  | f + 1, k, term => term + expSeries t f (k + 1) (term * t / 2 ^ fixP / (k + 1))

/-- 2^y for a fixed-point y of either sign. -/
def exp2Fix (y : Int) : Num :=
  let k := y / (2 ^ fixP : Nat)
  let f := (y % (2 ^ fixP : Nat)).toNat
  .fin false (expSeries (f * fixLn2 / 2 ^ fixP) 60 0 (2 ^ fixP)) (k - fixP)

/-- 2^x or e^x of a finite x; past ±256 in the exponent the result is ∞, or stands for a value above 0 and below every other. -/
def expNum (base2 : Bool) (neg : Bool) (man : Nat) (exp : Int) : Num :=
  if man = 0 then .fin false 1 0
  else if 8 ≤ ilog2 man exp then (if neg then .fin false 1 (-1000) else .inf false)
  else
    let x := toFix man exp
    let t := if base2 then x else x * fixLog2e / 2 ^ fixP
    exp2Fix (signed neg t)

/-- Σ z^(2j+1)/(2j+1) from term k on. -/
def atanhSeries (z2 : Nat) : Nat → Nat → Nat → Nat
  | 0, _, _ => 0
  | f + 1, k, t => t / (2 * k + 1) + atanhSeries z2 f (k + 1) (t * z2 / 2 ^ fixP)

/-- ln of a positive value, in fixed point. -/
def lnFix (man : Nat) (exp : Int) : Int :=
  let k := Nat.log2 man
  let one := 2 ^ fixP
  let m := man * 2 ^ fixP / 2 ^ k
  let z := (m - one) * one / (m + one)
  2 * (atanhSeries (z * z / one) 100 0 z : Int) + (exp + k) * fixLn2

/-- The dyadic value of a fixed-point integer. -/
def ofFix (i : Int) : Num := (Num.ofInt i).scale (-(fixP : Int))

/-- Alternating Σ x^(2j+1)/(2j+1)! for the sine, from term k on. -/
def sinSeries (x2 : Nat) : Nat → Nat → Nat → Int
  | 0, _, _ => 0
  | f + 1, k, t => (t : Int) - sinSeries x2 f (k + 1) (t * x2 / 2 ^ fixP / ((2 * k + 2) * (2 * k + 3)))

/-- sin(π r) for a fixed-point r of 0 to 2; of magnitude 1 at the halves alone. -/
def sinpiFix (r : Nat) : Int :=
  let one := 2 ^ fixP
  let neg := one ≤ r
  let r := if neg then r - one else r
  let r := if one < 2 * r then one - r else r
  let x := r * fixPi / one
  let s := if 2 * r = one then (one : Int) else min (sinSeries (x * x / one) 60 0 x) (one - 1)
  if neg then -s else s

/-- x mod 2 in fixed point. -/
def mod2Fix (neg : Bool) (man : Nat) (exp : Int) : Nat := (signed neg (toFix man exp) % (2 ^ (fixP + 1) : Nat)).toNat

/-- Alternating Σ x^(2j+1)/(j! (2j+1)); t is x^(2j+1)/j!. -/
def erfSeries (x2 : Nat) : Nat → Nat → Nat → Int
  | 0, _, _ => 0
  | f + 1, k, t => ((t / (2 * k + 1) : Nat) : Int) - erfSeries x2 f (k + 1) (t * x2 / 2 ^ fixP / (k + 1))

/-- 1 less 2^−100: what stands for the exact result in a quotient by it that is below 1 and within 2^−60 of it. -/
def belowOne : Num := .fin false (2 ^ 100 - 1) (-100)

/-- A close value of the exact result for a finite operand: its relative error is below 2^−60, and it lies on the same side of a power of
two. -/
def transNear (op : TransOp) (neg : Bool) (man : Nat) (exp : Int) : Num :=
  let one := Num.fin false 1 0
  match op with
  | .exp2 => expNum true neg man exp
  | .exp => expNum false neg man exp
  | .log2 => ofFix (lnFix man exp * (2 ^ fixP : Nat) / fixLn2)
  | .ln => ofFix (lnFix man exp)
  | .rsqrt => one.div (Num.fin false (man * 2 ^ 200) (exp - 200)).sqrt
  | .sinpi => ofFix (sinpiFix (mod2Fix neg man exp))
  | .cospi => ofFix (sinpiFix ((mod2Fix neg man exp + 2 ^ (fixP - 1)) % 2 ^ (fixP + 1)))
  | .tanh =>
    if ilog2 man exp < -60 then (Num.fin neg man exp).mul belowOne
    else
      let a := expNum false true man (exp + 1)
      match (one.add a.neg).div (one.add a) with
      | .fin _ m e => .fin neg m e
      | x => x
  | .sigm =>
    let a := expNum false true man exp
    if neg then a.div (one.add a) else one.div (one.add a)
  | .erf =>
    if ilog2 man exp < -60 then (Num.fin neg man exp).mul ((Num.ofInt fixErf).scale (-(fixP : Int)))
    else if 3 ≤ ilog2 man exp then (if neg then belowOne.neg else belowOne)
    else
      let x := toFix man exp
      let s := erfSeries (x * x / 2 ^ fixP) 400 0 x
      .fin neg (s.toNat * fixErf / 2 ^ fixP) (-(fixP : Int))

/-- Bound in ulp, and the absolute term's exponent if there is one (R188). -/
def transBound : TransOp → Nat × Option Int
  | .exp2 => (2, none) | .exp => (3, none) | .log2 => (2, some (-23)) | .ln => (3, some (-23)) | .rsqrt => (1, none)
  | .sinpi => (2, some (-24)) | .cospi => (2, some (-24)) | .tanh => (2, none) | .sigm => (2, none) | .erf => (2, none)

/-- Is the FP32 word within the bound of R188 around the close value. An infinity counts as ±2^128. -/
def transAdmits (op : TransOp) (y : Num) (w : W32) : Bool :=
  let v := match f32 w with
    | .inf s => Num.fin s 1 128
    | x => x
  match v, y with
  | .fin .., .fin _ my ey =>
    let b := transBound op
    let ue := if my = 0 then -149 else max (ilog2 my ey) (-126) - 23
    let tol := Num.fin false b.1 ue
    let tol := if my = 0 ∨ ilog2 my ey < -126 then Num.fin false 1 (-149) else tol
    let tol := match b.2 with
      | some a => if tol.lt (Num.fin false 1 a) then Num.fin false 1 a else tol
      | none => tol
    !(tol.lt ((v.add y.neg).abs))
  | _, _ => false

/-- The exact results of R62, R189 and R190; none where only a bound is given. -/
def transExact (op : TransOp) (x : Num) : Option Num :=
  let zero := fun s => some (Num.fin s 0 0)
  let one := fun s => some (Num.fin s 1 0)
  match x with
  | .nan => some .nan
  | .inf s =>
    match op with
    | .exp2 => if s then zero false else some (.inf false)
    | .exp => if s then zero false else some (.inf false)
    | .log2 => some (if s then .nan else .inf false)
    | .ln => some (if s then .nan else .inf false)
    | .rsqrt => if s then some .nan else zero false
    | .sinpi => some .nan
    | .cospi => some .nan
    | .tanh => one s
    | .sigm => if s then zero false else one false
    | .erf => one s
  | .fin s m e =>
    if m = 0 then
      match op with
      | .exp2 => one false
      | .exp => one false
      | .log2 => some (.inf true)
      | .ln => some (.inf true)
      | .rsqrt => some (.inf s)
      | .sinpi => zero s
      | .cospi => one false
      | .tanh => zero s
      | .sigm => some (.fin false 1 (-1))
      | .erf => zero s
    else
      -- twice the value, and whether it is an integer
      let tw := (Num.fin false m (e + 1))
      let i := truncInt false m (e + 1)
      let half := !(tw.lt (Num.ofInt i)) && !((Num.ofInt i).lt tw)
      match op with
      | .log2 => if s then some .nan else none
      | .ln => if s then some .nan else none
      | .rsqrt => if s then some .nan else none
      | .sinpi => if half && i % 2 == 0 then zero s else none
      | .cospi =>
        if half && i % 2 == 1 then zero false
        else if half && decide (23 ≤ ilog2 m e) then one (i % 4 == 2) else none
      | _ => none

/-- The word a transcendental operation returns: exact where R189 or R190 says so, else an admissible word, the same
    for the same operand (R188, R191). -/
def transResult (op : TransOp) (a : W32) : W32 :=
  match transExact op (f32 a) with
  | some x => toF32 x
  | none =>
    match f32 a with
    | .fin s m e =>
      let y := transNear op s m e
      match y with
      | .inf _ => toF32 y
      | _ =>
        let w := BitVec.ofNat 32 (Config.transPick op.num a.toNat)
        if transAdmits op y w then w else toF32 y
    | _ => nan32

end Sys2Proof.Machine
end

