-- ==== Sys2Proof/Machine/Vector.lean ====
section
/-! DEFINITION. The vector slot (06, 08 R244 to R247). -/

namespace Sys2Proof.Machine

/-- The v-th number, from 0, that a list does not hold: v moved up past those it holds, at most once for each. -/
def nthFree (taken : List Nat) (v : Nat) : Nat → Nat
  | 0 => v
  | f + 1 => let u := nthFree taken v f
             v + taken.countP (fun t => decide (t ≤ u))

/-- The start states of the first lanes of a device, the last one first: any that the lanes before it do not have (R197, log 7). -/
def genStarts (seed : W64) : Nat → List Nat
  | 0 => []
  | i + 1 =>
    let l := genStarts seed i
    nthFree l (Config.genSeed seed i % (2 ^ 128 - i)) (i + 1) :: l

/-- A generator's state after a number of periods since it was set (R196, R197). -/
def genState (seed : W64) (c lane : Nat) : Nat → BitVec 128
  | 0 => BitVec.ofNat 128 ((genStarts seed (128 * c + lane + 1)).headD 0)
  | k + 1 => Config.genNext (genState seed c lane k)

/-- A word rounded to a narrower float format and back (R178). -/
def roundTo (code : Nat) (sat : Bool) (a : W32) : W32 := toF32 (decodeElem code (encodeElem code sat (f32 a)))

/-- FADD: A + B (R245, R61). -/
def execFadd (n : Nat) (last : Bool) (v : VFields) (s : State) : Host.Outcome State Fault Refusal :=
  fetched s n (vWord 0x01 v) <|
  .next (s.slot n last fun s => Core.vec2 s n 4 9 v fadd)

/-- FSUB: A − B (R245, R61). -/
def execFsub (n : Nat) (last : Bool) (v : VFields) (s : State) : Host.Outcome State Fault Refusal :=
  fetched s n (vWord 0x02 v) <|
  .next (s.slot n last fun s => Core.vec2 s n 4 9 v fsub)

/-- FMUL: A × B (R245, R61). -/
def execFmul (n : Nat) (last : Bool) (v : VFields) (s : State) : Host.Outcome State Fault Refusal :=
  fetched s n (vWord 0x03 v) <|
  .next (s.slot n last fun s => Core.vec2 s n 4 9 v fmul)

/-- FMA: A × B + C, rounded once (R245, R61). -/
def execFma (n : Nat) (last : Bool) (v : VFields) (s : State) : Host.Outcome State Fault Refusal :=
  fetched s n (vWord 0x04 v) <|
  .next (s.slot n last fun s => Core.vec3 s n 4 9 v ffma)

/-- FMIN (R64). -/
def execFmin (n : Nat) (last : Bool) (v : VFields) (s : State) : Host.Outcome State Fault Refusal :=
  fetched s n (vWord 0x05 v) <|
  .next (s.slot n last fun s => Core.vec2 s n 4 9 v fmin)

/-- FMAX (R64). -/
def execFmax (n : Nat) (last : Bool) (v : VFields) (s : State) : Host.Outcome State Fault Refusal :=
  fetched s n (vWord 0x06 v) <|
  .next (s.slot n last fun s => Core.vec2 s n 4 9 v fmax)

/-- FABS of A; a NaN gives the canonical NaN (R245, R62). -/
def execFabs (n : Nat) (last : Bool) (v : VFields) (s : State) : Host.Outcome State Fault Refusal :=
  fetched s n (vWord 0x07 v) <|
  .next (s.slot n last fun s => Core.vec1 s n 4 9 v (fun a => if isNaN32 a then nan32 else a &&& 0x7FFFFFFF#32))

/-- FNEG of A; a NaN gives the canonical NaN (R245, R62). -/
def execFneg (n : Nat) (last : Bool) (v : VFields) (s : State) : Host.Outcome State Fault Refusal :=
  fetched s n (vWord 0x08 v) <|
  .next (s.slot n last fun s => Core.vec1 s n 4 9 v (fun a => if isNaN32 a then nan32 else a ^^^ 0x80000000#32))

/-- FCMPEQ into a mask (R65, R167). -/
def execFcmpeq (n : Nat) (last : Bool) (v : VFields) (s : State) : Host.Outcome State Fault Refusal :=
  fetched s n (vWord 0x09 v) <|
  .next (s.slot n last fun s => Core.compare s n v fcmpEq)

/-- FCMPNE into a mask: true with a NaN (R65, R167). -/
def execFcmpne (n : Nat) (last : Bool) (v : VFields) (s : State) : Host.Outcome State Fault Refusal :=
  fetched s n (vWord 0x0A v) <|
  .next (s.slot n last fun s => Core.compare s n v (fun a b => !fcmpEq a b))

/-- FCMPLT into a mask (R65, R167). -/
def execFcmplt (n : Nat) (last : Bool) (v : VFields) (s : State) : Host.Outcome State Fault Refusal :=
  fetched s n (vWord 0x0B v) <|
  .next (s.slot n last fun s => Core.compare s n v fcmpLt)

/-- FCMPLE into a mask (R65, R167). -/
def execFcmple (n : Nat) (last : Bool) (v : VFields) (s : State) : Host.Outcome State Fault Refusal :=
  fetched s n (vWord 0x0C v) <|
  .next (s.slot n last fun s => Core.compare s n v fcmpLe)

/-- FDIV: A / B, correctly rounded (R61, R63). -/
def execFdiv (n : Nat) (last : Bool) (v : VFields) (s : State) : Host.Outcome State Fault Refusal :=
  fetched s n (vWord 0x0E v) <|
  .next (s.slot n last fun s => Core.vec2 s n 12 10 v fdiv)

/-- FSQRT of A, correctly rounded (R61). -/
def execFsqrt (n : Nat) (last : Bool) (v : VFields) (s : State) : Host.Outcome State Fault Refusal :=
  fetched s n (vWord 0x0F v) <|
  .next (s.slot n last fun s => Core.vec1 s n 12 10 v fsqrt)

/-- EXP2 of A (R188 to R191). -/
def execExp2 (n : Nat) (last : Bool) (v : VFields) (s : State) : Host.Outcome State Fault Refusal :=
  fetched s n (vWord 0x10 v) <|
  .next (s.slot n last fun s => Core.vec1 s n 12 11 v (transResult .exp2))

/-- EXP of A (R188 to R191). -/
def execExp (n : Nat) (last : Bool) (v : VFields) (s : State) : Host.Outcome State Fault Refusal :=
  fetched s n (vWord 0x11 v) <|
  .next (s.slot n last fun s => Core.vec1 s n 12 11 v (transResult .exp))

/-- LOG2 of A (R188 to R191). -/
def execLog2 (n : Nat) (last : Bool) (v : VFields) (s : State) : Host.Outcome State Fault Refusal :=
  fetched s n (vWord 0x12 v) <|
  .next (s.slot n last fun s => Core.vec1 s n 12 11 v (transResult .log2))

/-- LN of A (R188 to R191). -/
def execLn (n : Nat) (last : Bool) (v : VFields) (s : State) : Host.Outcome State Fault Refusal :=
  fetched s n (vWord 0x13 v) <|
  .next (s.slot n last fun s => Core.vec1 s n 12 11 v (transResult .ln))

/-- RSQRT of A (R188 to R191). -/
def execRsqrt (n : Nat) (last : Bool) (v : VFields) (s : State) : Host.Outcome State Fault Refusal :=
  fetched s n (vWord 0x14 v) <|
  .next (s.slot n last fun s => Core.vec1 s n 12 11 v (transResult .rsqrt))

/-- SINPI of A (R188 to R191). -/
def execSinpi (n : Nat) (last : Bool) (v : VFields) (s : State) : Host.Outcome State Fault Refusal :=
  fetched s n (vWord 0x15 v) <|
  .next (s.slot n last fun s => Core.vec1 s n 12 11 v (transResult .sinpi))

/-- COSPI of A (R188 to R191). -/
def execCospi (n : Nat) (last : Bool) (v : VFields) (s : State) : Host.Outcome State Fault Refusal :=
  fetched s n (vWord 0x16 v) <|
  .next (s.slot n last fun s => Core.vec1 s n 12 11 v (transResult .cospi))

/-- TANH of A (R188 to R191). -/
def execTanh (n : Nat) (last : Bool) (v : VFields) (s : State) : Host.Outcome State Fault Refusal :=
  fetched s n (vWord 0x17 v) <|
  .next (s.slot n last fun s => Core.vec1 s n 12 11 v (transResult .tanh))

/-- SIGM of A (R188 to R191). -/
def execSigm (n : Nat) (last : Bool) (v : VFields) (s : State) : Host.Outcome State Fault Refusal :=
  fetched s n (vWord 0x18 v) <|
  .next (s.slot n last fun s => Core.vec1 s n 12 11 v (transResult .sigm))

/-- ERF of A (R188 to R191). -/
def execErf (n : Nat) (last : Bool) (v : VFields) (s : State) : Host.Outcome State Fault Refusal :=
  fetched s n (vWord 0x19 v) <|
  .next (s.slot n last fun s => Core.vec1 s n 12 11 v (transResult .erf))

/-- F2I: nearest even, saturated (R57, R58). -/
def execF2i (n : Nat) (last : Bool) (v : VFields) (s : State) : Host.Outcome State Fault Refusal :=
  fetched s n (vWord 0x20 v) <|
  .next (s.slot n last fun s => Core.vec1 s n 4 9 v (fun a => BitVec.ofInt 32 (toIntN 32 false (f32 a))))

/-- F2IZ: toward zero, saturated (R177). -/
def execF2iz (n : Nat) (last : Bool) (v : VFields) (s : State) : Host.Outcome State Fault Refusal :=
  fetched s n (vWord 0x21 v) <|
  .next (s.slot n last fun s => Core.vec1 s n 4 9 v (fun a => BitVec.ofInt 32 (toIntN 32 true (f32 a))))

/-- I2F: nearest even (R59). -/
def execI2f (n : Nat) (last : Bool) (v : VFields) (s : State) : Host.Outcome State Fault Refusal :=
  fetched s n (vWord 0x22 v) <|
  .next (s.slot n last fun s => Core.vec1 s n 4 9 v (fun a => toF32 (Num.ofInt a.toInt)))

/-- FRND: A rounded to the format of VC[3:0] with SAT of VC[8], kept as FP32 (R178, R56, R57). -/
def execFrnd (n : Nat) (last : Bool) (v : VFields) (s : State) : Host.Outcome State Fault Refusal :=
  fetched s n (vWord 0x23 v) <|
  .next (s.slot n last fun s => Core.vec1 s n 4 9 v (roundTo (v.vc.slot % 16) (bitOf v.vc.slot 8)))

/-- IADD, saturating (R66). -/
def execIadd (n : Nat) (last : Bool) (v : VFields) (s : State) : Host.Outcome State Fault Refusal :=
  fetched s n (vWord 0x28 v) <|
  .next (s.slot n last fun s => Core.vec2 s n 4 9 v (satOp (· + ·)))

/-- ISUB, saturating (R66). -/
def execIsub (n : Nat) (last : Bool) (v : VFields) (s : State) : Host.Outcome State Fault Refusal :=
  fetched s n (vWord 0x29 v) <|
  .next (s.slot n last fun s => Core.vec2 s n 4 9 v (satOp (· - ·)))

/-- IMUL, saturating (R66). -/
def execImul (n : Nat) (last : Bool) (v : VFields) (s : State) : Host.Outcome State Fault Refusal :=
  fetched s n (vWord 0x2A v) <|
  .next (s.slot n last fun s => Core.vec2 s n 4 9 v (satOp (· * ·)))

/-- IMIN, signed (R245). -/
def execImin (n : Nat) (last : Bool) (v : VFields) (s : State) : Host.Outcome State Fault Refusal :=
  fetched s n (vWord 0x2B v) <|
  .next (s.slot n last fun s => Core.vec2 s n 4 9 v (satOp min))

/-- IMAX, signed (R245). -/
def execImax (n : Nat) (last : Bool) (v : VFields) (s : State) : Host.Outcome State Fault Refusal :=
  fetched s n (vWord 0x2C v) <|
  .next (s.slot n last fun s => Core.vec2 s n 4 9 v (satOp max))

/-- IABS; that of −2^31 is 2^31 − 1 (R176). -/
def execIabs (n : Nat) (last : Bool) (v : VFields) (s : State) : Host.Outcome State Fault Refusal :=
  fetched s n (vWord 0x2D v) <|
  .next (s.slot n last fun s => Core.vec1 s n 4 9 v (fun a => BitVec.ofInt 32 (clampInt 32 a.toInt.natAbs)))

/-- ICMPEQ into a mask (R245, R167). -/
def execIcmpeq (n : Nat) (last : Bool) (v : VFields) (s : State) : Host.Outcome State Fault Refusal :=
  fetched s n (vWord 0x2E v) <|
  .next (s.slot n last fun s => Core.compare s n v (fun a b => a == b))

/-- ICMPNE into a mask (R245, R167). -/
def execIcmpne (n : Nat) (last : Bool) (v : VFields) (s : State) : Host.Outcome State Fault Refusal :=
  fetched s n (vWord 0x2F v) <|
  .next (s.slot n last fun s => Core.compare s n v (fun a b => a != b))

/-- ICMPLT into a mask, signed (R245, R167). -/
def execIcmplt (n : Nat) (last : Bool) (v : VFields) (s : State) : Host.Outcome State Fault Refusal :=
  fetched s n (vWord 0x30 v) <|
  .next (s.slot n last fun s => Core.compare s n v (fun a b => a.slt b))

/-- ICMPLE into a mask, signed (R245, R167). -/
def execIcmple (n : Nat) (last : Bool) (v : VFields) (s : State) : Host.Outcome State Fault Refusal :=
  fetched s n (vWord 0x31 v) <|
  .next (s.slot n last fun s => Core.compare s n v (fun a b => a.sle b))

/-- AND of bit patterns (R245). -/
def execVand (n : Nat) (last : Bool) (v : VFields) (s : State) : Host.Outcome State Fault Refusal :=
  fetched s n (vWord 0x38 v) <|
  .next (s.slot n last fun s => Core.vec2 s n 4 9 v (· &&& ·))

/-- OR of bit patterns (R245). -/
def execVor (n : Nat) (last : Bool) (v : VFields) (s : State) : Host.Outcome State Fault Refusal :=
  fetched s n (vWord 0x39 v) <|
  .next (s.slot n last fun s => Core.vec2 s n 4 9 v (· ||| ·))

/-- XOR of bit patterns (R245). -/
def execVxor (n : Nat) (last : Bool) (v : VFields) (s : State) : Host.Outcome State Fault Refusal :=
  fetched s n (vWord 0x3A v) <|
  .next (s.slot n last fun s => Core.vec2 s n 4 9 v (· ^^^ ·))

/-- NOT of a bit pattern (R245). -/
def execVnot (n : Nat) (last : Bool) (v : VFields) (s : State) : Host.Outcome State Fault Refusal :=
  fetched s n (vWord 0x3B v) <|
  .next (s.slot n last fun s => Core.vec1 s n 4 9 v (fun a => ~~~a))

/-- SHL by bits [4:0] of B (R176). -/
def execVshl (n : Nat) (last : Bool) (v : VFields) (s : State) : Host.Outcome State Fault Refusal :=
  fetched s n (vWord 0x3C v) <|
  .next (s.slot n last fun s => Core.vec2 s n 4 9 v (fun a b => a <<< (b.toNat % 32)))

/-- SHR by bits [4:0] of B (R176). -/
def execVshr (n : Nat) (last : Bool) (v : VFields) (s : State) : Host.Outcome State Fault Refusal :=
  fetched s n (vWord 0x3D v) <|
  .next (s.slot n last fun s => Core.vec2 s n 4 9 v (fun a b => a >>> (b.toNat % 32)))

/-- SAR by bits [4:0] of B (R176). -/
def execVsar (n : Nat) (last : Bool) (v : VFields) (s : State) : Host.Outcome State Fault Refusal :=
  fetched s n (vWord 0x3E v) <|
  .next (s.slot n last fun s => Core.vec2 s n 4 9 v (fun a b => a.sshiftRight (b.toNat % 32)))

/-- ROL by bits [4:0] of B (R176). -/
def execRol (n : Nat) (last : Bool) (v : VFields) (s : State) : Host.Outcome State Fault Refusal :=
  fetched s n (vWord 0x3F v) <|
  .next (s.slot n last fun s => Core.vec2 s n 4 9 v (fun a b => a.rotateLeft (b.toNat % 32)))

/-- MADD: A + B mod 2^32 (R175). -/
def execMadd (n : Nat) (last : Bool) (v : VFields) (s : State) : Host.Outcome State Fault Refusal :=
  fetched s n (vWord 0x40 v) <|
  .next (s.slot n last fun s => Core.vec2 s n 4 9 v (· + ·))

/-- MULLO: bits [31:0] of the unsigned product (R175). -/
def execMullo (n : Nat) (last : Bool) (v : VFields) (s : State) : Host.Outcome State Fault Refusal :=
  fetched s n (vWord 0x41 v) <|
  .next (s.slot n last fun s => Core.vec2 s n 4 9 v (· * ·))

/-- MULHI: bits [63:32] of the unsigned product (R175). -/
def execMulhi (n : Nat) (last : Bool) (v : VFields) (s : State) : Host.Outcome State Fault Refusal :=
  fetched s n (vWord 0x42 v) <|
  .next (s.slot n last fun s => Core.vec2 s n 4 9 v (fun a b => BitVec.ofNat 32 (a.toNat * b.toNat / 2 ^ 32)))

/-- UCMPLT into a mask, unsigned (R245, R167). -/
def execUcmplt (n : Nat) (last : Bool) (v : VFields) (s : State) : Host.Outcome State Fault Refusal :=
  fetched s n (vWord 0x43 v) <|
  .next (s.slot n last fun s => Core.compare s n v (fun a b => a.ult b))

/-- UCMPLE into a mask, unsigned (R245, R167). -/
def execUcmple (n : Nat) (last : Bool) (v : VFields) (s : State) : Host.Outcome State Fault Refusal :=
  fetched s n (vWord 0x44 v) <|
  .next (s.slot n last fun s => Core.compare s n v (fun a b => a.ule b))

/-- LANEIDX: lane i receives i (R245). -/
def execLaneidx (n : Nat) (last : Bool) (v : VFields) (s : State) : Host.Outcome State Fault Refusal :=
  fetched s n (vWord 0x48 v) <|
  .next (s.slot n last fun s => Core.vector s n 4 9 v [] [] (fun _ _ i => BitVec.ofNat 32 i))

/-- PERM: data A, index B; an index outside 0 to VL − 1 gives 0 (R181, R182). -/
def execPerm (n : Nat) (last : Bool) (v : VFields) (s : State) : Host.Outcome State Fault Refusal :=
  fetched s n (vWord 0x49 v) <|
  .next (s.slot n last fun s => Core.vector s n 4 9 v [v.va, v.vb] [] (fun k c i =>
    let j := (k.src s.free c n v.vb i).toInt
    if 0 ≤ j ∧ j < k.vl then k.src s.free c n v.va j.toNat else 0))

/-- GENRD: the lane generator's output in the period of issue (R195, R196). -/
def execGenrd (n : Nat) (last : Bool) (v : VFields) (s : State) : Host.Outcome State Fault Refusal :=
  fetched s n (vWord 0x4A v) <|
  .next (s.slot n last fun s => Core.vector s n 4 9 v [] [] (fun k c i => Config.genOut (genState s.seed c i k.genAge)))

/-- SEL: A where bit i of MK(VC[2:0]) is 1, else B (R245). -/
def execSel (n : Nat) (last : Bool) (v : VFields) (s : State) : Host.Outcome State Fault Refusal :=
  fetched s n (vWord 0x0D v) <|
  .next (s.slot n last fun s => Core.vector s n 4 9 v [v.va, v.vb] [v.vc.slot % 8] (fun k c i =>
    if (k.readMask s.free c n (v.vc.slot % 8)).getLsbD i then k.src s.free c n v.va i else k.src s.free c n v.vb i))

/-- RFSUM (R184, R185). -/
def execRfsum (n : Nat) (last : Bool) (v : VFields) (s : State) : Host.Outcome State Fault Refusal :=
  fetched s n (vWord 0x50 v) <|
  .next (s.slot n last fun s => Core.reduce s n v (treeOf 0 fadd))

/-- RISUM, saturating (R184, R185). -/
def execRisum (n : Nat) (last : Bool) (v : VFields) (s : State) : Host.Outcome State Fault Refusal :=
  fetched s n (vWord 0x51 v) <|
  .next (s.slot n last fun s => Core.reduce s n v (treeOf 0 (satOp (· + ·))))

/-- RFMAX (R184, R185). -/
def execRfmax (n : Nat) (last : Bool) (v : VFields) (s : State) : Host.Outcome State Fault Refusal :=
  fetched s n (vWord 0x52 v) <|
  .next (s.slot n last fun s => Core.reduce s n v (treeOf 0xFF800000#32 fmax))

/-- RFMIN (R184, R185). -/
def execRfmin (n : Nat) (last : Bool) (v : VFields) (s : State) : Host.Outcome State Fault Refusal :=
  fetched s n (vWord 0x53 v) <|
  .next (s.slot n last fun s => Core.reduce s n v (treeOf 0x7F800000#32 fmin))

/-- RIMAX (R184, R185). -/
def execRimax (n : Nat) (last : Bool) (v : VFields) (s : State) : Host.Outcome State Fault Refusal :=
  fetched s n (vWord 0x54 v) <|
  .next (s.slot n last fun s => Core.reduce s n v (treeOf 0x80000000#32 (satOp max)))

/-- RIMIN (R184, R185). -/
def execRimin (n : Nat) (last : Bool) (v : VFields) (s : State) : Host.Outcome State Fault Refusal :=
  fetched s n (vWord 0x55 v) <|
  .next (s.slot n last fun s => Core.reduce s n v (treeOf 0x7FFFFFFF#32 (satOp min)))

/-- RIDXMAX (R187). -/
def execRidxmax (n : Nat) (last : Bool) (v : VFields) (s : State) : Host.Outcome State Fault Refusal :=
  fetched s n (vWord 0x56 v) <|
  .next (s.slot n last fun s => Core.reduce s n v indexOfMax)

/-- MAND (R246). -/
def execMand (n : Nat) (last : Bool) (md ma mb : Nat) (s : State) : Host.Outcome State Fault Refusal :=
  fetched s n (mWord 0x60 md ma mb) <|
  .next (s.slot n last fun s => Core.maskOp s n md ma mb (· &&& ·))

/-- MOR (R246). -/
def execMor (n : Nat) (last : Bool) (md ma mb : Nat) (s : State) : Host.Outcome State Fault Refusal :=
  fetched s n (mWord 0x61 md ma mb) <|
  .next (s.slot n last fun s => Core.maskOp s n md ma mb (· ||| ·))

/-- MXOR (R246). -/
def execMxor (n : Nat) (last : Bool) (md ma mb : Nat) (s : State) : Host.Outcome State Fault Refusal :=
  fetched s n (mWord 0x62 md ma mb) <|
  .next (s.slot n last fun s => Core.maskOp s n md ma mb (· ^^^ ·))

/-- MANDN: the first mask and not the second (R246). -/
def execMandn (n : Nat) (last : Bool) (md ma mb : Nat) (s : State) : Host.Outcome State Fault Refusal :=
  fetched s n (mWord 0x63 md ma mb) <|
  .next (s.slot n last fun s => Core.maskOp s n md ma mb (fun a b => a &&& ~~~b))

/-- MRANGE: bits below min(S, 128) (R246). -/
def execMrange (n : Nat) (last : Bool) (md sa : Nat) (s : State) : Host.Outcome State Fault Refusal :=
  fetched s n (mWord 0x64 md sa 0) <|
  .next (s.slot n last fun s => fun c k =>
    let m := min (k.readS s.free c n sa).toNat 128
    ((k.checkReads s.debug n [(0, sa)]).land n 4 (.mask md (maskOf (fun i => decide (i < m))) false)).contract s.fuse 9 n 0)

/-- SETVL: clamped to 1 to 128, for operations of later counts (R247). -/
def execSetvl (n : Nat) (last : Bool) (sa : Nat) (s : State) : Host.Outcome State Fault Refusal :=
  fetched s n (.vector (0x68 + sa * 2 ^ 20)) <|
  .next (s.slot n last fun s => fun c k =>
    (k.checkReads s.debug n [(0, sa)]).land n 1 (.vl (max 1 (min (k.readS s.free c n sa).toNat 128))))

end Sys2Proof.Machine
end

