-- ==== Sys2Proof/Machine/Dispatch.lean ====
section
/-! DEFINITION. Every command's meaning: one arm per constructor. -/

namespace Sys2Proof.Machine

def exec (i : Instr) (s : State) : Host.Outcome State Fault Refusal :=
  match i with
  -- host commands delivered from a ring (18)
  | .bindProgram r => Sys2Proof.Machine.execBindProgram r s
  | .rePlacement r => Sys2Proof.Machine.execRePlacement r s
  | .placementAtBoundary => Sys2Proof.Machine.execPlacementAtBoundary s
  | .run r => Sys2Proof.Machine.execRun r s
  | .runCompletion => Sys2Proof.Machine.execRunCompletion s
  | .ladleCopy r => Sys2Proof.Machine.execLadleCopy r s
  | .ingestJob r => Sys2Proof.Machine.execIngestJob r s
  | .stirrerEpoch r => Sys2Proof.Machine.execStirrerEpoch r s
  | .pressJob x => Sys2Proof.Machine.execPressJob x s
  | .pressGroupTableLoad r => Sys2Proof.Machine.execPressGroupTableLoad r s
  | .shardGroupTableLoad r => Sys2Proof.Machine.execShardGroupTableLoad r s
  | .semaphoreWait r => Sys2Proof.Machine.execSemaphoreWait r s
  | .semaphoreAdd r => Sys2Proof.Machine.execSemaphoreAdd r s
  | .semaphoreSubtract r => Sys2Proof.Machine.execSemaphoreSubtract r s
  | .contextSwitch r => Sys2Proof.Machine.execContextSwitch r s
  | .contextStart => Sys2Proof.Machine.execContextStart s
  | .calRead r => Sys2Proof.Machine.execCalRead r s
  | .calWrite r => Sys2Proof.Machine.execCalWrite r s
  | .loopback r => Sys2Proof.Machine.execLoopback r s
  | .loopbackByteTimeout byte => Sys2Proof.Machine.execLoopbackByteTimeout byte s
  | .gaugeSample r => Sys2Proof.Machine.execGaugeSample r s
  | .fence r => Sys2Proof.Machine.execFence r s
  | .fenceRelease r => Sys2Proof.Machine.execFenceRelease r s
  -- rings (17)
  | .doorbell r value host => Sys2Proof.Machine.execDoorbell r value host s
  | .descriptorRead r err => Sys2Proof.Machine.execDescriptorRead r err s
  | .commandRingEnable r value => Sys2Proof.Machine.execCommandRingEnable r value s
  | .commandRingDisable r value => Sys2Proof.Machine.execCommandRingDisable r value s
  | .eventRingEnable e value => Sys2Proof.Machine.execEventRingEnable e value s
  | .eventRingHeadWrite e value => Sys2Proof.Machine.execEventRingHeadWrite e value s
  | .armed e value => Sys2Proof.Machine.execArmed e value s
  -- reset, start-up, clocks (19, 16)
  | .deviceReset => Sys2Proof.Machine.execDeviceReset s
  | .deviceResetRequest value => Sys2Proof.Machine.execDeviceResetRequest value s
  | .startUp modules slow range drifts temps cross fails strap => Sys2Proof.Machine.execStartUp modules slow range drifts temps cross fails strap s
  | .serviceRequest value => Sys2Proof.Machine.execServiceRequest value s
  | .referenceSwitch value => Sys2Proof.Machine.execReferenceSwitch value s
  | .referenceSwitchComplete => Sys2Proof.Machine.execReferenceSwitchComplete s
  | .referenceLoss => Sys2Proof.Machine.execReferenceLoss s
  | .cfgBusChange value => Sys2Proof.Machine.execCfgBusChange value s
  | .synchronisedChangeRequest value => Sys2Proof.Machine.execSynchronisedChangeRequest value s
  | .standbyPllLock r => Sys2Proof.Machine.execStandbyPllLock r s
  | .lockCheck => Sys2Proof.Machine.execLockCheck s
  | .changeHold => Sys2Proof.Machine.execChangeHold s
  | .clockSwitch => Sys2Proof.Machine.execClockSwitch s
  | .stoppedChangeRequest value => Sys2Proof.Machine.execStoppedChangeRequest value s
  | .stoppedChangeRestart => Sys2Proof.Machine.execStoppedChangeRestart s
  | .clkEnCrm value => Sys2Proof.Machine.execClkEnCrm value s
  | .clkEnGrb value => Sys2Proof.Machine.execClkEnGrb value s
  | .clkEnMisc value => Sys2Proof.Machine.execClkEnMisc value s
  | .bulkTankReady fitted => Sys2Proof.Machine.execBulkTankReady fitted s
  | .holdCounterClear value => Sys2Proof.Machine.execHoldCounterClear value s
  -- memory maintenance (12)
  | .quiesce k value => Sys2Proof.Machine.execQuiesce k value s
  | .stackQuiesced k => Sys2Proof.Machine.execStackQuiesced k s
  | .sppr value => Sys2Proof.Machine.execSppr value s
  | .hppr value => Sys2Proof.Machine.execHppr value s
  | .spares value => Sys2Proof.Machine.execSpares value s
  | .ieee1500 value => Sys2Proof.Machine.execIeee1500 value s
  | .maintenanceOperationEnd iface words out => Sys2Proof.Machine.execMaintenanceOperationEnd iface words out s
  | .checkValueBlockStart n value => Sys2Proof.Machine.execCheckValueBlockStart n value s
  -- host-side operations: feeds, ports, requests, registers, host accesses (13, 15, 17, 20 to 22)
  | .feedb n x => Sys2Proof.Machine.execFeedb n x s
  | .feedh n x => Sys2Proof.Machine.execFeedh n x s
  | .feedw n x => Sys2Proof.Machine.execFeedw n x s
  | .portUpRequest n value => Sys2Proof.Machine.execPortUpRequest n value s
  | .portDownRequest n value => Sys2Proof.Machine.execPortDownRequest n value s
  | .linkUp n rtt => Sys2Proof.Machine.execLinkUp n rtt s
  | .linkFailure n cause => Sys2Proof.Machine.execLinkFailure n cause s
  | .reflect value => Sys2Proof.Machine.execReflect value s
  | .attestationRequest value => Sys2Proof.Machine.execAttestationRequest value s
  | .attestationDone err => Sys2Proof.Machine.execAttestationDone err s
  | .bootCheckRequest value => Sys2Proof.Machine.execBootCheckRequest value s
  | .bootCheckEnd err => Sys2Proof.Machine.execBootCheckEnd err s
  | .registerWrite off w x => Sys2Proof.Machine.execRegisterWrite off w x s
  | .memoryRead a n way => Sys2Proof.Machine.execMemoryRead a n way s
  | .memoryWrite a data way => Sys2Proof.Machine.execMemoryWrite a data way s
  | .writeAcknowledgement x => Sys2Proof.Machine.execWriteAcknowledgement x s
  | .flitReplay passes => Sys2Proof.Machine.execFlitReplay passes s
  | .privateWrite addr data => Sys2Proof.Machine.execPrivateWrite addr data s
  | .privateRead addr n => Sys2Proof.Machine.execPrivateRead addr n s
  -- I3C, IEEE 1149.1, the throttle pin (21, 23)
  | .setdasa static dyn => Sys2Proof.Machine.execSetdasa static dyn s
  | .entdaa dyn => Sys2Proof.Machine.execEntdaa dyn s
  | .jtagBypass data => Sys2Proof.Machine.execJtagBypass data s
  | .jtagIdcode => Sys2Proof.Machine.execJtagIdcode s
  | .samplePreload pins data => Sys2Proof.Machine.execSamplePreload pins data s
  | .jtagExtest pins data => Sys2Proof.Machine.execJtagExtest pins data s
  | .jtagClamp data => Sys2Proof.Machine.execJtagClamp data s
  | .jtagHighz data => Sys2Proof.Machine.execJtagHighz data s
  | .throttleRaise => Sys2Proof.Machine.execThrottleRaise s
  | .throttleClear => Sys2Proof.Machine.execThrottleClear s
  -- core program (08): n is the schedule count at which the bundle issues, last marks its last slot
  | .nop n last hits => Sys2Proof.Machine.execNop n last hits s
  | .mop n last mode arrays acc rows as bs ut stride su => Sys2Proof.Machine.execMop n last mode arrays acc rows as bs ut stride su s
  | .mopQueueStart n => Sys2Proof.Machine.execMopQueueStart n s
  | .fadd n last v => Sys2Proof.Machine.execFadd n last v s
  | .fsub n last v => Sys2Proof.Machine.execFsub n last v s
  | .fmul n last v => Sys2Proof.Machine.execFmul n last v s
  | .fma n last v => Sys2Proof.Machine.execFma n last v s
  | .fmin n last v => Sys2Proof.Machine.execFmin n last v s
  | .fmax n last v => Sys2Proof.Machine.execFmax n last v s
  | .fabs n last v => Sys2Proof.Machine.execFabs n last v s
  | .fneg n last v => Sys2Proof.Machine.execFneg n last v s
  | .fcmpeq n last v => Sys2Proof.Machine.execFcmpeq n last v s
  | .fcmpne n last v => Sys2Proof.Machine.execFcmpne n last v s
  | .fcmplt n last v => Sys2Proof.Machine.execFcmplt n last v s
  | .fcmple n last v => Sys2Proof.Machine.execFcmple n last v s
  | .sel n last v => Sys2Proof.Machine.execSel n last v s
  | .fdiv n last v => Sys2Proof.Machine.execFdiv n last v s
  | .fsqrt n last v => Sys2Proof.Machine.execFsqrt n last v s
  | .exp2 n last v => Sys2Proof.Machine.execExp2 n last v s
  | .exp n last v => Sys2Proof.Machine.execExp n last v s
  | .log2 n last v => Sys2Proof.Machine.execLog2 n last v s
  | .ln n last v => Sys2Proof.Machine.execLn n last v s
  | .rsqrt n last v => Sys2Proof.Machine.execRsqrt n last v s
  | .sinpi n last v => Sys2Proof.Machine.execSinpi n last v s
  | .cospi n last v => Sys2Proof.Machine.execCospi n last v s
  | .tanh n last v => Sys2Proof.Machine.execTanh n last v s
  | .sigm n last v => Sys2Proof.Machine.execSigm n last v s
  | .erf n last v => Sys2Proof.Machine.execErf n last v s
  | .f2i n last v => Sys2Proof.Machine.execF2i n last v s
  | .f2iz n last v => Sys2Proof.Machine.execF2iz n last v s
  | .i2f n last v => Sys2Proof.Machine.execI2f n last v s
  | .frnd n last v => Sys2Proof.Machine.execFrnd n last v s
  | .iadd n last v => Sys2Proof.Machine.execIadd n last v s
  | .isub n last v => Sys2Proof.Machine.execIsub n last v s
  | .imul n last v => Sys2Proof.Machine.execImul n last v s
  | .imin n last v => Sys2Proof.Machine.execImin n last v s
  | .imax n last v => Sys2Proof.Machine.execImax n last v s
  | .iabs n last v => Sys2Proof.Machine.execIabs n last v s
  | .icmpeq n last v => Sys2Proof.Machine.execIcmpeq n last v s
  | .icmpne n last v => Sys2Proof.Machine.execIcmpne n last v s
  | .icmplt n last v => Sys2Proof.Machine.execIcmplt n last v s
  | .icmple n last v => Sys2Proof.Machine.execIcmple n last v s
  | .vand n last v => Sys2Proof.Machine.execVand n last v s
  | .vor n last v => Sys2Proof.Machine.execVor n last v s
  | .vxor n last v => Sys2Proof.Machine.execVxor n last v s
  | .vnot n last v => Sys2Proof.Machine.execVnot n last v s
  | .vshl n last v => Sys2Proof.Machine.execVshl n last v s
  | .vshr n last v => Sys2Proof.Machine.execVshr n last v s
  | .vsar n last v => Sys2Proof.Machine.execVsar n last v s
  | .rol n last v => Sys2Proof.Machine.execRol n last v s
  | .madd n last v => Sys2Proof.Machine.execMadd n last v s
  | .mullo n last v => Sys2Proof.Machine.execMullo n last v s
  | .mulhi n last v => Sys2Proof.Machine.execMulhi n last v s
  | .ucmplt n last v => Sys2Proof.Machine.execUcmplt n last v s
  | .ucmple n last v => Sys2Proof.Machine.execUcmple n last v s
  | .laneidx n last v => Sys2Proof.Machine.execLaneidx n last v s
  | .perm n last v => Sys2Proof.Machine.execPerm n last v s
  | .genrd n last v => Sys2Proof.Machine.execGenrd n last v s
  | .rfsum n last v => Sys2Proof.Machine.execRfsum n last v s
  | .risum n last v => Sys2Proof.Machine.execRisum n last v s
  | .rfmax n last v => Sys2Proof.Machine.execRfmax n last v s
  | .rfmin n last v => Sys2Proof.Machine.execRfmin n last v s
  | .rimax n last v => Sys2Proof.Machine.execRimax n last v s
  | .rimin n last v => Sys2Proof.Machine.execRimin n last v s
  | .ridxmax n last v => Sys2Proof.Machine.execRidxmax n last v s
  | .mand n last md ma mb => Sys2Proof.Machine.execMand n last md ma mb s
  | .mor n last md ma mb => Sys2Proof.Machine.execMor n last md ma mb s
  | .mxor n last md ma mb => Sys2Proof.Machine.execMxor n last md ma mb s
  | .mandn n last md ma mb => Sys2Proof.Machine.execMandn n last md ma mb s
  | .mrange n last md sa => Sys2Proof.Machine.execMrange n last md sa s
  | .setvl n last sa => Sys2Proof.Machine.execSetvl n last sa s
  | .add n last sd sa sb => Sys2Proof.Machine.execAdd n last sd sa sb s
  | .sub n last sd sa sb => Sys2Proof.Machine.execSub n last sd sa sb s
  | .mul n last sd sa sb => Sys2Proof.Machine.execMul n last sd sa sb s
  | .and n last sd sa sb => Sys2Proof.Machine.execAnd n last sd sa sb s
  | .or n last sd sa sb => Sys2Proof.Machine.execOr n last sd sa sb s
  | .xor n last sd sa sb => Sys2Proof.Machine.execXor n last sd sa sb s
  | .shl n last sd sa sb => Sys2Proof.Machine.execShl n last sd sa sb s
  | .shr n last sd sa sb => Sys2Proof.Machine.execShr n last sd sa sb s
  | .sar n last sd sa sb => Sys2Proof.Machine.execSar n last sd sa sb s
  | .min n last sd sa sb => Sys2Proof.Machine.execMin n last sd sa sb s
  | .max n last sd sa sb => Sys2Proof.Machine.execMax n last sd sa sb s
  | .slt n last sd sa sb => Sys2Proof.Machine.execSlt n last sd sa sb s
  | .sltu n last sd sa sb => Sys2Proof.Machine.execSltu n last sd sa sb s
  | .seq n last sd sa sb => Sys2Proof.Machine.execSeq n last sd sa sb s
  | .li n last sd imm => Sys2Proof.Machine.execLi n last sd imm s
  | .addi n last sd sa imm => Sys2Proof.Machine.execAddi n last sd sa imm s
  | .andi n last sd sa imm => Sys2Proof.Machine.execAndi n last sd sa imm s
  | .ori n last sd sa imm => Sys2Proof.Machine.execOri n last sd sa imm s
  | .xori n last sd sa imm => Sys2Proof.Machine.execXori n last sd sa imm s
  | .shli n last sd sa imm => Sys2Proof.Machine.execShli n last sd sa imm s
  | .shri n last sd sa imm => Sys2Proof.Machine.execShri n last sd sa imm s
  | .sari n last sd sa imm => Sys2Proof.Machine.execSari n last sd sa imm s
  | .lui n last sd sa imm => Sys2Proof.Machine.execLui n last sd sa imm s
  | .ld n last size sd sa imm => Sys2Proof.Machine.execLd n last size sd sa imm s
  | .lds n last size sd sa imm => Sys2Proof.Machine.execLds n last size sd sa imm s
  | .st n last size sd sa imm => Sys2Proof.Machine.execSt n last size sd sa imm s
  | .rdsr n last sd num => Sys2Proof.Machine.execRdsr n last sd num s
  | .idle n last count => Sys2Proof.Machine.execIdle n last count s
  | .idleEnd n => Sys2Proof.Machine.execIdleEnd n s
  | .br n last target => Sys2Proof.Machine.execBr n last target s
  | .beq n last sa sb target => Sys2Proof.Machine.execBeq n last sa sb target s
  | .bne n last sa sb target => Sys2Proof.Machine.execBne n last sa sb target s
  | .blt n last sa sb target => Sys2Proof.Machine.execBlt n last sa sb target s
  | .bge n last sa sb target => Sys2Proof.Machine.execBge n last sa sb target s
  | .loop n last sa target => Sys2Proof.Machine.execLoop n last sa target s
  | .loopCountExpiry n => Sys2Proof.Machine.execLoopCountExpiry n s
  | .endProg n last => Sys2Proof.Machine.execEndProg n last s
  | .fill n last slot laneBase c128 fmt sa => Sys2Proof.Machine.execFill n last slot laneBase c128 fmt sa s
  | .store n last tmpl sa src sb loc sem sig => Sys2Proof.Machine.execStore n last tmpl sa src sb loc sem sig s
  | .storeSignal core id => Sys2Proof.Machine.execStoreSignal core id s
  | .movsv n last slot lane sa => Sys2Proof.Machine.execMovsv n last slot lane sa s
  | .movvs n last slot lane sd => Sys2Proof.Machine.execMovvs n last slot lane sd s
  | .setas n last as sa sb sc fmt => Sys2Proof.Machine.execSetas n last as sa sb sc fmt s
  | .mpop n last mask sd => Sys2Proof.Machine.execMpop n last mask sd s
  | .semwait n last glob idx sa imm => Sys2Proof.Machine.execSemwait n last glob idx sa imm s
  | .semWaitMet core => Sys2Proof.Machine.execSemWaitMet core s
  | .semadd n last glob idx sa imm => Sys2Proof.Machine.execSemadd n last glob idx sa imm s
  | .semsub n last glob idx sa imm => Sys2Proof.Machine.execSemsub n last glob idx sa imm s
  | .rsemadd n last glob idx sa sb => Sys2Proof.Machine.execRsemadd n last glob idx sa sb s
  | .rsemsub n last glob idx sa sb => Sys2Proof.Machine.execRsemsub n last glob idx sa sb s
  | .semrd n last glob idx sd => Sys2Proof.Machine.execSemrd n last glob idx sd s
  | .stepChurn n last retStart rt late hits => Sys2Proof.Machine.execStepChurn n last retStart rt late hits s
  | .ldi n last q sa hits => Sys2Proof.Machine.execLdi n last q sa hits s
  -- events in the cores and their Ladles (03, 04, 07, 10)
  | .injectedUnitLanded core unit forNext way => Sys2Proof.Machine.execInjectedUnitLanded core unit forNext way s
  | .deliverySignal core id => Sys2Proof.Machine.execDeliverySignal core id s
  | .ladleTransferStart core q => Sys2Proof.Machine.execLadleTransferStart core q s
  | .ladleSignal core q id => Sys2Proof.Machine.execLadleSignal core q id s
  | .globalSemaphoreUpdate core idx => Sys2Proof.Machine.execGlobalSemaphoreUpdate core idx s
  | .triggerFire => Sys2Proof.Machine.execTriggerFire s
  | .remoteOperationTimeout id => Sys2Proof.Machine.execRemoteOperationTimeout id s
  | .deadlockDetectorFire => Sys2Proof.Machine.execDeadlockDetectorFire s
  -- hold and stretch (09, 16)
  | .holdStop core => Sys2Proof.Machine.execHoldStop core s
  | .holdRelease => Sys2Proof.Machine.execHoldRelease s
  | .holdResume core => Sys2Proof.Machine.execHoldResume core s
  | .stretch r duty => Sys2Proof.Machine.execStretch r duty s
  -- mesh, memory, telemetry (15, 12, 19, 21)
  | .readRequest core q id upset hdr => Sys2Proof.Machine.execReadRequest core q id upset hdr s
  | .readResponse id bad router hdr => Sys2Proof.Machine.execReadResponse id bad router hdr s
  | .writePacket id bad router hdr => Sys2Proof.Machine.execWritePacket id bad router hdr s
  | .refresh unit channel bank queued => Sys2Proof.Machine.execRefresh unit channel bank queued s
  | .temperatureRead k temp => Sys2Proof.Machine.execTemperatureRead k temp s
  | .scrub w upset => Sys2Proof.Machine.execScrub w upset s
  | .hourlyGaugeSample drifts temps => Sys2Proof.Machine.execHourlyGaugeSample drifts temps s
  | .railTelemetryUpdate rails => Sys2Proof.Machine.execRailTelemetryUpdate rails s
  -- Griby messages and Press laps (15, 14)
  | .writeMsg x body => Sys2Proof.Machine.execWriteMsg x body s
  | .semMsg x hops dst src incarn tag arg => Sys2Proof.Machine.execSemMsg x hops dst src incarn tag arg s
  | .ackMsg x hops dst src incarn tag arg => Sys2Proof.Machine.execAckMsg x hops dst src incarn tag arg s
  | .scaleLapMessage x block body par => Sys2Proof.Machine.execScaleLapMessage x block body par s
  | .sumLapRecord x block body par => Sys2Proof.Machine.execSumLapRecord x block body par s
  | .resultLapRecord x block body par => Sys2Proof.Machine.execResultLapRecord x block body par s
  | .grantMsg x hops dst src incarn tag addr arg => Sys2Proof.Machine.execGrantMsg x hops dst src incarn tag addr arg s
  | .abortMsg x hops dst src incarn tag addr arg => Sys2Proof.Machine.execAbortMsg x hops dst src incarn tag addr arg s
  | .returnMsg x hops dst src incarn tag addr arg body => Sys2Proof.Machine.execReturnMsg x hops dst src incarn tag addr arg body s
  | .skimMsg x hops dst src incarn tag addr arg body => Sys2Proof.Machine.execSkimMsg x hops dst src incarn tag addr arg body s
  | .pressResend cmd => Sys2Proof.Machine.execPressResend cmd s
  | .pressTimeout cmd => Sys2Proof.Machine.execPressTimeout cmd s
  | .pressJobComplete cmd => Sys2Proof.Machine.execPressJobComplete cmd s
  -- the control lane (15)
  | .creditItem x whey count => Sys2Proof.Machine.execCreditItem x whey count s
  | .laneAck x seq => Sys2Proof.Machine.execLaneAck x seq s
  | .nakItem x seq => Sys2Proof.Machine.execNakItem x seq s
  | .headerItem x kind hops dst src incarn len tag addr arg => Sys2Proof.Machine.execHeaderItem x kind hops dst src incarn len tag addr arg s
  | .identityItem x self incarn port => Sys2Proof.Machine.execIdentityItem x self incarn port s
  | .uncorrectableCodeword x => Sys2Proof.Machine.execUncorrectableCodeword x s
  -- Creamery, Stirrer, remote semaphores, calibration (13, 10, 18)
  | .ingestJobAssign par cut => Sys2Proof.Machine.execIngestJobAssign par cut s
  | .clipSignal e => Sys2Proof.Machine.execClipSignal e s
  | .ingestJobComplete e => Sys2Proof.Machine.execIngestJobComplete e s
  | .stirrerCredit par => Sys2Proof.Machine.execStirrerCredit par s
  | .stirrerBatchFull b => Sys2Proof.Machine.execStirrerBatchFull b s
  | .remoteSemaphorePacket x => Sys2Proof.Machine.execRemoteSemaphorePacket x s
  | .semaphoreAcknowledgement x => Sys2Proof.Machine.execSemaphoreAcknowledgement x s
  | .calibrationTestOperationEnd bad back lane drifts temps => Sys2Proof.Machine.execCalibrationTestOperationEnd bad back lane drifts temps s

end Sys2Proof.Machine
end

