-- ==== Sys2Proof/Machine/Idle.lean ====
section
/-! DEFINITION. The period that passes on an empty queue (log 13, 28). -/

namespace Sys2Proof.Machine

/-- The epoch count ends if it may (log 13), and head commands of a reserved class are refused (R557); nothing happens while the device
    is in reset or its reference is lost (R492, R508). -/
def State.tick (s : State) : State :=
  if s.clk.lost || !s.boot.started then s
  else refuseReserved 512 (if s.mayPass then s.pass else s)

end Sys2Proof.Machine
end

