-- ==== Sys2Proof/Safety.lean ====
section
/-! DEFINITION. What counts as a sound state, and what a safe run is, in the terms the statements use. -/

namespace Sys2Proof.Machine

/-- The memory list is in its canonical form: addresses strictly rising, no byte listed that an unlisted address reads as. -/
def Memory.wf (m : List Host.Cell) : Bool := Sparse.wf unlisted m

/-- The state's memory is in its canonical form. -/
def State.memWf (s : State) : Bool := Memory.wf s.mem

/-- An outcome is a next state. -/
def completes (o : Host.Outcome State Fault Refusal) : Bool := match o with
  | .next _ => true
  | _ => false

/-- The state after k steps; the state itself where a step stops (none does). -/
def State.after : Nat → State → State
  | 0, s => s
  | k + 1, s => match step s with
    | .next t => State.after k t
    | _ => s

/-! ### The core program (08, 09) -/

/-- The bundle at count n holds the slot word on every core that issues it, some core does, and no copy of it is damaged. -/
def SlotRuns (s : State) (n : Nat) (w : SlotWord) : Prop :=
  s.clk.lost = false ∧ s.fetches n w = true ∧ s.badFetch n = false

/-- A slot changes the cores that issue it and nothing else: no byte of memory, no other core. -/
def SlotFrame (s t : State) (n : Nat) : Prop :=
  t = { s with cores := t.cores, free := s.free + 1, noProgress := 0 } ∧
  (∀ a, t.byteAt a = s.byteAt a) ∧
  ∀ c, c < 160 → s.issues n c = false → t.core c = s.core c

/-- A core that is the same but for what is due, the record of the reads' poison and the hazard record. -/
def CoreKept (a b : Core) : Prop :=
  b = { a with queue := b.queue, vecErr := b.vecErr, vecNow := b.vecNow, cond := b.cond, hazard := b.hazard, hazardCount := b.hazardCount,
               hazardDetail := b.hazardDetail, stallDue := b.stallDue }

/-- The core has one more thing due, w at count at_, issued at n, and beside it only the end of the issued item's contract, where counting
    waits for the item (R298, R300). -/
def CoreDue (a b : Core) (at_ n : Nat) (w : Micro) : Prop :=
  CoreKept a b ∧ b.queue = a.queue ++ [⟨at_, n, w⟩] ∧ ∃ l, b.stallDue = a.stallDue ++ l

/-- The command of a slot answers a next state, as the last slot of its bundle or not; as the last one the bundle ends after it.
    On every core that issues it P holds of the core before and after. -/
def SlotGives (mk : Bool → Instr) (w : SlotWord) (s : State) (n : Nat) (P : Nat → Core → Core → Prop) : Prop :=
  SlotRuns s n w → ∃ t, exec (mk false) s = .next t ∧ exec (mk true) s = .next (t.endBundle n) ∧ SlotFrame s t n ∧
    ∀ c, c < 160 → s.issues n c = true → P c (s.core c) (t.core c)

/-- One vector result is due, readable lat counts after its issue (R237): word f i in each active lane i, the others kept or, with
    ZERO, zero (R166); marked where a source slot or a mask it reads is (R193). -/
def LanesDue (s : State) (n lat : Nat) (v : VFields) (srcs : List VSrc) (masks : List Nat) (f : Nat → Core → Nat → W32) (c : Nat)
    (a b : Core) : Prop :=
  ∃ which words bad, CoreDue a b (n + lat - 1) n (.land (.slot v.vd which words bad)) ∧
    bad = (srcs.any (fun x => a.slotPoison x.slot) || (v.mask :: masks).any a.maskPois) ∧
    ∀ i, i < 128 → which.getLsbD i = (v.zero || a.active s.free c n v.mask i) ∧
      words.getD i 0 = if a.active s.free c n v.mask i then f c a i else 0

/-- One mask result is due, 4 counts after its issue: p in the active lanes, 0 in the others (R167). -/
def MaskDue (s : State) (n : Nat) (v : VFields) (p : W32 → W32 → Bool) (c : Nat) (a b : Core) : Prop :=
  ∃ m bad, CoreDue a b (n + 3) n (.land (.mask v.vd m bad)) ∧
    bad = (a.slotPoison v.va.slot || a.slotPoison v.vb.slot || a.maskPois v.mask) ∧
    ∀ i, i < 128 → m.getLsbD i = (a.active s.free c n v.mask i && p (a.src s.free c n v.va i) (a.src s.free c n v.vb i))

/-- Nothing is due on any active core and nothing holds or stretches one: no result, wait, array operation, stall or raise is on its way, and
    every region's clock runs (R254, R283, R288, R300, R521). -/
def Quiet (s : State) : Prop :=
  s.hold.throttle = false ∧ s.hold.change = false ∧ s.hold.crossing = [] ∧ s.hold.raising = false ∧
  (∀ r, r < 16 → (s.region r).stopped = false ∧ (s.region r).half = 0 ∧ (s.region r).trip = false) ∧
  ∀ c, c < 160 → s.fuse.active c = true → let k := s.core c
    k.queue = [] ∧ k.gates = [] ∧ k.waits = [] ∧ k.arrays = [] ∧ k.stallDue = [] ∧ k.pause = 0 ∧ k.ticked = false ∧ k.late = none

/-! ### Commands of the rings (17, 18) -/

/-- Ring r's head command is descriptor d of that row, and is the next to be delivered (R541, R542). -/
def Offered (s : State) (r : Nat) (row : Row) (d : Desc) : Prop :=
  s.clk.lost = false ∧ s.served.head? = some r ∧ (s.cring r).headOk = some d ∧ rowOf d = some row

/-- The state right after the delivery of that command, whose number is s.cmdId. -/
def delivered (s : State) (r : Nat) (d : Desc) : State := (s.takeHead r d).1

end Sys2Proof.Machine
end

