-- ==== Sys2Proof/Certificates/Slice0/Obligations.lean ====
section
/-! DEFINITION. The statements about the model, one definition each; the tables name the commands that one statement covers. -/

open Sys2Proof Sys2Proof.Machine

/-! ### Tables of the core program's commands (08 R245, R249) -/

namespace Sys2Proof.Claims

/-- Register form: command, opcode, and the result as R249 gives it. -/
def registerForms : List ((Nat → Bool → Nat → Nat → Nat → Instr) × Nat × (W64 → W64 → W64)) :=
  [(.add, 0x01, fun a b => BitVec.ofNat 64 (a.toNat + b.toNat)),
   (.sub, 0x02, fun a b => BitVec.ofInt 64 (a.toInt - b.toInt)),
   (.mul, 0x03, fun a b => BitVec.ofNat 64 (a.toNat * b.toNat)),
   (.and, 0x04, fun a b => a &&& b),
   (.or, 0x05, fun a b => a ||| b),
   (.xor, 0x06, fun a b => a ^^^ b),
   (.shl, 0x07, fun a b => BitVec.ofNat 64 (a.toNat * 2 ^ (b.toNat % 64))),
   (.shr, 0x08, fun a b => BitVec.ofNat 64 (a.toNat / 2 ^ (b.toNat % 64))),
   (.sar, 0x09, fun a b => BitVec.ofInt 64 (a.toInt / 2 ^ (b.toNat % 64))),
   (.min, 0x0A, fun a b => BitVec.ofInt 64 (min a.toInt b.toInt)),
   (.max, 0x0B, fun a b => BitVec.ofInt 64 (max a.toInt b.toInt)),
   (.slt, 0x0C, fun a b => if a.toInt < b.toInt then 1 else 0),
   (.sltu, 0x0D, fun a b => if a.toNat < b.toNat then 1 else 0),
   (.seq, 0x0E, fun a b => if a = b then 1 else 0)]

/-- Immediate form: command, opcode, the result from SA and IMM32. -/
def immediateForms : List ((Nat → Bool → Nat → Nat → W32 → Instr) × Nat × (W64 → W32 → W64)) :=
  [(.addi, 0x11, fun a m => BitVec.ofInt 64 (a.toInt + m.toInt)),
   (.andi, 0x14, fun a m => a &&& m.signExtend 64),
   (.ori, 0x15, fun a m => a ||| m.signExtend 64),
   (.xori, 0x16, fun a m => a ^^^ m.signExtend 64),
   (.shli, 0x17, fun a m => BitVec.ofNat 64 (a.toNat * 2 ^ (m.toNat % 64))),
   (.shri, 0x18, fun a m => BitVec.ofNat 64 (a.toNat / 2 ^ (m.toNat % 64))),
   (.sari, 0x19, fun a m => BitVec.ofInt 64 (a.toInt / 2 ^ (m.toNat % 64))),
   (.lui, 0x1F, fun a m => BitVec.ofNat 64 (m.toNat * 2 ^ 32 + a.toNat % 2 ^ 32))]

/-- One-source lane operations: command, opcode, counts to the result, the word. -/
def laneUnary : List ((Nat → Bool → VFields → Instr) × Nat × Nat × (W32 → W32)) :=
  [(.fabs, 0x07, 4, fun a => if f32 a = .nan then 0x7FC00000 else BitVec.ofNat 32 (a.toNat % 2 ^ 31)),
   (.fneg, 0x08, 4, fun a => if f32 a = .nan then 0x7FC00000 else BitVec.ofNat 32 (a.toNat + 2 ^ 31)),
   (.fsqrt, 0x0F, 12, fun a => toF32 (f32 a).sqrt),
   (.f2i, 0x20, 4, fun a => BitVec.ofInt 32 (toIntN 32 false (f32 a))),
   (.f2iz, 0x21, 4, fun a => BitVec.ofInt 32 (toIntN 32 true (f32 a))),
   (.i2f, 0x22, 4, fun a => toF32 (.fin (a.toInt < 0) a.toInt.natAbs 0)),
   (.iabs, 0x2D, 4, fun a => BitVec.ofInt 32 (min (2 ^ 31 - 1) a.toInt.natAbs)),
   (.vnot, 0x3B, 4, fun a => BitVec.ofNat 32 (2 ^ 32 - 1 - a.toNat))]

/-- The transcendental operations, readable 12 counts after issue. -/
def laneTranscendental : List ((Nat → Bool → VFields → Instr) × Nat × TransOp) :=
  [(.exp2, 0x10, .exp2), (.exp, 0x11, .exp), (.log2, 0x12, .log2), (.ln, 0x13, .ln), (.rsqrt, 0x14, .rsqrt), (.sinpi, 0x15, .sinpi),
   (.cospi, 0x16, .cospi), (.tanh, 0x17, .tanh), (.sigm, 0x18, .sigm), (.erf, 0x19, .erf)]

/-- The value clamped to INT32 (R66). -/
def int32 (i : Int) : W32 := BitVec.ofInt 32 (max (-2 ^ 31) (min (2 ^ 31 - 1) i))

/-- Two-source lane operations: command, opcode, counts to the result, the word. -/
def laneBinary : List ((Nat → Bool → VFields → Instr) × Nat × Nat × (W32 → W32 → W32)) :=
  [(.fadd, 0x01, 4, fun a b => toF32 ((f32 a).add (f32 b))),
   (.fsub, 0x02, 4, fun a b => toF32 ((f32 a).add (f32 b).neg)),
   (.fmul, 0x03, 4, fun a b => toF32 ((f32 a).mul (f32 b))),
   (.fmin, 0x05, 4, fmin), (.fmax, 0x06, 4, fmax),
   (.fdiv, 0x0E, 12, fun a b => toF32 ((f32 a).div (f32 b))),
   (.iadd, 0x28, 4, fun a b => int32 (a.toInt + b.toInt)),
   (.isub, 0x29, 4, fun a b => int32 (a.toInt - b.toInt)),
   (.imul, 0x2A, 4, fun a b => int32 (a.toInt * b.toInt)),
   (.imin, 0x2B, 4, fun a b => BitVec.ofInt 32 (min a.toInt b.toInt)),
   (.imax, 0x2C, 4, fun a b => BitVec.ofInt 32 (max a.toInt b.toInt)),
   (.vand, 0x38, 4, fun a b => a &&& b), (.vor, 0x39, 4, fun a b => a ||| b), (.vxor, 0x3A, 4, fun a b => a ^^^ b),
   (.vshl, 0x3C, 4, fun a b => BitVec.ofNat 32 (a.toNat * 2 ^ (b.toNat % 32))),
   (.vshr, 0x3D, 4, fun a b => BitVec.ofNat 32 (a.toNat / 2 ^ (b.toNat % 32))),
   (.vsar, 0x3E, 4, fun a b => BitVec.ofInt 32 (a.toInt / 2 ^ (b.toNat % 32))),
   (.rol, 0x3F, 4, fun a b => BitVec.ofNat 32 (a.toNat * 2 ^ (b.toNat % 32) + a.toNat / 2 ^ (32 - b.toNat % 32))),
   (.madd, 0x40, 4, fun a b => BitVec.ofNat 32 (a.toNat + b.toNat)),
   (.mullo, 0x41, 4, fun a b => BitVec.ofNat 32 (a.toNat * b.toNat)),
   (.mulhi, 0x42, 4, fun a b => BitVec.ofNat 32 (a.toNat * b.toNat / 2 ^ 32))]

/-- Compares into a mask: command, opcode, the comparison. -/
def compares : List ((Nat → Bool → VFields → Instr) × Nat × (W32 → W32 → Bool)) :=
  [(.fcmpeq, 0x09, fun a b => f32 a != .nan && f32 b != .nan && !(f32 a).lt (f32 b) && !(f32 b).lt (f32 a)),
   (.fcmpne, 0x0A, fun a b => f32 a == .nan || f32 b == .nan || (f32 a).lt (f32 b) || (f32 b).lt (f32 a)),
   (.fcmplt, 0x0B, fun a b => (f32 a).lt (f32 b)),
   (.fcmple, 0x0C, fun a b => f32 a != .nan && f32 b != .nan && !(f32 b).lt (f32 a)),
   (.icmpeq, 0x2E, fun a b => a.toNat == b.toNat),
   (.icmpne, 0x2F, fun a b => a.toNat != b.toNat),
   (.icmplt, 0x30, fun a b => a.toInt < b.toInt),
   (.icmple, 0x31, fun a b => a.toInt ≤ b.toInt),
   (.ucmplt, 0x43, fun a b => a.toNat < b.toNat),
   (.ucmple, 0x44, fun a b => a.toNat ≤ b.toNat)]

/-- A lane tree over 128 lanes: level by level, neighbours combined, the lower first (R183). -/
def tree (f : W32 → W32 → W32) (x : Nat → W32) : Nat → Nat → W32
  | 0, i => x i
  | k + 1, i => f (tree f x k (2 * i)) (tree f x k (2 * i + 1))

/-- Lane reductions by the tree: command, opcode, identity, the combining operation. -/
def reductions : List ((Nat → Bool → VFields → Instr) × Nat × W32 × (W32 → W32 → W32)) :=
  [(.rfsum, 0x50, 0x00000000, fun a b => toF32 ((f32 a).add (f32 b))),
   (.risum, 0x51, 0x00000000, fun a b => int32 (a.toInt + b.toInt)),
   (.rfmax, 0x52, 0xFF800000, fmax), (.rfmin, 0x53, 0x7F800000, fmin),
   (.rimax, 0x54, 0x80000000, fun a b => BitVec.ofInt 32 (max a.toInt b.toInt)),
   (.rimin, 0x55, 0x7FFFFFFF, fun a b => BitVec.ofInt 32 (min a.toInt b.toInt))]

/-- Mask operations: command, opcode, the bit from the two masks' bits. -/
def maskForms : List ((Nat → Bool → Nat → Nat → Nat → Instr) × Nat × (Bool → Bool → Bool)) :=
  [(.mand, 0x60, fun a b => a && b), (.mor, 0x61, fun a b => a || b), (.mxor, 0x62, fun a b => xor a b), (.mandn, 0x63, fun a b => a && !b)]

end Sys2Proof.Claims

open Sys2Proof.Claims

/-! ### The queue -/

/-- A step takes the command at the front of the queue and runs it with the queue's rest. -/
def Obligations.StepRunsTheFrontCommand : Prop :=
  ∀ (s : State) (c : Instr) (rest : List Instr), s.pending = c :: rest → step s = exec c { s with pending := rest }

/-! ### The core program: scalar slot -/

/-- The register form: the result is due at the end of the period of issue, so readable one count later; nothing else changes. -/
def Obligations.RegisterFormResults : Prop :=
  ∀ e ∈ registerForms, ∀ (n sd sa sb : Nat) (s : State),
    SlotGives (fun l => e.1 n l sd sa sb) (.scalar (e.2.1 + 64 * sd + 2048 * sa + 65536 * sb)) s n (fun c a b =>
      CoreDue a b n n (.land (.sreg true sd (e.2.2 (a.readS s.free c n sa) (a.readS s.free c n sb)))))

/-- The immediate form, LI and RDSR, which gives the count of steps before the bundle's own STEP (log 16). -/
def Obligations.ImmediateFormResults : Prop :=
  (∀ e ∈ immediateForms, ∀ (n sd sa : Nat) (imm : W32) (s : State),
    SlotGives (fun l => e.1 n l sd sa imm) (.scalar (e.2.1 + 64 * sd + 2048 * sa + 65536 * imm.toNat)) s n (fun c a b =>
      CoreDue a b n n (.land (.sreg true sd (e.2.2 (a.readS s.free c n sa) imm))))) ∧
  (∀ (n sd : Nat) (imm : W32) (s : State),
    SlotGives (fun l => .li n l sd imm) (.scalar (0x10 + 64 * sd + 65536 * imm.toNat)) s n (fun _ a b =>
      CoreDue a b n n (.land (.sreg true sd (BitVec.ofInt 64 imm.toInt))))) ∧
  (∀ (n sd num : Nat) (s : State),
    SlotGives (fun l => .rdsr n l sd num) (.scalar (0x30 + 64 * sd + 65536 * num)) s n (fun c a b =>
      CoreDue a b n n (.land (.sreg true sd (s.specialReg c
        (if a.lastStep = some n then { a with stepNo := a.stepNo - 1 } else a) num)))))

/-- Scalar register 0 reads as 0 and keeps no write; any other register holds the result once it has landed, and the others
    theirs. -/
def Sys2Proof.Claims.ScalarRegisterZeroDiscards : Prop :=
  ∀ (k : Core) (v : W64) (r q fr c n : Nat),
    k.readS fr c n 0 = 0 ∧ k.writeS 0 v = k ∧ (r ≠ 0 → Sparse.get 0 (k.writeS r v).sregs r = v) ∧
    (q ≠ r → Sparse.get 0 (k.writeS r v).sregs q = Sparse.get 0 k.sregs q) ∧ k.writeS r v = { k with sregs := (k.writeS r v).sregs }

/-- Narrow accesses: the offset is bits [24:0] of SA + IMM32; the bank access is due in the period of issue. -/
def Sys2Proof.Claims.NarrowAccessesIssue : Prop :=
  ∀ (n size sd sa : Nat) (imm : W32) (s : State),
    (size < 4 → SlotGives (fun l => .ld n l size sd sa imm) (.scalar (0x20 + size + 64 * sd + 2048 * sa + 65536 * imm.toNat)) s n (fun c a b =>
      CoreDue a b n n (.narrowRead ((a.readS s.free c n sa + imm.signExtend 64).toNat % 2 ^ 25) (2 ^ size) false sd))) ∧
    (size < 3 → SlotGives (fun l => .lds n l size sd sa imm) (.scalar (0x24 + size + 64 * sd + 2048 * sa + 65536 * imm.toNat)) s n (fun c a b =>
      CoreDue a b n n (.narrowRead ((a.readS s.free c n sa + imm.signExtend 64).toNat % 2 ^ 25) (2 ^ size) true sd))) ∧
    (size < 4 → SlotGives (fun l => .st n l size sd sa imm) (.scalar (0x28 + size + 64 * sd + 2048 * sa + 65536 * imm.toNat)) s n (fun c a b =>
      CoreDue a b n n (.narrowWrite ((a.readS s.free c n sa + imm.signExtend 64).toNat % 2 ^ 25) (2 ^ size) (a.readS s.free c n sd))))

/-! ### The core program: vector slot -/

/-- Lane operations of one, two and three sources. -/
def Obligations.LaneOperationResults : Prop :=
  (∀ e ∈ laneUnary, ∀ (n : Nat) (v : VFields) (s : State),
    SlotGives (fun l => e.1 n l v) (vWord e.2.1 v) s n
      (LanesDue s n e.2.2.1 v [v.va] [] (fun c a i => e.2.2.2 (a.src s.free c n v.va i)))) ∧
  (∀ e ∈ laneBinary, ∀ (n : Nat) (v : VFields) (s : State),
    SlotGives (fun l => e.1 n l v) (vWord e.2.1 v) s n
      (LanesDue s n e.2.2.1 v [v.va, v.vb] [] (fun c a i => e.2.2.2 (a.src s.free c n v.va i) (a.src s.free c n v.vb i)))) ∧
  (∀ (n : Nat) (v : VFields) (s : State),
    SlotGives (fun l => .fma n l v) (vWord 0x04 v) s n (LanesDue s n 4 v [v.va, v.vb, v.vc] [] (fun c a i =>
      toF32 (((f32 (a.src s.free c n v.va i)).mul (f32 (a.src s.free c n v.vb i))).add (f32 (a.src s.free c n v.vc i))))))

/-- The transcendental operations: the word of the operand alone, readable 12 counts after issue; exact where the spec says so. -/
def Obligations.TranscendentalResults : Prop :=
  ∀ e ∈ laneTranscendental, (∀ (n : Nat) (v : VFields) (s : State),
    SlotGives (fun l => e.1 n l v) (vWord e.2.1 v) s n
      (LanesDue s n 12 v [v.va] [] (fun c a i => transResult e.2.2 (a.src s.free c n v.va i)))) ∧
    ∀ a x, transExact e.2.2 (f32 a) = some x → transResult e.2.2 a = toF32 x

/-- Lane selection, permutation, lane numbers, generator words, and FRND. -/
def Obligations.LaneMovementResults : Prop :=
  ∀ (n : Nat) (v : VFields) (s : State),
    SlotGives (fun l => .sel n l v) (vWord 0x0D v) s n (LanesDue s n 4 v [v.va, v.vb] [v.vc.slot % 8] (fun c a i =>
      if (a.readMask s.free c n (v.vc.slot % 8)).getLsbD i then a.src s.free c n v.va i else a.src s.free c n v.vb i)) ∧
    SlotGives (fun l => .perm n l v) (vWord 0x49 v) s n (LanesDue s n 4 v [v.va, v.vb] [] (fun c a i =>
      if 0 ≤ (a.src s.free c n v.vb i).toInt ∧ (a.src s.free c n v.vb i).toInt < a.vl
      then a.src s.free c n v.va (a.src s.free c n v.vb i).toInt.toNat else 0)) ∧
    SlotGives (fun l => .laneidx n l v) (vWord 0x48 v) s n (LanesDue s n 4 v [] [] (fun _ _ i => BitVec.ofNat 32 i)) ∧
    SlotGives (fun l => .genrd n l v) (vWord 0x4A v) s n (LanesDue s n 4 v [] [] (fun c a i =>
      Config.genOut (genState s.seed c i a.genAge))) ∧
    SlotGives (fun l => .frnd n l v) (vWord 0x23 v) s n (LanesDue s n 4 v [v.va] [] (fun c a i =>
      toF32 (decodeElem (v.vc.slot % 16) (encodeElem (v.vc.slot % 16) (v.vc.slot / 256 % 2 = 1) (f32 (a.src s.free c n v.va i))))))

/-- FP32 and INT32 arithmetic at its corners, in the functions that the lane operations and compares apply: division by zero, the NaN and the
    zeros of minimum and maximum, compares with a NaN, saturation. -/
def Obligations.NumberRulesAtTheCorners : Prop :=
  let nan : W32 → Prop := fun x => 0x7F800000 < x.toNat % 2 ^ 31
  (∀ a b : W32, 0 < a.toNat % 2 ^ 31 → a.toNat % 2 ^ 31 < 0x7F800000 → b.toNat % 2 ^ 31 = 0 →
    fdiv a b = if a.msb = b.msb then 0x7F800000 else 0xFF800000) ∧
  (∀ a b : W32, nan a ∨ nan b → fmin a b = 0x7FC00000 ∧ fmax a b = 0x7FC00000) ∧
  (∀ a b : W32, ¬ nan a → ¬ nan b → (fmin a b = a ∧ fmax a b = b ∨ fmin a b = b ∧ fmax a b = a) ∧ (f32 (fmax a b)).lt (f32 (fmin a b)) = false) ∧
  (fmin 0 0x80000000 = 0x80000000 ∧ fmin 0x80000000 0 = 0x80000000 ∧ fmax 0 0x80000000 = 0 ∧ fmax 0x80000000 0 = 0) ∧
  (∀ a b : W32, nan a ∨ nan b → fcmpEq a b = false ∧ fcmpLt a b = false ∧ fcmpLe a b = false ∧
    ∀ e ∈ compares, e.2.1 ∈ [0x09, 0x0A, 0x0B, 0x0C] → e.2.2 a b = decide (e.2.1 = 0x0A)) ∧
  ∀ a b : W32, (satOp (· + ·) a b).toInt = max (-2 ^ 31) (min (2 ^ 31 - 1) (a.toInt + b.toInt)) ∧
    (satOp (· - ·) a b).toInt = max (-2 ^ 31) (min (2 ^ 31 - 1) (a.toInt - b.toInt)) ∧
    (satOp (· * ·) a b).toInt = max (-2 ^ 31) (min (2 ^ 31 - 1) (a.toInt * b.toInt))

/-- Compares write a mask: false in the lanes that are not active. -/
def Obligations.CompareResults : Prop :=
  ∀ e ∈ compares, ∀ (n : Nat) (v : VFields) (s : State), SlotGives (fun l => e.1 n l v) (vWord e.2.1 v) s n (MaskDue s n v e.2.2)

/-- Lane reductions: the tree over 128 lanes, inactive lanes standing as the identity, the result in every lane; RIDXMAX gives one
    word in every lane. -/
def Obligations.ReductionResults : Prop :=
  (∀ e ∈ reductions, ∀ (n : Nat) (v : VFields) (s : State),
    SlotGives (fun l => e.1 n l v) (vWord e.2.1 v) s n (fun c a b =>
      CoreDue a b (n + 9) n (.land (.slot v.vd (BitVec.allOnes 128)
        (List.replicate 128 (tree e.2.2.2 (fun i => if a.active s.free c n v.mask i then a.src s.free c n v.va i else e.2.2.1) 7 0))
        (a.slotPoison v.va.slot || a.maskPois v.mask))))) ∧
  (∀ (n : Nat) (v : VFields) (s : State), SlotGives (fun l => .ridxmax n l v) (vWord 0x56 v) s n (fun c a b =>
    ∃ w, CoreDue a b (n + 9) n (.land (.slot v.vd (BitVec.allOnes 128) (List.replicate 128 w) (a.slotPoison v.va.slot || a.maskPois v.mask)))
      ∧ ((∀ i, i < 128 → a.active s.free c n v.mask i = false) → w = 0xFFFFFFFF)
      ∧ ∀ i, i < 128 → a.active s.free c n v.mask i = true → f32 (a.src s.free c n v.va i) = .nan →
          (∀ j, j < i → a.active s.free c n v.mask j = true → f32 (a.src s.free c n v.va j) ≠ .nan) → w = BitVec.ofNat 32 i))

/-- Mask operations work on all 128 bits; MRANGE sets the bits below a scalar; SETVL clamps to 1 to 128. -/
def Obligations.MaskAndLengthResults : Prop :=
  (∀ e ∈ maskForms, ∀ (n md ma mb : Nat) (s : State),
    SlotGives (fun l => e.1 n l md ma mb) (mWord e.2.1 md ma mb) s n (fun c a b =>
      ∃ m, CoreDue a b (n + 3) n (.land (.mask md m (a.maskPois ma || a.maskPois mb))) ∧
        ∀ i, i < 128 → m.getLsbD i = e.2.2 ((a.readMask s.free c n ma).getLsbD i) ((a.readMask s.free c n mb).getLsbD i))) ∧
  (∀ (n md sa : Nat) (s : State), SlotGives (fun l => .mrange n l md sa) (mWord 0x64 md sa 0) s n (fun c a b =>
      ∃ m, CoreDue a b (n + 3) n (.land (.mask md m false)) ∧ ∀ i, i < 128 → m.getLsbD i = decide (i < (a.readS s.free c n sa).toNat))) ∧
  (∀ (n sa : Nat) (s : State), SlotGives (fun l => .setvl n l sa) (.vector (0x68 + sa * 2 ^ 20)) s n (fun c a b =>
      ∃ l, CoreDue a b n n (.land (.vl l)) ∧ 1 ≤ l ∧ l ≤ 128 ∧
        (1 ≤ (a.readS s.free c n sa).toNat → (a.readS s.free c n sa).toNat ≤ 128 → l = (a.readS s.free c n sa).toNat)))

/-! ### The core program: results land, the bundle ends -/

/-- What a landed result changes: the active lanes of its slot, its mask but not MK0, its stream register, VL; no other slot, mask or
    register. -/
def Sys2Proof.Claims.LandedResultsReachTheirRegisters : Prop :=
  ∀ (n i : Nat) (k : Core),
    (∀ v which words bad, let k' := k.applyLanded n i (.slot v which words bad)
      k' = { k with pail := k'.pail, pailPoison := k'.pailPoison } ∧
      (∀ j, j < 128 → Sparse.get 0 k'.pail (128 * v + j) = if which.getLsbD j then words.getD j 0 else Sparse.get 0 k.pail (128 * v + j)) ∧
      (∀ u j, u ≠ v → j < 128 → Sparse.get 0 k'.pail (128 * u + j) = Sparse.get 0 k.pail (128 * u + j)) ∧
      ∀ u, k'.slotPoison u = if u = v then (bad || (k.slotPoison v && which != BitVec.allOnes 128)) else k.slotPoison u) ∧
    (∀ v base words bad, let k' := k.applyLanded n i (.fill v base words bad)
      k' = { k with pail := k'.pail, pailPoison := k'.pailPoison } ∧
      ∀ j, Sparse.get 0 k'.pail j = if 128 * v + base ≤ j ∧ j < 128 * v + base + words.length then words.getD (j - (128 * v + base)) 0
        else Sparse.get 0 k.pail j) ∧
    (∀ m w bad, let k' := k.applyLanded n i (.mask m w bad)
      k' = { k with masks := k'.masks, maskPoison := k'.maskPoison } ∧ (m = 0 → k' = k) ∧
      (m ≠ 0 → Sparse.get 0 k'.masks m = w ∧ k'.maskPois m = bad) ∧ ∀ q, q ≠ m → Sparse.get 0 k'.masks q = Sparse.get 0 k.masks q) ∧
    (∀ a w, let k' := k.applyLanded n i (.stream a w)
      k' = { k with streams := k'.streams } ∧ ∀ q, Sparse.get {} k'.streams q = if q = a then w else Sparse.get {} k.streams q) ∧
    ∀ l, k.applyLanded n i (.vl l) = { k with vl := l }

/-- Results that land reach their registers and no other; S0 reads as 0 and discards what is written (R230). -/
def Obligations.ResultsLandInTheirRegisters : Prop := Claims.LandedResultsReachTheirRegisters ∧ Claims.ScalarRegisterZeroDiscards

/-- A narrow read whose bank no wide access, no transfer and no table shares: 2^size bytes, little-endian, extended, readable 3
    counts after issue. -/
def Sys2Proof.Claims.NarrowReadLandsLittleEndian : Prop :=
  ∀ (s : State) (c n i off size sd : Nat) (sgn : Bool) (clash wide : Nat → Bool) (who : Nat → Nat) (o : TickOut), size ∈ [1, 2, 4, 8] →
    let a := off / size * size
    wide (bankOf a) = false → s.outsideUse c (bankOf a) = false → s.tableBank (bankOf a) = false → o.core.storeAhead i a size = false →
    let o' := s.tickRead c n clash wide who o ⟨n, i, .narrowRead off size sgn sd⟩
    let v := leNat ((List.range size).map (fun j => s.spadByte c (a + j)))
    o'.writes = o.writes ∧ o'.packets = o.packets ∧
    o'.core.queue = o.core.queue ++ [⟨n + 2, i, .land (.sreg true sd
      (if sgn ∧ 2 ^ (8 * size - 1) ≤ v then BitVec.ofInt 64 ((v : Int) - 2 ^ (8 * size)) else BitVec.ofNat 64 v))⟩]

/-- Narrow accesses: what LD, LDS and ST leave due, and the little-endian value that a read lands (R250). -/
def Obligations.NarrowAccessesLoadAndStore : Prop := Claims.NarrowAccessesIssue ∧ Claims.NarrowReadLandsLittleEndian

/-- The end of a bundle: every core that issued count n stands at count n + 1. -/
def Obligations.BundleEndAdvancesTheCount : Prop :=
  ∀ (s : State) (n c : Nat), c < 160 → s.issues n c = true → ((s.endBundle n).core c).sched = n + 1

/-- A bundle of one register-form command on a core with nothing else due: the result is in its register for the next count, in the
    model's own run of the period. -/
def Obligations.RegisterResultIsReadableNextCount : Prop :=
  ∀ e ∈ registerForms, ∀ (n sd sa sb c : Nat) (s : State), sd ≠ 0 → sd < 32 →
    SlotRuns s n (.scalar (e.2.1 + 64 * sd + 2048 * sa + 65536 * sb)) → s.debug = false → s.fuse.excess = [] →
    c < 160 → s.issues n c = true → (s.core c).queue = [] → (s.core c).arrays = [] →
    ∃ t, exec (e.1 n true sd sa sb) s = .next t ∧
      (t.core c).readS t.free c (n + 1) sd = e.2.2 ((s.core c).readS s.free c n sa) ((s.core c).readS s.free c n sb)

/-- After a bundle: the next one; a taken branch takes effect after its two delay bundles; the last bundle of a loop's body goes
    back while passes remain, and else waits for the count's expiry. A LOOP's record starts at the bundle after the LOOP: after the LOOP
    itself issue goes on there, but where the LOOP is the last bundle of an enclosing body that has passes left, back to its start. -/
def Obligations.ProgramCounterAfterABundle : Prop :=
  (∀ k : Core, k.branch = none → k.loops = [] → k.nextPc = { k with pc := k.pc + 1 }) ∧
  (∀ (k : Core) (t : Nat), k.branch = some (t, 3) → k.loops = [] →
    k.nextPc.pc = k.pc + 1 ∧ k.nextPc.nextPc.pc = k.pc + 2 ∧ k.nextPc.nextPc.nextPc = { k with pc := t, branch := none }) ∧
  ∀ (k : Core) (l : LoopRec) (ls : List LoopRec), k.branch = none → k.loops = l :: ls →
    (l.start ≠ k.pc + 1 → l.stop ≠ k.pc → k.nextPc = { k with pc := k.pc + 1 }) ∧
    (l.start ≠ k.pc + 1 → l.stop = k.pc → 1 < l.remaining →
      k.nextPc = { k with pc := l.start, loops := ⟨l.start, l.stop, l.remaining - 1⟩ :: ls }) ∧
    (l.start ≠ k.pc + 1 → l.stop = k.pc → l.remaining ≤ 1 → k.nextPc = { k with loopDone := true }) ∧
    (l.start = k.pc + 1 → (∀ q ∈ ls.head?, q.stop ≠ k.pc) → k.nextPc = { k with pc := k.pc + 1 }) ∧
    ∀ (q : LoopRec) (qs : List LoopRec), l.start = k.pc + 1 → ls = q :: qs → q.stop = k.pc → 1 < q.remaining →
      k.nextPc = { k with pc := q.start, loops := ⟨q.start, q.stop, q.remaining - 1⟩ :: qs }

/-! ### The core program: matrix slot -/

/-- MOP reaches its arrays with the registers read at issue; a queued one starts when no operation runs on its array. -/
def Obligations.MatrixOperationsIssue : Prop :=
  (∀ (n mode arrays rows as bs ut stride su : Nat) (acc : Bool) (s : State),
    SlotGives (fun l => .mop n l mode arrays acc rows as bs ut stride su) (mopWord mode arrays acc rows as bs ut stride su) s n (fun c a b =>
      ∃ m : MopOp, CoreDue a b n n (.mop m) ∧ m.mode = mode ∧ m.arrays = arrays ∧ m.acc = acc ∧ m.rows = rows ∧ m.ut = ut ∧ m.stride = stride ∧
        m.as = a.readStream s.free c n as ∧
        (mode = 2 → m.bs = a.readStream s.free c n bs ∧ m.tile = (a.readS s.free c n su).toNat))) ∧
  (∀ (n : Nat) (s : State), s.clk.lost = false → ∃ t, exec (.mopQueueStart n) s = .next t ∧ t = { s with cores := t.cores } ∧
    ∀ c, c < 160 → s.fuse.active c = true → (s.core c).sched = n → (s.core c).stopped = none → ∀ i, i < 4 →
      let r := Sparse.get {} (s.core c).arrays i
      let r' := Sparse.get {} (t.core c).arrays i
      (r.run.isSome ∨ r.queue = none → r' = r) ∧
      (r.run = none → ∀ op g, r.queue = some (op, g) → r'.queue = none ∧ ∃ o, r'.run = some o ∧ o.op = op ∧ o.start = n ∧ o.next = 0)) ∧
  ∀ (s : State) (c n a : Nat) (op : MopOp) (k : Core),
    (bitOf op.arrays a = false → s.mopArray c n op k a = k) ∧
    (bitOf op.arrays a = true → (Sparse.get {} k.arrays a).queue = none →
      ((Sparse.get {} k.arrays a).run = none → ∃ o, (Sparse.get {} (s.mopArray c n op k a).arrays a) = { run := some o } ∧ o.op = op ∧ o.start = n) ∧
      (∀ o, (Sparse.get {} k.arrays a).run = some o →
        Sparse.get {} (s.mopArray c n op k a).arrays a = { run := some o, queue := some (op, false) }))

/-! ### The core program: idle, branches, loops, end -/

/-- NOP does nothing, IDLE and END are due in the period of issue, BR is taken. -/
def Sys2Proof.Claims.PlainControlSlots : Prop :=
  ∀ (n : Nat) (s : State),
    SlotGives (fun l => .nop n l []) (.nop false) s n (fun _ a b => b = a) ∧
    (∀ count, SlotGives (fun l => .idle n l count) (.scalar (0x36 + 65536 * count)) s n (fun _ a b => CoreDue a b n n (.idle count))) ∧
    (∀ target, SlotGives (fun l => .br n l target) (.scalar (0x38 + 2 ^ 24 * target)) s n (fun _ a b =>
      b.branch = some (target, 3) ∧ b.queue = a.queue ∧ CoreKept a { b with branch := a.branch })) ∧
    (SlotRuns s n (.scalar 0x3F) → ∃ t, exec (.endProg n false) s = .next t ∧ exec (.endProg n true) s = .next (t.endBundle n) ∧
      t = { s with cores := t.cores, free := s.free + 1, noProgress := 0, run := s.run.map (fun r => { r with endCount := some n }) } ∧
      ∀ c, c < 160 → (s.issues n c = true → CoreDue (s.core c) (t.core c) n n .endProg) ∧ (s.issues n c = false → t.core c = s.core c))

/-- The end of an IDLE count where nothing else happens: as many epoch counts pass as the longest count has left; idle cores pass their idle
    counts, held cores do not (R254). -/
def Sys2Proof.Claims.IdleCountsExpire : Prop :=
  ∀ (n : Nat) (s : State), s.clk.lost = false → Quiet s →
    let most := ((List.range 160).map (fun c => (s.core c).idle)).foldl max 0
    (∀ j, j < most → (State.passes j s).mayPass = true) →
    ∃ t, exec (.idleEnd n) s = .next t ∧ t.epoch = s.epoch + most ∧ (∀ a, t.byteAt a = s.byteAt a) ∧
      ∀ c, c < 160 → s.fuse.active c = true → (s.core c).issuing = true → (s.core c).ended = false →
        ((s.core c).stopped = none → (t.core c).idle = 0 ∧ (t.core c).sched = (s.core c).sched + (s.core c).idle) ∧
        ((s.core c).stopped ≠ none → (t.core c).idle = (s.core c).idle ∧ (t.core c).sched = (s.core c).sched)

/-- NOP, IDLE, BR and END, and the end of an IDLE count. -/
def Obligations.PlainControlAndIdle : Prop := Claims.PlainControlSlots ∧ Claims.IdleCountsExpire

/-- A conditional branch whose outcome agrees on every core is taken on all of them or on none; a LOOP is pushed with its count, 0
    counting as 1; a loop's expiry goes on after the body. -/
def Obligations.BranchesAndLoops : Prop :=
  (∀ e ∈ [((Instr.beq : Nat → Bool → Nat → Nat → Nat → Instr), 0x39, (fun a b : W64 => decide (a = b))), (.bne, 0x3A, fun a b => decide (a ≠ b)),
      (.blt, 0x3B, fun a b => decide (a.toInt < b.toInt)), (.bge, 0x3C, fun a b => decide (b.toInt ≤ a.toInt))],
    ∀ (n sa sb target : Nat) (s : State) (o : Bool), SlotRuns s n (.scalar (e.2.1 + 2048 * sa + 65536 * sb + 2 ^ 24 * target)) →
      (∀ c, c < 160 → s.issues n c = true → e.2.2 ((s.core c).readS s.free c n sa) ((s.core c).readS s.free c n sb) = o) →
      (∀ r, s.run = some r → ∀ p ∈ r.outcomes, p.1 ≠ n) →
      ∃ t, exec (e.1 n false sa sb target) s = .next t ∧ exec (e.1 n true sa sb target) s = .next (t.endBundle n) ∧
        (∀ a, t.byteAt a = s.byteAt a) ∧ ∀ c, c < 160 →
          (s.issues n c = true → (t.core c).branch = (if o then some (target, 3) else (s.core c).branch) ∧
            CoreKept (s.core c) { t.core c with branch := (s.core c).branch }) ∧
          (s.issues n c = false → t.core c = s.core c)) ∧
  (∀ (n sa target o : Nat) (s : State), SlotRuns s n (.scalar (0x3E + 2048 * sa + 2 ^ 24 * target)) →
    (∀ c, c < 160 → s.issues n c = true → ((s.core c).readS s.free c n sa).toNat % 2 ^ 32 = o) →
    (∀ r, s.run = some r → ∀ p ∈ r.outcomes, p.1 ≠ n) →
    ∃ t, exec (.loop n false sa target) s = .next t ∧ exec (.loop n true sa target) s = .next (t.endBundle n) ∧
      (∀ a, t.byteAt a = s.byteAt a) ∧ ∀ c, c < 160 →
        (s.issues n c = true → (t.core c).loops = ⟨(s.core c).pc + 1, target, max 1 o⟩ :: (s.core c).loops ∧
          CoreKept (s.core c) { t.core c with loops := (s.core c).loops }) ∧
        (s.issues n c = false → t.core c = s.core c)) ∧
  ∀ (n c : Nat) (l : LoopRec) (ls : List LoopRec) (s : State), s.clk.lost = false → c < 160 → s.fuse.active c = true →
    (s.core c).loopDone = true → (s.core c).sched = n → (s.core c).stopped = none → (s.core c).branch = none → (s.core c).loops = l :: ls →
    (∀ q ∈ ls.head?, q.stop ≠ (s.core c).pc ∧ q.start ≠ (s.core c).pc + 1) →
    ∃ t, exec (.loopCountExpiry n) s = .next t ∧ (t.core c).pc = (s.core c).pc + 1 ∧ (t.core c).loops = ls ∧ (t.core c).loopDone = false

/-- A damaged bundle: every core that finds it marks it, and issue stops on every core. -/
def Obligations.InstructionParityStopsIssue : Prop :=
  ∀ (n : Nat) (last : Bool) (s : State), s.clk.lost = false → s.fetches n (.nop true) = true → s.prog.isSome →
    ∃ t, exec (.nop n last [.bundle]) s = .next t ∧ ∀ c, c < 160 → s.fuse.active c = true →
      (t.core c).ended = true ∧ (s.issues n c = true → bitOf (t.core c).cond 6 = true) ∧ (t.core c).sregs = (s.core c).sregs

/-! ### The core program: move slot -/

/-- MOVSV, MOVVS, SETAS and MPOP. -/
def Obligations.RegisterMoveResults : Prop :=
  ∀ (n : Nat) (s : State),
    (∀ slot lane sa, SlotGives (fun l => .movsv n l slot lane sa) (movWord 3 slot lane sa) s n (fun c a b =>
      CoreDue a b (n + 1) n (.land (.fill slot lane [BitVec.ofNat 32 (a.readS s.free c n sa).toNat] false)))) ∧
    (∀ slot lane sd, SlotGives (fun l => .movvs n l slot lane sd) (movWord 4 slot lane sd) s n (fun c a b =>
      CoreDue a b (n + 3) n (.land (.sreg false sd (BitVec.ofNat 64 (a.lane s.free c n slot lane).toNat))))) ∧
    (∀ as sa sb sc fmt, SlotGives (fun l => .setas n l as sa sb sc fmt) (setasWord as sa sb sc fmt) s n (fun c a b =>
      ∃ w : Stream, CoreDue a b n n (.land (.stream as w)) ∧ w.base = (a.readS s.free c n sa).toNat % 2 ^ 25 ∧ w.fmt = fmt ∧
        w.rowPitch.toNat = (a.readS s.free c n sb).toNat % 2 ^ 32 ∧ w.arrayPitch.toNat = (a.readS s.free c n sc).toNat % 2 ^ 32)) ∧
    (∀ mask sd, SlotGives (fun l => .mpop n l mask sd) (mpopWord mask sd) s n (fun c a b =>
      CoreDue a b (n + 1) n (.land (.sreg false sd (BitVec.ofNat 64
        ((List.range 128).countP (fun i => (a.readMask s.free c n mask).getLsbD i)))))))

/-- FILL reads its units from the count of issue on; STORE takes its first line at n + 2, or is refused and does nothing but set the
    condition; STORE_SIGNAL adds 1 to the store's semaphore. -/
def Obligations.FillAndStore : Prop :=
  (∀ (n slot fmt sa : Nat) (laneBase c128 : Bool) (s : State),
    SlotGives (fun l => .fill n l slot laneBase c128 fmt sa) (fillWord slot laneBase c128 fmt sa) s n (fun c a b =>
      ∃ f : FillOp, CoreDue a b n n (.fillUnit f) ∧ f.slot = slot ∧ f.base = (if laneBase then 64 else 0) ∧ f.count = (if c128 then 128 else 64) ∧
        f.fmt = fmt ∧ f.start = (a.readS s.free c n sa).toNat % 2 ^ 25 ∧ f.unit = 0 ∧ f.units = (f.start % 128 + packedBytes fmt f.count + 127) / 128 ∧
        f.got = [] ∧ f.poison = false)) ∧
  (∀ (n tmpl sa src sb sem : Nat) (loc sig : Bool) (s : State) (p : Prog) (t : Template), s.prog = some p → p.templates[tmpl]? = some t →
    SlotGives (fun l => .store n l tmpl sa src sb loc sem sig) (storeWord tmpl sa src sb loc sem sig) s n (fun c a b =>
      let base := (a.readS s.free c n sb).toNat % (if loc then 2 ^ 25 else 2 ^ 52)
      (s.storeRefused c t loc base = true → CoreKept a b ∧ b.queue = a.queue ∧ bitOf b.cond 1 = true) ∧
      (s.storeRefused c t loc base = false → ∃ st : StoreOp, CoreKept a { b with stores := a.stores } ∧ b.stores = a.stores ++ [st] ∧
        st.id = n ∧ st.tmpl = t ∧ st.base = base ∧ st.loc = loc ∧ st.sem = sem ∧ st.sig = sig ∧ st.lines = [] ∧ st.written = 0 ∧
        st.src = (if t.srcVec then src else src % 4 + 4 * ((a.readS s.free c n sa).toNat % 2048)) ∧
        b.queue = a.queue ++ ⟨n + 2, n, .storeTake n 0⟩ :: (if loc then [⟨n + 4 + t.lateBy, n, .storeWrite n 0⟩] else [])))) ∧
  ∀ (core id : Nat) (s : State) (st : StoreOp), s.clk.lost = false → (s.core core).getStore id = some st → st.sent = true → st.outst = 0 → st.sig = true →
    st.doneAt < s.epoch → netOf (s.core core).semNet st.sem = none →
    ∃ t, exec (.storeSignal core id) s = .next t ∧ (∀ a, t.byteAt a = s.byteAt a) ∧ (∀ c, c ≠ core → t.core c = s.core c) ∧
      Sparse.get 0 (t.core core).sems st.sem = min (Sparse.get 0 (s.core core).sems st.sem + 1) (2 ^ 32 - 1) ∧
      (∀ i, i ≠ st.sem → Sparse.get 0 (t.core core).sems i = Sparse.get 0 (s.core core).sems i) ∧
      (t.core core).stores = (s.core core).stores.filter (fun x => x.id != id)

/-! ### The core program: sync slot -/

/-- SEMWAIT is tested after count n + 2; SEMADD and SEMSUB change the semaphore 3 counts after issue, by V, nothing for 0; SEMRD reads. -/
def Obligations.SemaphoreSlots : Prop :=
  ∀ (n idx sa sd : Nat) (glob : Bool) (imm : BitVec 16) (s : State),
    let V : Nat → Core → Nat := fun c a => ((a.readS s.free c n sa).toNat + imm.toNat) % 2 ^ 32
    SlotGives (fun l => .semwait n l glob idx sa imm) (semWord 1 glob idx sa imm.toNat) s n (fun c a b =>
      CoreKept a { b with gates := a.gates } ∧ b.queue = a.queue ∧ b.gates = a.gates ++ [⟨n + 3, glob, idx, V c a, false⟩]) ∧
    SlotGives (fun l => .semadd n l glob idx sa imm) (semWord 2 glob idx sa imm.toNat) s n (fun c a b =>
      (V c a = 0 → CoreKept a b ∧ b.queue = a.queue) ∧ (V c a ≠ 0 → CoreDue a b (n + 2) n (.land (.sem glob idx (V c a) false)))) ∧
    SlotGives (fun l => .semsub n l glob idx sa imm) (semWord 3 glob idx sa imm.toNat) s n (fun c a b =>
      (V c a = 0 → CoreKept a b ∧ b.queue = a.queue) ∧ (V c a ≠ 0 → CoreDue a b (n + 2) n (.land (.sem glob idx (-(V c a : Int)) true)))) ∧
    SlotGives (fun l => .semrd n l false idx sd) (semWord 6 false idx sd 0) s n (fun _ a b => CoreDue a b (n + 2) n (.land (.semRead idx sd))) ∧
    (SlotRuns s n (semWord 6 true idx sd 0) → (∀ r, s.run = some r → ∀ e ∈ r.semrd, e.1 ≠ n) →
      ∃ t, exec (.semrd n false true idx sd) s = .next t ∧ exec (.semrd n true true idx sd) s = .next (t.endBundle n) ∧
        t = { s with cores := t.cores, run := t.run, free := s.free + 1, noProgress := 0 } ∧ ∀ c, c < 160 →
          (s.issues n c = true → CoreDue (s.core c) (t.core c) (n + 11) n (.land (.sreg true sd (BitVec.ofNat 64 (Sparse.get 0 s.gsems idx))))) ∧
          (s.issues n c = false → t.core c = s.core c))

/-- A semaphore changes by the net amount of its period, clamped to 0 and 2^32 − 1, and no other one changes; an amount of 0 changes nothing;
    a clamp is recorded, and adds and subtracts of one period that stay in the range together record none, in whichever order they come. -/
def Sys2Proof.Claims.SemaphoreChangesClamp : Prop :=
  (∀ (k : Core) (idx : Nat) (d : Int), let k' := k.semChange idx d
    let base : Int := match netOf k.semNet idx with
      | some x => x.start + x.net
      | none => ((Sparse.get 0 k.sems idx : Nat) : Int)
    (d = 0 → k' = k) ∧
    k' = { k with sems := k'.sems, semErr := k'.semErr, semNet := k'.semNet, semErr0 := k'.semErr0 } ∧
    (d ≠ 0 → ((Sparse.get 0 k'.sems idx : Nat) : Int) = max 0 (min (2 ^ 32 - 1) (base + d))) ∧
    (∀ i, i ≠ idx → Sparse.get 0 k'.sems i = Sparse.get 0 k.sems i) ∧
    (k.semNet = [] → 0 ≤ base + d → base + d < 2 ^ 32 → k'.semErr = k.semErr) ∧
    (k.semNet = [] → d ≠ 0 → base + d < 0 → bitOf k'.semErr 0 = true) ∧
    (k.semNet = [] → d ≠ 0 → 2 ^ 32 ≤ base + d → bitOf k'.semErr 1 = true)) ∧
  (∀ (k : Core) (idx : Nat) (d e : Int), let k' := (k.semChange idx d).semChange idx e
    let cur : Int := ((Sparse.get 0 k.sems idx : Nat) : Int)
    k.semNet = [] → 0 ≤ cur + d + e → cur + d + e < 2 ^ 32 →
      ((Sparse.get 0 k'.sems idx : Nat) : Int) = cur + d + e ∧ k'.semErr = k.semErr) ∧
  ∀ (s : State) (idx : Nat) (d : Int), let s' := s.gsemChange idx d
    let base : Int := match netOf s.gsemNet idx with
      | some x => x.start + x.net
      | none => ((Sparse.get 0 s.gsems idx : Nat) : Int)
    (d = 0 → s' = s) ∧
    s' = { s with gsems := s'.gsems, gsemErr := s'.gsemErr, gsemNet := s'.gsemNet, gsemErr0 := s'.gsemErr0, gsemSent := s'.gsemSent,
                  noProgress := s'.noProgress } ∧
    (d ≠ 0 → ((Sparse.get 0 s'.gsems idx : Nat) : Int) = max 0 (min (2 ^ 32 - 1) (base + d)) ∧ ∃ e ∈ s'.gsemSent, e.1 = idx) ∧
    ∀ i, i ≠ idx → Sparse.get 0 s'.gsems i = Sparse.get 0 s.gsems i

/-- A held core that finds a wait met notes it, and the wait is over with the next period, even if the value has fallen again; a core's copy of a
    device-global semaphore takes the hub's value while both clocks run. -/
def Sys2Proof.Claims.WaitsAndCopiesUpdate : Prop :=
  let value : Core → Gate → Nat := fun k g => if g.glob then Sparse.get 0 k.gcopy g.idx else Sparse.get 0 k.sems g.idx
  (∀ (core : Nat) (s : State), s.clk.lost = false → ∃ t, exec (.semWaitMet core) s = .next t ∧ t = { s with cores := t.cores } ∧
    (∀ c, c ≠ core → t.core c = s.core c) ∧
    t.core core = { s.core core with
      waits := (s.core core).waits.map (fun g => { g with met := g.met || decide (g.amount ≤ value (s.core core) g) }) }) ∧
  (∀ (k : Core) (crossing raising : Bool) (g : Gate),
    g ∈ (k.passNext crossing raising).waits ↔ g ∈ k.waits ∧ g.met = false ∧ value k g < g.amount) ∧
  ∀ (core idx : Nat) (s : State), s.clk.lost = false → s.fuse.active core = true → idx < 1024 →
    ((s.clocked core = false ∨ s.semStopped 255 = true) → exec (.globalSemaphoreUpdate core idx) s = .next s) ∧
    (s.clocked core = true → s.semStopped 255 = false → ∃ t, exec (.globalSemaphoreUpdate core idx) s = .next t ∧ t = { s with cores := t.cores } ∧ (∀ c, c ≠ core → t.core c = s.core c) ∧
      t.core core = { s.core core with gcopy := (t.core core).gcopy } ∧
      ∀ i, Sparse.get 0 (t.core core).gcopy i = if i = idx then Sparse.get 0 s.gsems idx else Sparse.get 0 (s.core core).gcopy i)

/-- Semaphores keep to their range; a held core's waits end when they are met; a core's copy takes the hub's value. -/
def Obligations.SemaphoresClampAndWaitsEnd : Prop := Claims.SemaphoreChangesClamp ∧ Claims.WaitsAndCopiesUpdate

/-! ### Remote operations, STEP and LDI at issue -/

/-- RSEMADD and RSEMSUB on the one core that issues: 0 sends nothing and finds nothing wrong, a refused target word is a descriptor error
    that sends nothing, a target on this device adds one operation in order of issue. -/
def Obligations.RemoteSemaphoreSlots : Prop :=
  ∀ e ∈ [((Instr.rsemadd : Nat → Bool → Bool → Nat → Nat → Nat → Instr), 4, false), (.rsemsub, 5, true)],
    ∀ (n idx sa sb c : Nat) (glob : Bool) (s : State), SlotRuns s n (rsemWord e.2.1 glob idx sa sb) → c < 160 → s.issues n c = true →
      (∀ x, x < 160 → s.issues n x = true → x = c) →
      let v : Nat := ((s.core c).readS s.free c n sa).toNat % 2 ^ 32
      let w : Nat := ((s.core c).readS s.free c n sb).toNat
      ∃ t, exec (e.1 n false glob idx sa sb) s = .next t ∧ exec (e.1 n true glob idx sa sb) s = .next (t.endBundle n) ∧
        (∀ a, t.byteAt a = s.byteAt a) ∧ (t.core c).sregs = (s.core c).sregs ∧ (∀ x, x < 160 → x ≠ c → t.core x = s.core x) ∧
        (v = 0 → t.remote = s.remote ∧ CoreKept (s.core c) (t.core c) ∧ (t.core c).semErr = (s.core c).semErr) ∧
        (targetRefused ((s.core c).readS s.free c n sb) glob = true → v ≠ 0 →
          t.remote = s.remote ∧ bitOf (t.core c).cond 2 = true ∧ bitOf (t.core c).semErr 2 = true) ∧
        (targetRefused ((s.core c).readS s.free c n sb) glob = false → v ≠ 0 → w / 2 ^ 22 % 2 = 1 → t.remoteId = s.remoteId + 1 ∧
          ∃ op : RemoteOp, t.remote = s.remote ++ [op] ∧ op.id = s.remoteId ∧ op.by_ = .core c ∧ op.self = true ∧ op.core = w % 256 ∧ op.idx = idx ∧
            op.amount = (if e.2.2 then -(v : Int) else v) ∧ op.since = s.periods0 ∧ op.outcome = none)

/-- STEP where no unit is due to be injected and no return round is under way: the weight buffer takes the forward Dasher's unit, the
    Dasher the unit whose place in the thread this is, the step number grows. Where a unit is due and has not landed, the core stops
    at this count, and what it waits behind is noted; a unit whose fetch cannot be made stops no core. -/
def Obligations.StepSwapsAndSends : Prop :=
  ∀ (n late : Nat) (rt : Nat) (s : State), SlotRuns s n (stepWord false rt) →
    ∃ t, exec (.stepChurn n false false rt late []) s = .next t ∧ exec (.stepChurn n true false rt late []) s = .next (t.endBundle n) ∧
      (∀ a, t.byteAt a = s.byteAt a) ∧ ∀ c, c < 160 → s.issues n c = true →
        (s.dueUnit c (s.core c).stepNo = none → (s.core c).round = none →
          (t.core c).stepNo = (s.core c).stepNo + 1 ∧ (t.core c).lastStep = some n ∧ (t.core c).wbufActive = (s.core c).fwd ∧
          (t.core c).sregs = (s.core c).sregs ∧ (t.core c).pail = (s.core c).pail ∧ (t.core c).acc = (s.core c).acc ∧ (t.core c).ret = {} ∧
          ∀ r, s.run = some r → ((t.core c).fwd.valid = true ↔ (s.fuse.unitAt r.units (s.fuse.pos c) (s.core c).stepNo).isSome) ∧
            ∀ u, s.fuse.unitAt r.units (s.fuse.pos c) (s.core c).stepNo = some u → (t.core c).fwd.tag = u) ∧
        (∀ u, s.dueUnit c (s.core c).stepNo = some u → (s.core c).hasUnit u = false →
          (∀ tb, s.injTable false = some tb → s.landBroken c u false tb = none) →
          (t.core c).stopped = some n ∧ (t.core c).late = some (1 + late % 3, none) ∧ (t.core c).stepNo = (s.core c).stepNo ∧
          (t.core c).wbufActive = (s.core c).wbufActive) ∧
        (∀ u tb, s.dueUnit c (s.core c).stepNo = some u → (s.core c).injq.any (fun i => i.unit == u && !i.forNext) = true →
          s.injTable false = some tb → (s.landBroken c u false tb).isSome = true →
          (t.core c).stopped = none ∧ (t.core c).stepNo = (s.core c).stepNo + 1)

/-- LDI on a queue of the program: the descriptor in scratchpad becomes the queue's last transfer; a queue of the host, of the
    Stirrer or of an injector, an offset that is not a multiple of 128, or a damaged descriptor refuses it; a core whose queue is full stops
    at this count under the cause LADLE. -/
def Obligations.LdiOffersATransfer : Prop :=
  ∀ (n q sa : Nat) (s : State), SlotRuns s n (ldiWord q sa) →
    ∃ t, exec (.ldi n false q sa []) s = .next t ∧ exec (.ldi n true q sa []) s = .next (t.endBundle n) ∧
      (∀ a, t.byteAt a = s.byteAt a) ∧ ∀ c, c < 160 → s.issues n c = true →
        let off := ((s.core c).readS s.free c n sa).toNat % 2 ^ 25
        (s.queueOwner c q ≠ 0 ∨ off % 128 ≠ 0 → (t.core c).ladle = (s.core c).ladle ∧ bitOf (t.core c).cond 2 = true) ∧
        (s.queueOwner c q = 0 → off % 128 = 0 → 64 ≤ (Sparse.get {} (s.core c).ladle q).waiting.length →
          (t.core c).ladle = (s.core c).ladle ∧ (t.core c).stopped = some n ∧ (t.core c).late = some (1, some q)) ∧
        (s.queueOwner c q = 0 → off % 128 = 0 → (Sparse.get {} (s.core c).ladle q).waiting.length < 64 → s.spadBad c off 128 = true →
          (t.core c).ladle = (s.core c).ladle ∧ bitOf (t.core c).cond 2 = true) ∧
        (s.queueOwner c q = 0 → off % 128 = 0 → (Sparse.get {} (s.core c).ladle q).waiting.length < 64 → s.spadBad c off 128 = false →
          (∀ p, p ≠ q → Sparse.get {} (t.core c).ladle p = Sparse.get {} (s.core c).ladle p) ∧
          ∃ x : Transfer, (Sparse.get {} (t.core c).ladle q).waiting = (Sparse.get {} (s.core c).ladle q).waiting ++ [x] ∧ x.by_ = .program ∧
            x.notBefore = (s.core c).genAge + 3 ∧
            x.desc.src = leNat (s.spadBytes c off 8) % 2 ^ 52 ∧ x.desc.dst = leNat (s.spadBytes c (off + 8) 8) % 2 ^ 52 ∧
            x.desc.run = leNat (s.spadBytes c (off + 16) 4) ∧ x.desc.semAdd = leNat (s.spadBytes c (off + 24) 4) ∧
            x.desc.tag = leNat (s.spadBytes c (off + 112) 4))

/-! ### Transfers on the mesh -/

/-- The next transfer of a queue starts while fewer than LIMIT are outstanding; one that fails its own checks is refused. -/
def Sys2Proof.Claims.TransferStarts : Prop :=
  ∀ (core q : Nat) (s : State) (x : Transfer) (rest : List Transfer), s.clk.lost = false → (s.queue core q).waiting = x :: rest →
    s.fuse.active core = true → s.clocked core = true → s.switching = false → s.restarting = false →
    (s.queue core q).out.length < s.queueLimit core q →
    ∃ t, exec (.ladleTransferStart core q) s = .next t ∧ (t.queue core q).waiting = rest ∧ (∀ a, t.byteAt a = s.byteAt a) ∧
      (x.desc.ok = true → s.ladleRanges core x.desc = true →
        ∃ y : Transfer, (t.queue core q).out = (s.queue core q).out ++ [y] ∧ y.id = x.id ∧ y.desc = x.desc ∧ y.next = x.next) ∧
      (x.desc.ok = false ∨ s.ladleRanges core x.desc = false → (t.queue core q).out = (s.queue core q).out ∧
        (x.by_ = .program → bitOf (t.core core).cond (if x.desc.ok then 1 else 2) = true))

/-- A read request of the queue that the Ladle serves, which meets nothing wrong, puts its piece on the mesh; its response puts a write there
    for the same bytes. -/
def Obligations.TransferPiecesTravel : Prop :=
  (∀ (core q id : Nat) (s : State) (x : Transfer), s.clk.lost = false → s.transfer core q id = some x → s.injReady core = false →
    s.ladleGrant core = some q → s.pieceReady core x = true →
    let p := x.desc.piece x.next
    let a := resolveSelf core p.1
    s.clocked core = true → s.meshRegs.service = true → (∀ i, i < p.2.2 → s.byteBad (a + i) = false) → inWordMem a = false →
    ∃ t, exec (.readRequest core q id [] none) s = .next t ∧ (∀ b, t.byteAt b = s.byteAt b) ∧
      t.mesh = s.mesh ++ [(s.meshId, .data (.transfer core q id) a x.next p.2.1 ((List.range p.2.2).map (fun i => (s.byteAt (a + i), false))))] ∧
      ∃ y, t.transfer core q id = some y ∧ y.next = x.next + 1 ∧ y.reading = x.reading + 1 ∧ y.outst = x.outst ∧ y.poison = x.poison) ∧
  ∀ (id core q tid src p dst router : Nat) (bs : List MByte) (s : State) (x : Transfer), s.clk.lost = false →
    s.mesh.find? (fun p => p.1 == id) = some (id, .data (.transfer core q tid) src p dst bs) → s.transfer core q tid = some x → x.peer = none →
    s.heldBack id (.data (.transfer core q tid) src p dst bs) = false → s.cvPending core q tid = false → anyMarked bs = false →
    ∃ t, exec (.readResponse id [] router false) s = .next t ∧ (∀ b, t.byteAt b = s.byteAt b) ∧
      t.mesh = s.mesh.filter (fun p => p.1 != id) ++ [(s.meshId, .write (.transfer core q tid) (resolveSelf core dst) bs false)] ∧
      ∃ y, t.transfer core q tid = some y ∧ y.next = x.next ∧ y.reading = x.reading - 1 ∧ y.outst = x.outst + 1 ∧ y.moved = x.moved + bs.length

/-- A write packet that meets nothing wrong stores its bytes and no other and is acknowledged; the acknowledgement of a transfer's
    write counts down what it waits for; one of a host write makes its bytes visible. -/
def Obligations.WritesLandAndAcknowledge : Prop :=
  (∀ (id a router : Nat) (o : Owner) (bs : List MByte) (s : State), s.clk.lost = false →
    s.mesh.find? (fun p => p.1 == id) = some (id, .write o a bs false) → s.heldBack id (.write o a bs false) = false →
    s.busyAt a bs.length = false → s.hasRoom (portOf a) 3 = true → inHost a = false → inPeer a = false →
    ∃ t, exec (.writePacket id [] router false) s = .next t ∧
      (∀ x, t.byteAt x = if a ≤ x ∧ x < a + bs.length then (bs.map Prod.fst).getD (x - a) 0 else s.byteAt x) ∧
      t.mesh = s.mesh.filter (fun p => p.1 != id) ++ [(t.meshId - 1, .ack o a)] ∧ s.meshId < t.meshId ∧
      (inSpad a = true → ∀ i, i < bs.length → inSpad (a + i) = true → t.byteBad (a + i) = (bs.getD i (0, false)).2)) ∧
  (∀ (id core q tid a : Nat) (s : State) (x : Transfer), s.clk.lost = false →
    s.mesh.find? (fun p => p.1 == id) = some (id, .ack (.transfer core q tid) a) → s.transfer core q tid = some x →
    s.heldBack id (.ack (.transfer core q tid) a) = false →
    ∃ t, exec (.writeAcknowledgement ⟨id, none⟩) s = .next t ∧ (∀ b, t.byteAt b = s.byteAt b) ∧ t.mesh = s.mesh.filter (fun p => p.1 != id) ∧
      ∃ y, t.transfer core q tid = some y ∧ y.outst = x.outst - 1 ∧ y.doneAt = s.epoch ∧ y.reading = x.reading ∧ y.next = x.next) ∧
  ∀ (id : Nat) (h : HostWrite) (s : State), s.clk.lost = false → (∀ p ∈ s.mesh, p.1 ≠ id) → s.hostWrites.find? (fun h => h.id == id) = some h →
    s.linkDown = false → h.owner = .none →
    ∃ t, exec (.writeAcknowledgement ⟨id, none⟩) s = .next t ∧ t.hostWrites = s.hostWrites.filter (fun x => x.id != id) ∧
      ∀ x, t.byteAt x = if h.addr ≤ x ∧ x < h.addr + h.bytes.length then (h.bytes.map Prod.fst).getD (x - h.addr) 0 else s.byteAt x

/-- A transfer whose writes were all acknowledged in earlier cycles adds to the semaphore it names and is over; one that names another core's
    semaphore sends the add, and is over once that has taken effect. -/
def Sys2Proof.Claims.TransferSignals : Prop :=
  ∀ (core q id : Nat) (s : State) (x : Transfer), s.clk.lost = false → s.transfer core q id = some x → x.desc.total ≤ x.next → x.reading = 0 →
    x.outst = 0 → x.msg = none → x.signalled = false → x.doneAt < s.epoch → s.cvPending core q x.id = false → s.clocked core = true → x.dropped = false → s.restarting = false → x.by_ = .program → x.desc.ok = true → x.desc.semAdd ≠ 0 →
    (x.desc.semKind = 2 → s.semStopped 255 = false) →
    (((s.queue core q).out.filter (fun y => y.desc.semKind != 0 && !y.dropped)).head? = some x) →
    ∃ t, exec (.ladleSignal core q id) s = .next t ∧ (∀ b, t.byteAt b = s.byteAt b) ∧
      (x.desc.semKind ≠ 3 → (t.queue core q).out = (s.queue core q).out.filter (fun y => y.id != id)) ∧
      (x.desc.semKind = 1 → netOf (s.core core).semNet x.desc.semIdx = none → Sparse.get 0 (t.core core).sems x.desc.semIdx =
        min (Sparse.get 0 (s.core core).sems x.desc.semIdx + x.desc.semAdd) (2 ^ 32 - 1)) ∧
      (x.desc.semKind = 2 → netOf s.gsemNet x.desc.semIdx = none → Sparse.get 0 t.gsems x.desc.semIdx = min (Sparse.get 0 s.gsems x.desc.semIdx + x.desc.semAdd) (2 ^ 32 - 1)) ∧
      (x.desc.semKind = 3 → t.transfer core q id = some { x with signalled := true } ∧ ∃ op : RemoteOp, t.remote = s.remote ++ [op] ∧ op.self = true ∧ op.core = x.desc.semCore ∧ op.idx = x.desc.semIdx ∧
        op.amount = x.desc.semAdd)

/-- A transfer's start and, with its writes acknowledged, its end and its signal. -/
def Obligations.TransfersStartAndEnd : Prop := Claims.TransferStarts ∧ Claims.TransferSignals

/-- A delivered unit whose writes were acknowledged in earlier cycles: 1 is added to its semaphore. An injected unit is read at the addresses of
    its entry when the Ladle serves queue 7, and lands with those bytes. One whose entry is damaged lands at once, poisoned, and counts for
    the run that injects it. -/
def Obligations.UnitsDeliverAndLand : Prop :=
  (∀ (core id i : Nat) (s : State) (d : DeliveryOp), s.clk.lost = false → (s.core core).deliveries.find? (fun d => d.id == id) = some d →
    d.outst = 0 → d.doneAt < s.epoch → d.done = some i → netOf s.gsemNet i = none →
    ∃ t, exec (.deliverySignal core id) s = .next t ∧ (∀ b, t.byteAt b = s.byteAt b) ∧
      (t.core core).deliveries = (s.core core).deliveries.filter (fun x => x.id != id) ∧
      Sparse.get 0 t.gsems i = min (Sparse.get 0 s.gsems i + 1) (2 ^ 32 - 1) ∧ ∀ j, j ≠ i → Sparse.get 0 t.gsems j = Sparse.get 0 s.gsems j) ∧
  (∀ (core id : Nat) (s : State) (i : InjUnit) (tb : Table), s.clk.lost = false → s.clocked core = true → s.meshRegs.service = true →
    s.injReady core = true → (s.core core).nextAsk = some i → s.injTable i.forNext = some tb → i.forNext = false →
    let parts := injParts tb (s.tableFmt tb.ut) (s.spadBytes core (tb.base2 + 16 * (i.unit / 4)) 16)
    let bytes := fun (p : Nat × Nat) => s.bytesAt (resolveSelf core p.1) p.2
    s.spadBad core (tb.base2 + 16 * (i.unit / 4)) 16 = false →
    (∀ p ∈ parts.1 ++ parts.2, s.rangeOk false core p.1 (p.1 + p.2 - 1) = true ∧ s.anyBad (resolveSelf core p.1) p.2 = false) →
    ∃ t, exec (.readRequest core 7 id [] none) s = .next t ∧ (∀ b, t.byteAt b = s.byteAt b) ∧
      (∀ x ∈ (t.core core).injq, x.unit = i.unit → x.forNext = false → x.asked = true) ∧
      Sparse.get ⟨[], [], false⟩ t.units i.unit = ⟨parts.1.flatMap bytes, parts.2.flatMap bytes, false⟩) ∧
  (∀ (core unit router : Nat) (s : State) (tb : Table) (i : InjUnit), s.clk.lost = false → s.injTable false = some tb → s.clocked core = true →
    (s.core core).injq.find? (fun x => x.unit == unit && x.forNext == false && !x.landed) = some i → i.asked = true → i.lost = false →
    ∃ t, exec (.injectedUnitLanded core unit false ⟨[], router, false⟩) s = .next t ∧ (∀ b, t.byteAt b = s.byteAt b) ∧
      (∀ x ∈ (t.core core).injq, x.unit = unit → x.forNext = false → x.landed = true) ∧
      Sparse.get ⟨[], [], false⟩ t.units unit = Sparse.get ⟨[], [], false⟩ s.units unit) ∧
  ∀ (core unit router : Nat) (bad : List Nat) (s : State) (tb : Table) (i : InjUnit), s.clk.lost = false → s.injTable false = some tb →
    s.clocked core = true → (s.core core).injq.find? (fun x => x.unit == unit && x.forNext == false && !x.landed) = some i → i.asked = false →
    s.spadBad core (tb.base2 + 16 * (unit / 4)) 16 = true →
    ∃ t, exec (.injectedUnitLanded core unit false ⟨bad, router, false⟩) s = .next t ∧ (∀ b, t.byteAt b = s.byteAt b) ∧
      (∀ x ∈ (t.core core).injq, x.unit = unit → x.forNext = false → x.landed = true ∧ bitOf x.cond 0 = true) ∧
      (Sparse.get ⟨[], [], false⟩ t.units unit).poison = true

/-- An operation of this device reaches its target and its answer ends it; one that is not acknowledged in 2^t periods of region 0's clock
    ends with the timeout outcome, and that time has passed. -/
def Obligations.RemoteOperationsEnd : Prop :=
  (∀ (id : Nat) (s : State) (op : RemoteOp), s.clk.lost = false → s.remote.find? (fun o => o.id == id) = some op → op.self = true → op.outcome = none →
    op.lost = false → (s.remote.takeWhile (fun o => o.id != id)) = [] → op.core < 160 → s.semStopped op.core = false →
    (op.key.1 = 0 → s.routeStopped op.key.2 op.core = false) → ∃ t, exec (.remoteSemaphorePacket ⟨id, none⟩) s = .next t ∧ (∀ b, t.byteAt b = s.byteAt b) ∧
      (∃ op', t.remote.find? (fun o => o.id == id) = some op' ∧ op'.outcome.isSome) ∧
      (s.fuse.active op.core = true → s.switching = false → s.restarting = false → op.amount ≠ 0 →
        netOf (s.core op.core).semNet op.idx = none → ((Sparse.get 0 (t.core op.core).sems op.idx : Nat) : Int) =
        max 0 (min (2 ^ 32 - 1) ((Sparse.get 0 (s.core op.core).sems op.idx : Nat) + op.amount)))) ∧
  (∀ (id o : Nat) (s : State) (op : RemoteOp), s.clk.lost = false → s.remote.find? (fun o => o.id == id) = some op → op.self = true →
    op.outcome = some o → op.lost = false → (op.key.1 = 0 → s.routeStopped op.core op.key.2 = false) →
    ∃ t, exec (.semaphoreAcknowledgement ⟨id, none⟩) s = .next t ∧ (∀ b, t.byteAt b = s.byteAt b) ∧
      ∀ x ∈ t.remote, x.id ≠ id) ∧
  ∀ (id c : Nat) (s : State) (op : RemoteOp), s.clk.lost = false → s.remote.find? (fun o => o.id == id) = some op → op.by_ = .core c →
    (s.periods0 < op.since + 2 ^ s.tmoExp → exec (.remoteOperationTimeout id) s = .next s) ∧
    (op.since + 2 ^ s.tmoExp ≤ s.periods0 → s.mayPass = false ∧
      ∃ t, exec (.remoteOperationTimeout id) s = .next t ∧ (∀ x ∈ t.remote, x.id ≠ id) ∧
        bitOf (t.core c).semErr 2 = true ∧ ∀ r, s.run = some r → ∃ r', t.run = some r' ∧ 0x33 ∈ r'.remote)

/-! ### Hold, stretch and throttle -/

/-- A raise stops a core at its own count, and every core at the latest 12 of its periods after the raise; once every core has stopped and
    nothing is raised, the release is announced 8 periods ahead; a core resumes at the release plus its stop count's distance from the
    smallest one, no sooner and no later; a cause raised after the announcement withdraws it. -/
def Obligations.HoldStopsAndReleases : Prop :=
  (∀ (core : Nat) (s : State), s.clk.lost = false → s.fuse.active core = true → core < 160 → s.hold.raising = true → (s.core core).stopped = none →
    ∃ t, exec (.holdStop core) s = .next t ∧ t = { s with cores := t.cores, hold := t.hold } ∧
      t.core core = { s.core core with stopped := some (s.core core).sched } ∧
      (∀ c, c < 160 → c ≠ core → t.core c = { s.core c with raiseAge := (t.core c).raiseAge }) ∧
      (∀ c, c < 160 → c ≠ core → s.fuse.active c = true → (s.core c).stopped = none → 6 ≤ (t.core c).raiseAge) ∧ t.hold.episode = true) ∧
  (∀ (k : Core) (crossing raising freeze : Bool) (causes : List Nat), k.stopped = none →
    (k.passHold freeze true causes).raiseAge = k.raiseAge + 1 ∧
    (12 ≤ k.raiseAge → (k.passNext crossing true).stopped = some k.sched) ∧
    (crossing = false → k.raiseAge < 12 ∨ raising = false → (k.passNext crossing raising).stopped = none)) ∧
  (∀ (s : State), s.clk.lost = false → s.hold.episode = true → s.hold.release = none → s.allStopped = true → s.keepsHold = false →
    ∃ t, exec .holdRelease s = .next t ∧ t = { s with hold := t.hold } ∧ t.hold.release = some (s.epoch + 8) ∧ t.hold.sMin = s.hold.sMin) ∧
  (∀ (core e sc : Nat) (s : State), s.clk.lost = false → core < 160 → s.fuse.active core = true → s.hold.release = some e →
    (s.core core).stopped = some sc → (s.region (regionOf core)).stopped = false → (s.region (regionOf core)).half ≠ 2 →
    (s.epoch < e + (sc - s.hold.sMin) → exec (.holdResume core) s = .next s) ∧
    (e + (sc - s.hold.sMin) ≤ s.epoch → s.mayPass = false ∧
      ∃ t, exec (.holdResume core) s = .next t ∧ t.core core = { s.core core with stopped := none, raiseAge := 0 } ∧ t.epoch = s.epoch ∧
        (∀ c, c ≠ core → t.core c = s.core c) ∧ (∀ a, t.byteAt a = s.byteAt a) ∧
        ((∃ c ∈ s.fuse.ring, c ≠ core ∧ (s.core c).stopped ≠ none) → t.hold = s.hold) ∧
        ((∀ c ∈ s.fuse.ring, c ≠ core → (s.core c).stopped = none) → t.hold.episode = false ∧ t.hold.release = none))) ∧
  ∀ s : State, s.hold.release.isSome = true → s.keepsHold = true ∨ s.hold.crossing ≠ [] →
    s.settleHold.hold.release = none ∧ s.settleHold.hold.raising = true ∧ s.settleHold.cores = s.cores

/-- THROTTLE and the counters of the hold. -/
def Sys2Proof.Claims.ThrottleAndHoldCounters : Prop :=
  ∀ s : State, s.clk.lost = false →
    (s.boot.done = false → exec .throttleRaise s = .next s) ∧
    (s.boot.done = true → ∃ t, exec .throttleRaise s = .next t ∧ t = { s with hold := t.hold } ∧ t.hold.throttle = true ∧ t.hold.raising = true ∧
      t.hold.release = none ∧ 5 ∈ t.anyRaised) ∧
    (∃ t, exec .throttleClear s = .next t ∧ t = { s with hold := t.hold } ∧ t.hold.throttle = false) ∧
    ∀ value, s.regAlive = true → value % 2 = 1 → ∃ t, exec (.holdCounterClear value) s = .next t ∧
      t = { s with cores := t.cores, regions := t.regions, hold := t.hold } ∧ t.hold.total = 0 ∧ t.hold.cause = [] ∧ t.hold.episodes = 0 ∧ t.hold.skewMax = 0 ∧
      t.hold.freeze = decide (value / 2 % 2 = 1) ∧
      (∀ c, c < 160 → s.fuse.active c = true → t.core c = { s.core c with holdTotal := 0, holdCause := [] }) ∧
      ∀ r, r < 16 → t.region r = { s.region r with stretched := 0, denied := 0 }

/-- A monitor that trips with budget left has the next period of its region stretched, and is counted; with four stretched periods among the
    last 64 it is denied. A stretched period takes two epoch counts, has no period in the first, and adds 1 to λ as it ends. -/
def Sys2Proof.Claims.StretchSpendsItsBudget : Prop :=
  (∀ (r : Nat) (duty : Bool) (s : State), s.clk.lost = false → r < 16 → (s.region r).stopped = false →
    let now := s.epoch - (s.region r).lost
    let recent := (s.region r).window.filter (fun p => now < p + 64)
    ∃ t, exec (.stretch r duty) s = .next t ∧ t = { s with regions := t.regions } ∧ (∀ q, q ≠ r → t.region q = s.region q) ∧
      (if duty then (t.region r).duty = true else (t.region r).jit = true) ∧ (t.region r).lag = (s.region r).lag ∧
      (t.region r).half = (s.region r).half ∧
      ((s.region r).trip = true → (t.region r).trip = true ∧ (t.region r).window = (s.region r).window) ∧
      ((s.region r).trip = false → recent.length < 4 → (t.region r).trip = true ∧ (t.region r).window = recent ++ [now] ∧
        (s.hold.freeze = false → (t.region r).stretched = min ((s.region r).stretched + 1) (2 ^ 32 - 1))) ∧
      ((s.region r).trip = false → 4 ≤ recent.length → (t.region r).trip = false ∧
        (s.hold.freeze = false → (t.region r).denied = min ((s.region r).denied + 1) (2 ^ 32 - 1)))) ∧
  ∀ g : Region, g.stopped = false →
    (g.half ≠ 1 → g.pass.half = (if g.trip then 1 else 0) ∧ g.pass.trip = false ∧ g.pass.lost = g.lost) ∧
    (g.half = 1 → g.ticks = false ∧ g.pass = { g with half := 2, lost := g.lost + 1 }) ∧
    g.pass.lag = (if g.half = 2 then g.lag + 1 else g.lag)

/-- THROTTLE, the hold counters, and the stretch of a region's period. -/
def Obligations.ThrottleCountersAndStretch : Prop := Claims.ThrottleAndHoldCounters ∧ Claims.StretchSpendsItsBudget

/-! ### Clocks -/

/-- The reference: a write that changes SRC or PORT starts a switch, which completes while both clocks run; from or to a clock that has
    stopped it leaves the device without a reference; a lost reference stops everything. -/
def Obligations.ReferenceSwitches : Prop :=
  (∀ (value : Nat) (s : State), s.regAlive = true → s.clk.switching = false → (value / 256 % 2 = 1 → value % 32 ≤ 23) →
    (s.clk.refSrc ≠ decide (value / 256 % 2 = 1) ∨ s.clk.refPort ≠ value % 32) →
    ∃ t, exec (.referenceSwitch value) s = .next t ∧ t = { s with clk := { s.clk with
        refSrc := decide (value / 256 % 2 = 1), refPort := value % 32, switching := true, lost := t.clk.lost } } ∧
      (t.clk.lost = false ↔ s.sourceRuns s.clk.useSrc s.clk.usePort = true ∧ s.sourceRuns (decide (value / 256 % 2 = 1)) (value % 32) = true)) ∧
  (∀ s : State, s.clk.lost = false → s.clk.switching = true →
    exec .referenceSwitchComplete s = .next { s with clk := { s.clk with useSrc := s.clk.refSrc, usePort := s.clk.refPort, switching := false } }) ∧
  ∀ s : State, s.clk.lost = false → exec .referenceLoss s = .next { s with clk := { s.clk with lost := true } }

/-- Nothing runs while the selected reference is lost, but a device reset and the test access port. -/
def Obligations.LostReferenceStopsEverything : Prop :=
  ∀ (c : Instr) (s : State), s.clk.lost = true → c ≠ .deviceReset → (∀ d, c ≠ .jtagBypass d) → c ≠ .jtagIdcode → (∀ p d, c ≠ .samplePreload p d) →
    (∀ p d, c ≠ .jtagExtest p d) → (∀ d, c ≠ .jtagClamp d) → (∀ d, c ≠ .jtagHighz d) → exec c s = .next s

/-- A synchronised change: accepted and refused by R509's tests in their order, abandoned without its locks at N − 64, held at
    N − 32, and at N every region and the configuration bus run at the new codes. -/
def Sys2Proof.Claims.SynchronisedChangeRuns : Prop :=
  (∀ (value : Nat) (s : State), s.regAlive = true → value / 2 ^ 31 % 2 = 1 →
    let step := value % 8
    let cfg := value / 16 % 8
    ∃ t, exec (.synchronisedChangeRequest value) s = .next t ∧ t = { s with clk := t.clk, regions := t.regions } ∧ t.clk.fchgStep = step ∧ t.clk.fchgCfg = cfg ∧
      (s.clk.change.isSome ∨ s.clk.ecfPend.isSome ∨ s.mixed = true → t.clk.fchgDone = true ∧ t.clk.fchgResult = 1 ∧ t.clk.change = s.clk.change) ∧
      (s.clk.change = none → s.clk.ecfPend = none → s.mixed = false →
        (5 < step ∨ 4 < cfg → t.clk.fchgDone = true ∧ t.clk.fchgResult = 6 ∧ t.clk.change = none) ∧
        (step ≤ 5 → cfg ≤ 4 → step < s.dieTop → t.clk.fchgDone = true ∧ t.clk.fchgResult = 2 ∧ t.clk.change = none) ∧
        (step ≤ 5 → cfg ≤ 4 → s.dieTop ≤ step → s.clk.fchgN < s.epoch + 65536 → t.clk.fchgDone = true ∧ t.clk.fchgResult = 3 ∧ t.clk.change = none) ∧
        (step ≤ 5 → cfg ≤ 4 → s.dieTop ≤ step → s.epoch + 65536 ≤ s.clk.fchgN →
          t.clk.change = some { step := step, cfg := cfg, n := s.clk.fchgN, hw := false } ∧ ∀ r, r < 16 → (t.region r).locked = false))) ∧
  (∀ (r : Nat) (s : State), s.clk.lost = false → r < 16 → (s.clk.change.isSome ∨ s.clk.ecfPend.isSome) →
    ∃ t, exec (.standbyPllLock r) s = .next t ∧ t = { s with regions := t.regions } ∧ t.region r = { s.region r with locked := true } ∧
      ∀ q, q ≠ r → t.region q = s.region q) ∧
  (∀ (s : State) (c : Change), s.clk.lost = false → s.clk.change = some c → c.stage = 0 →
    (s.epoch + 64 < c.n → exec .lockCheck s = .next s) ∧
    (c.n ≤ s.epoch + 64 → s.mayPass = false ∧ ∃ t, exec .lockCheck s = .next t ∧ t = { s with clk := t.clk } ∧
      ((∀ r, r < 16 → (s.region r).locked = true) → t.clk = { s.clk with change := some { c with stage := 1 } }) ∧
      ((∃ r, r < 16 ∧ (s.region r).locked = false) → t.clk.change = none ∧ t.clk.fchgResult = 4 ∧ t.clk.fchgDone = true))) ∧
  (∀ (s : State) (c : Change), s.clk.lost = false → s.clk.change = some c → c.stage = 1 →
    (s.epoch + 32 < c.n → exec .changeHold s = .next s) ∧
    (c.n ≤ s.epoch + 32 → s.mayPass = false ∧ ∃ t, exec .changeHold s = .next t ∧ t = { s with clk := t.clk, hold := t.hold } ∧
      t.hold.change = true ∧ t.hold.raising = true ∧ (∀ x ∈ t.anyRaised, x ∈ s.anyRaised) ∧ t.clk = { s.clk with change := some { c with stage := 2 } })) ∧
  ∀ (s : State) (c : Change), s.clk.lost = false → s.clk.change = some c → c.stage = 2 →
    (s.epoch < c.n → exec .clockSwitch s = .next s) ∧
    (c.n ≤ s.epoch → s.dieTop ≤ c.step → s.mayPass = false ∧
      ∃ t, exec .clockSwitch s = .next t ∧ t = { s with clk := t.clk, hold := t.hold, regions := t.regions, epoch := s.epoch + 4 } ∧
        t.hold.change = false ∧ t.clk.cfg = c.cfg ∧ (∀ r, r < 16 → (t.region r).step = c.step) ∧
        (s.allStopped = true → { s with hold := { s.hold with change := false } }.keepsHold = false → t.hold.release = some (c.n + 8)))

/-- A stopped change: refused while a run or another change is in progress or for a step the region cannot run at; else the region
    stops, and restarts at the new step once its PLL has locked, and the register writes that waited for its clock take effect; a packet
    whose route leads through it waits. CLK_CFGBUS takes a code up to 4. -/
def Sys2Proof.Claims.StoppedChangeRuns : Prop :=
  (∀ (value : Nat) (s : State), s.regAlive = true → value / 2 ^ 31 % 2 = 1 →
    let step := value / 256 % 8
    let r := value % 16
    ∃ t, exec (.stoppedChangeRequest value) s = .next t ∧ t = { s with clk := t.clk, regions := t.regions } ∧ (∀ q, q ≠ r → t.region q = s.region q) ∧
      (s.run.isSome ∨ s.clk.change.isSome ∨ s.clk.ecfPend.isSome → t.clk.ecfResult = 1 ∧ t.region r = s.region r) ∧
      (s.run = none → s.clk.change = none → s.clk.ecfPend = none →
        (5 < step ∨ step < (s.region r).top ∨ (s.debug = true ∧ step = 0) → t.clk.ecfResult = 2 ∧ t.region r = s.region r) ∧
        (step ≤ 5 → (s.region r).top ≤ step → (s.debug = true → step ≠ 0) → t.clk.ecfBusy = true ∧ t.clk.ecfPend = some (r, step) ∧
          t.region r = { s.region r with stopped := true, locked := false }))) ∧
  (∀ (s : State) (r step : Nat), s.clk.lost = false → s.clk.ecfPend = some (r, step) → (s.region r).locked = true → s.clk.wanted = none →
    (s.region r).top ≤ step →
    let up : State := ({ s with clk := { s.clk with ecfBusy := false, ecfPend := none, ecfResult := 0 } }).setRegion r
      { s.region r with stopped := false, step := step }
    (s.cfgWait = [] → exec .stoppedChangeRestart s = .next up.waitsMet) ∧
    ∀ off w v, s.cfgWait = [(off, w, v)] → up.regWaits off = false →
      exec .stoppedChangeRestart s = .next ({ up.cfgWrite off w v with cfgWait := [] } : State).waitsMet) ∧
  (∀ (id router : Nat) (bad : List Nat) (hdr add : Bool) (o : Owner) (a : Nat) (bs : List MByte) (s : State), s.clk.lost = false →
    s.mesh.find? (fun p => p.1 == id) = some (id, .write o a bs add) → s.routeStopped o.port (portOf a) = true →
    exec (.writePacket id bad router hdr) s = .next s) ∧
  ∀ (value : Nat) (s : State), s.regAlive = true → value % 8 ≤ 4 → s.clk.change = none →
    exec (.cfgBusChange value) s = .next { s with clk := { s.clk with cfg := value % 8 } }

/-- Frequency changes: synchronised at an epoch, and stopped for one region. -/
def Obligations.FrequencyChangesRun : Prop := Claims.SynchronisedChangeRuns ∧ Claims.StoppedChangeRuns

/-- The clock enables: a written bit is set; a busy unit keeps its bit; with the last of the Bulk tank's 16 channels its training
    begins, and where every channel has what MEM_BT_CFG says the tank is ready and reads as zeros. -/
def Obligations.ClockEnables : Prop :=
  (∀ (value : Nat) (s : State), s.regAlive = true → 0 < value % 2 ^ 32 → ∃ t, exec (.clkEnCrm value) s = .next t ∧ t = { s with clk := t.clk } ∧
    ∀ e, e < 32 → bitOf t.clk.enCrm e = (bitOf value e || (bitOf s.clk.enCrm e && (s.engine e).cmd != 0))) ∧
  (∀ (value : Nat) (s : State), s.regAlive = true → ∃ t, exec (.clkEnGrb value) s = .next t ∧ t = { s with clk := t.clk, ports := t.ports } ∧
    (∀ n, n < 24 → bitOf value n = true → bitOf t.clk.enGrb n = true) ∧
    ∀ n, n < 24 → bitOf value n = false → (s.port n).state = 0 → s.testOn 0 n = false → (s.clk.refSrc = true → s.clk.refPort ≠ n) →
      (s.clk.useSrc = true → s.clk.usePort ≠ n) → bitOf t.clk.enGrb n = false ∧ t.port n = {}) ∧
  (∀ (value : Nat) (s : State), s.regAlive = true → ∃ t, exec (.clkEnMisc value) s = .next t ∧
    (∀ i, i < 24 → bitOf value i = true → bitOf t.clk.enMisc i = true) ∧
    (value % 2 ^ 16 = 2 ^ 16 - 1 → s.clk.enMisc % 2 ^ 16 ≠ 2 ^ 16 - 1 → t.clk.btTraining = true) ∧ ∀ a, t.byteAt a = s.byteAt a) ∧
  ∀ (fitted : List Nat) (s : State), s.clk.lost = false → s.clk.btTraining = true → ∃ t, exec (.bulkTankReady fitted) s = .next t ∧ t.clk.btTraining = false ∧
    ((∀ c, c < 16 → fitted.getD c 4 = (s.unit 8).cfg % 4) → (t.unit 8).ready = true ∧ (t.unit 8).chFail = 0 ∧
      (∀ a, 0x10000000000 ≤ a → a < 0x20000000000 → t.byteAt a = 0) ∧
      ∀ a, a < 0x10000000000 ∨ 0x20000000000 ≤ a → t.byteAt a = s.byteAt a) ∧
    ((∃ c, c < 16 ∧ fitted.getD c 4 ≠ (s.unit 8).cfg % 4) → (t.unit 8).ready = (s.unit 8).ready ∧ (∀ a, t.byteAt a = s.byteAt a) ∧
      ∀ c, c < 16 → (bitOf (t.unit 8).chFail c = true ↔ fitted.getD c 4 ≠ (s.unit 8).cfg % 4))

/-! ### Reset and start-up -/

/-- The state after a device reset: the fuses, the record and the hard repairs stay, the incarnation grows by 1, the memories of the
    device read as zeros, and every register has its reset value. -/
def Obligations.DeviceResetClearsTheDevice : Prop :=
  (∀ s : State, exec .deviceReset s = .next s.afterReset) ∧
  (∀ (value : Nat) (s : State), s.regAlive = true → value % 2 ^ 32 = 0x5EB90001 → exec (.deviceResetRequest value) s = .next s.afterReset) ∧
  ∀ s : State, s.afterReset.fuse = s.fuse ∧ s.afterReset.hardLeft = s.hardLeft ∧ s.afterReset.pending = s.pending ∧
    s.afterReset.incarn = (s.incarn + 1) % 2 ^ 16 ∧ ((∀ c ∈ s.cmds, rowOf c.desc ≠ some .calWrite) → s.afterReset.flash = s.flash) ∧
    (∀ a, inHost a = false → s.afterReset.byteAt a = 0) ∧ (∀ a, inHost a = true → s.afterReset.byteAt a = s.byteAt a) ∧
    s.afterReset.epoch = 0 ∧ s.afterReset.cores = [] ∧ s.afterReset.crings = [] ∧ s.afterReset.erings = [] ∧ s.afterReset.cmds = [] ∧ s.afterReset.run = none ∧
    s.afterReset.prog = none ∧ s.afterReset.clk = {} ∧ s.afterReset.boot = {} ∧ s.afterReset.ports = [] ∧ s.afterReset.press = {}

/-- Start-up with good fuses, a link, crossings and stacks reaches phase 6 with every stack ready, at the highest of the three rates (the
    lowest code) at which none of its pseudo-channels fails; each failure sets its FAIL code. -/
def Sys2Proof.Claims.StartUpReachesPhaseSix : Prop :=
  ∀ (modules range strap : Nat) (slow : Bool) (drifts temps : List Nat) (cross fails : List (Nat × Nat)) (s : State),
    s.clk.lost = false → s.boot.started = false →
    let passes := fun (k r : Nat) => ∀ f ∈ fails, f.1 / 64 = k → f.2 ≠ r
    ∃ t, exec (.startUp modules slow range drifts temps cross fails strap) s = .next t ∧ t.boot.started = true ∧ (∀ a, t.byteAt a = s.byteAt a) ∧
      t.mgmt.strap = strap % 4 ∧ t.boot.modules = (if modules % 16 = 15 then 15 else if modules % 4 = 3 then 3 else if modules / 4 % 4 = 3 then 12 else 0) ∧
      (s.fuse.mapOk = false → t.boot.failed = true ∧ t.boot.fail = 4) ∧
      (s.fuse.mapOk = true → t.boot.modules = 0 → t.boot.failed = s.boot.failed ∧ t.boot.phase = 1) ∧
      (s.fuse.mapOk = true → t.boot.modules ≠ 0 →
        (crossFails cross = true → t.boot.failed = true ∧ t.boot.fail = 2) ∧
        (crossFails cross = false → (∃ k, k < 8 ∧ ∀ r, r < 3 → ¬ passes k r) → t.boot.failed = true ∧ t.boot.fail = 1) ∧
        (crossFails cross = false → (∀ k, k < 8 → ∃ r, r < 3 ∧ passes k r) → t.boot.failed = s.boot.failed ∧ t.boot.phase = 6 ∧
          ∀ k, k < 8 → ∃ r, r < 3 ∧ passes k r ∧ (∀ q, q < r → ¬ passes k q) ∧ t.unit k = { ready := true, rate := r }))

/-- SERVICE in phase 6: DONE and service mode where the mesh can serve, else the refusal and FAIL 3. A flit that fails 16 replays in
    a row takes the link down. -/
def Sys2Proof.Claims.ServiceAndLinkReplays : Prop :=
  (∀ (value : Nat) (s : State), s.regAlive = true → value % 2 = 1 → s.meshRegs.service = false → s.meshRegs.refuse = 0 → s.boot.failed = false →
    s.boot.phase = 6 → ∃ t, exec (.serviceRequest value) s = .next t ∧ t = { s with meshRegs := t.meshRegs, boot := t.boot } ∧ t.boot.phase = 7 ∧
      (s.serviceRefusal = 0 → t.meshRegs.service = true ∧ t.boot.done = true ∧ t.boot.failed = false) ∧
      (s.serviceRefusal ≠ 0 → t.meshRegs.service = false ∧ t.meshRegs.refuse = s.serviceRefusal ∧ t.boot.done = s.boot.done ∧ t.boot.failed = true ∧
        t.boot.fail = 3)) ∧
  ∀ (passes : Bool) (s : State), s.clk.lost = false → s.boot.modules ≠ 0 → s.linkDown = false →
    ∃ t, exec (.flitReplay passes) s = .next t ∧ t = { s with boot := t.boot, linkDown := t.linkDown } ∧
      t.boot.replays = min (s.boot.replays + 1) (2 ^ 64 - 1) ∧ t.boot.flitFails = (if passes then 0 else s.boot.flitFails + 1) ∧
      (t.linkDown = true ↔ passes = false ∧ 15 ≤ s.boot.flitFails)

/-- Start-up to phase 6, service mode, the link's replays. -/
def Obligations.StartUpAndService : Prop := Claims.StartUpReachesPhaseSix ∧ Claims.ServiceAndLinkReplays

/-! ### Memory controllers and maintenance -/

/-- Refresh, temperature and quiescing of a memory unit change its own registers and no data. The eighth postponed refresh of a bank is
    not postponed. -/
def Sys2Proof.Claims.MemoryUnitEvents : Prop :=
  (∀ (unit channel bank : Nat) (queued : Bool) (s : State), s.clk.lost = false → unit < 9 → (unit = 8 → channel < 16) → channel < 64 → bank < 32 →
    ∃ t, exec (.refresh unit channel bank queued) s = .next t ∧ t = { s with postponed := t.postponed } ∧
      let key := (unit * 64 + channel) * 32 + bank
      Sparse.get 0 t.postponed key = (if queued = true ∧ Sparse.get 0 s.postponed key < 7 then Sparse.get 0 s.postponed key + 1 else 0) ∧
      ∀ k, k ≠ key → Sparse.get 0 t.postponed k = Sparse.get 0 s.postponed k) ∧
  (∀ (k temp : Nat) (s : State), s.clk.lost = false → k < 9 → ∃ t, exec (.temperatureRead k temp) s = .next t ∧ t = { s with memUnits := t.memUnits } ∧
    t.unit k = { s.unit k with temp := (if k < 8 then temp % 256 else 0), ref2x := decide (85 ≤ temp) } ∧ ∀ q, q ≠ k → t.unit q = s.unit q) ∧
  (∀ (k value : Nat) (s : State), s.regAlive = true → s.boot.done = true → k < 8 → s.testOn 2 k = false →
    (value % 2 = 0 → (∀ j ∈ s.press.jobs, j.todo = []) ∧ (s.epochCmd.isSome = true ∨ s.epochQueue = [])) →
    ∃ t, exec (.quiesce k value) s = .next t ∧ t = { s with memUnits := t.memUnits } ∧
      t.unit k = (if value % 2 = 1 then { s.unit k with quiesce := true } else { s.unit k with quiesce := false, quiesced := false }) ∧
      ∀ q, q ≠ k → t.unit q = s.unit q) ∧
  ∀ (k : Nat) (s : State), s.clk.lost = false → k < 8 → (s.unit k).quiesce = true → ∃ t, exec (.stackQuiesced k) s = .next t ∧
    t = { s with memUnits := t.memUnits } ∧ t.unit k = { s.unit k with quiesced := true }

/-- The maintenance window: a GO starts an operation only on a quiesced stack and with an address in range; its end sets DONE and its
    RESULT, and each operation's own effect. -/
def Obligations.MaintenanceOperations : Prop :=
  (∀ e ∈ [((Instr.sppr : Nat → Instr), 1), (.hppr, 2), (.spares, 3), (.ieee1500, 4)], ∀ (value : Nat) (s : State), s.regAlive = true → s.boot.done = true →
    s.maint.busy = false → value % 2 = 1 → value / 2 % 8 = e.2 →
    ∃ t, exec (e.1 value) s = .next t ∧ t = { s with maint := t.maint } ∧ t.maint.cmd = e.2 ∧ t.maint.stack = value / 32 % 8 ∧
      ((s.unit (value / 32 % 8)).quiesced = false → t.maint.busy = false ∧ t.maint.done = true ∧ t.maint.result = 2) ∧
      ((s.unit (value / 32 % 8)).quiesced = true → (e.2 < 4 → s.maint.pc ≤ 63) → t.maint.busy = true ∧ t.maint.done = false) ∧
      ((s.unit (value / 32 % 8)).quiesced = true → e.2 < 4 → 63 < s.maint.pc → t.maint.busy = false ∧ t.maint.done = true ∧ t.maint.result = 4)) ∧
  ∀ (iface : Bool) (words : List (Nat × Nat)) (out : W64) (s : State), s.clk.lost = false → s.maint.busy = true →
    let left := Sparse.get 2 s.hardLeft s.maint.bankKey
    let soft := (s.softReps.filter (fun p => p.1 == s.maint.bankKey)).length
    ∃ t, exec (.maintenanceOperationEnd iface words out) s = .next t ∧ t.maint.busy = false ∧ t.maint.done = true ∧
      (iface = true → t.maint.result = 3 ∧ ∀ a, t.byteAt a = s.byteAt a) ∧
      (iface = false → s.maint.cmd = 3 → t.maint.result = 0 ∧ t.maint.remaining = min left 255) ∧
      (iface = false → s.maint.cmd = 4 → t.maint.result = 0 ∧ t.maint.data = out) ∧
      (iface = false → s.maint.cmd = 1 ∨ s.maint.cmd = 2 → left ≤ soft → t.maint.result = 1 ∧ ∀ a, t.byteAt a = s.byteAt a) ∧
      (iface = false → s.maint.cmd = 1 → soft < left → t.maint.result = 0 ∧ t.softReps = s.softReps ++ [(s.maint.bankKey, s.maint.row)] ∧
        t.hardLeft = s.hardLeft) ∧
      (iface = false → s.maint.cmd = 2 → soft < left → t.maint.result = 0 ∧ t.softReps = s.softReps ∧
        Sparse.get 2 t.hardLeft s.maint.bankKey = left - 1) ∧
      ∀ a, (∀ w ∈ words, ¬ (s.maint.covers w.1 = true ∧ a / 8 = w.1)) → t.byteAt a = s.byteAt a

/-- Scrubbing a word counts what it finds, corrects a single-bit error in the check bits, and changes no data. -/
def Sys2Proof.Claims.ScrubCorrects : Prop :=
  ∀ (w : Nat) (s : State), s.clk.lost = false → s.memEccCtl / 2 % 2 = 1 → inWordMem (8 * w) = true → (s.span false (8 * w)).isSome = true →
    (s.unit (unitOf (8 * w))).ready = true →
    ∃ t, exec (.scrub w []) s = .next t ∧ (∀ a, t.byteAt a = s.byteAt a) ∧
      (Sparse.get 0 s.ecc w = 0 → t = s) ∧ (Sparse.get 0 s.ecc w = 1 → Sparse.get 0 t.ecc w = 0 ∧
        Sparse.get 0 (t.unit (unitOf (8 * w))).cnt 0 = min (Sparse.get 0 (s.unit (unitOf (8 * w))).cnt 0 + 1) (2 ^ 64 - 1)) ∧
      (2 ≤ Sparse.get 0 s.ecc w → Sparse.get 0 t.ecc w = Sparse.get 0 s.ecc w)

/-- Memory units: refresh, temperature, quiescing, scrubbing. -/
def Obligations.MemoryUnitsServe : Prop := Claims.MemoryUnitEvents ∧ Claims.ScrubCorrects

/-! ### Command rings and event rings -/

/-- Command rings: enabling restarts one, disabling discards what is not delivered, a doorbell sets TAIL or puts the ring into
    error, a descriptor is read from the slot of its count. -/
def Sys2Proof.Claims.CommandRingsAct : Prop :=
  (∀ (r value : Nat) (s : State), s.regAlive = true → r < 64 → value / 2 ^ 31 % 2 = 1 → (s.cring r).en = false → 4 ≤ value % 32 → value % 32 ≤ 16 →
    exec (.commandRingEnable r value) s = .next (s.setCring r { s.cring r with
      log2 := value % 32, evt := value / 2 ^ 8 % 8, prio := decide (value / 2 ^ 12 % 2 = 1), en := true, state := 1, err := 0, head := 0, tail := 0
      seq := 0, descs := [] })) ∧
  (∀ (r value : Nat) (s : State), s.regAlive = true → r < 64 → value / 2 ^ 31 % 2 = 0 → (s.cring r).en = true →
    exec (.commandRingDisable r value) s = .next (s.setCring r { s.cring r with en := false, state := 0, descs := [] })) ∧
  (∀ (r value : Nat) (host : List Host.Cell) (s : State), s.regAlive = true → s.boot.done = true → r < 64 → value < 2 ^ 32 → (s.cring r).en = true →
    (s.cring r).state ≠ 2 → value ≠ (s.cring r).tail →
    let ahead := (value + 2 ^ 32 - (s.cring r).head) % 2 ^ 32
    let step := (value + 2 ^ 32 - (s.cring r).tail) % 2 ^ 32
    ∃ t, exec (.doorbell r value host) s = .next t ∧ (∀ a, (∀ p ∈ host, inHost p.1 = true → p.1 ≠ a) → t.byteAt a = s.byteAt a) ∧
      (2 ^ (s.cring r).log2 < ahead → (t.cring r).state = 2 ∧ (t.cring r).err = 1 ∧ (t.cring r).tail = (s.cring r).tail) ∧
      (ahead ≤ 2 ^ (s.cring r).log2 → 2 ^ 31 ≤ step → (t.cring r).state = 2 ∧ (t.cring r).err = 2 ∧ (t.cring r).tail = (s.cring r).tail) ∧
      (ahead ≤ 2 ^ (s.cring r).log2 → step < 2 ^ 31 → t = { s with mem := t.mem, crings := t.crings } ∧
        t.cring r = { s.cring r with tail := value } ∧ ∀ q, q ≠ r → t.cring q = s.cring q)) ∧
  ∀ (r : Nat) (s : State), s.clk.lost = false → s.boot.done = true → s.linkDown = false → (s.cring r).en = true → (s.cring r).state = 1 →
    (s.cring r).descs.length < 8 → (s.cring r).descs.length < ((s.cring r).tail + 2 ^ 32 - (s.cring r).head) % 2 ^ 32 →
    let k := s.cring r
    let d : Desc := BitVec.ofNat 512 (leNat (s.bytesAt (hostBase + k.base + 64 * ((k.head + k.descs.length) % 2 ^ k.log2)) 64))
    exec (.descriptorRead r false) s = .next (refuseReserved 512 (s.setCring r { k with descs := k.descs ++ [d] })) ∧
    ((∀ q x, (s.cring q).headOk = some x → rowOf x ≠ none) → rowOf d ≠ none →
      exec (.descriptorRead r false) s = .next (s.setCring r { k with descs := k.descs ++ [d] })) ∧
    ∃ t, exec (.descriptorRead r true) s = .next t ∧ (t.cring r).state = 2 ∧ (t.cring r).err = 3 ∧ (t.cring r).descs = [] ∧
      ∀ a, t.byteAt a = s.byteAt a

/-- Event rings: enabling one empties it, HEAD moves up to TAIL and no further, arming waits for a record or sends the message of
    those that wait. -/
def Sys2Proof.Claims.EventRingsAct : Prop :=
  (∀ (e value : Nat) (s : State), s.regAlive = true → e < 8 → (s.ering e).en = false → value / 2 ^ 31 % 2 = 1 → 4 ≤ value % 32 → value % 32 ≤ 16 →
    (s.ering e).buf = [] → s.waitRecs = [] →
    exec (.eventRingEnable e value) s = .next (s.setEring e { s.ering e with log2 := value % 32, en := true, head := 0, tail := 0 })) ∧
  (∀ (e value : Nat) (s : State), s.regAlive = true → e < 8 → (s.ering e).en = true → value / 2 ^ 31 % 2 = 0 →
    exec (.eventRingEnable e value) s = .next (s.setEring e { s.ering e with en := false })) ∧
  (∀ (e value : Nat) (s : State), s.regAlive = true → e < 8 → value < 2 ^ 32 →
    let held := ((s.ering e).tail + 2 ^ 32 - (s.ering e).head) % 2 ^ 32
    let taken := (value + 2 ^ 32 - (s.ering e).head) % 2 ^ 32
    (taken ≤ held → (s.ering e).buf = [] → s.waitRecs = [] →
      exec (.eventRingHeadWrite e value) s = .next (s.setEring e { s.ering e with head := value })) ∧
    (held < taken → exec (.eventRingHeadWrite e value) s = .next s)) ∧
  ∀ (e value : Nat) (s : State), s.regAlive = true → e < 8 → value / 2 ^ 30 % 2 = 1 →
    let k := { s.ering e with intEn := decide (value / 2 ^ 31 % 2 = 1), vector := value % 2 ^ 16 }
    ((s.ering e).tail = (s.ering e).head → exec (.armed e value) s = .next (s.setEring e { k with armed := true })) ∧
    ((s.ering e).tail ≠ (s.ering e).head → value / 2 ^ 31 % 2 = 1 →
      exec (.armed e value) s = .next ((s.setEring e { k with armed := false }).emit (.interrupt (value % 2 ^ 16)))) ∧
    ((s.ering e).tail ≠ (s.ering e).head → value / 2 ^ 31 % 2 = 0 → exec (.armed e value) s = .next (s.setEring e { k with armed := false }))

/-- Command rings and event rings as the host's register writes and reads move them. -/
def Obligations.RingsAct : Prop := Claims.CommandRingsAct ∧ Claims.EventRingsAct

/-- A command whose work and writes are over, with room in its event ring and nothing waiting before it: one record with the
    ring's number, the next SEQ, the status first in the order of conditions, its slot, TAG and DETAIL, and the PHASE of the slot's
    pass; the command is gone. -/
def Obligations.CompletionMakesOneRecord : Prop :=
  ∀ (id : Nat) (found : List Nat) (detail : List Byte) (s : State) (c : Cmd), id ≠ 0 → s.cmd id = some c → c.outst = 0 → c.posting = false →
    s.waitRecs = [] → (s.ering (s.cring c.ring).evt).buf = [] → (s.ering (s.cring c.ring).evt).room = true →
    let t := s.complete id found detail
    let e := (s.cring c.ring).evt
    let k := s.ering e
    let phase : Byte := if k.tail / 2 ^ k.log2 % 2 = 0 then 1 else 0
    t.ering e = { k with tail := (k.tail + 1) % 2 ^ 32 } ∧ t.cmd id = none ∧ (t.cring c.ring).seq = ((s.cring c.ring).seq + 1) % 2 ^ 32 ∧ t.waitRecs = [] ∧
      (∀ a, t.byteAt a = s.byteAt a) ∧
      ∃ w : HostWrite, t.hostWrites = s.hostWrites ++ [w] ∧ w.addr = hostBase + k.base + 32 * (k.tail % 2 ^ k.log2) ∧ w.owner = .record e k.tail ∧
        w.bytes = markAll false ([phase] ++ leBytes 1 1 ++ leBytes 2 c.ring ++ leBytes 4 (s.cring c.ring).seq
          ++ leBytes 2 (firstStatus (c.found ++ found)) ++ leBytes 2 (c.count % 2 ^ 16) ++ leBytes 4 (fieldAt c.desc 4 4)
          ++ (detail ++ List.replicate 16 0).take 16) ∧
        ∀ l, firstStatus l =
          ([0x21, 0x22, 0x20, 0x03, 0x51, 0x50, 0x30, 0x31, 0x32, 0x33, 0x02, 0x01, 0x05, 0x52].find? (fun x => l.contains x)).getD (l.headD 0)

/-- Semaphore commands and fences: a local semaphore takes the sum or the difference within its range, once its controller's clock runs; a wait holds its ring until its value
    is reached; a fence holds its ring until the commands before it have posted their records. -/
def Obligations.CommandSemaphoresAndFences : Prop :=
  (∀ e ∈ [((Instr.semaphoreAdd : Nat → Instr), Row.semAdd, false), (.semaphoreSubtract, .semSub, true)], ∀ (r : Nat) (d : Desc) (s : State),
    Offered s r e.2.1 d →
    let u := delivered s r d
    let v := fieldAt d 12 4
    let idx := fieldAt d 10 2
    (s.semHeld d = true → exec (e.1 r) s = .next s) ∧
    (∀ x, s.semHeld d = false → u.semRefusal d false = some x → exec (e.1 r) s = .next (u.complete s.cmdId [x] [])) ∧
    (s.semHeld d = false → u.semRefusal d false = none → bitOf (fieldAt d 16 8) 22 = true →
      ∃ t, exec (e.1 r) s = .next t ∧ (∀ a, t.byteAt a = s.byteAt a) ∧
        (fieldAt d 9 1 = 1 → netOf s.gsemNet idx = none → Sparse.get 0 s.gsems idx < 2 ^ 32 → Sparse.get 0 t.gsems idx =
            (if e.2.2 then Sparse.get 0 s.gsems idx - v else min (Sparse.get 0 s.gsems idx + v) (2 ^ 32 - 1)) ∧
          ∀ i, i ≠ idx → Sparse.get 0 t.gsems i = Sparse.get 0 s.gsems i) ∧
        (fieldAt d 9 1 = 0 → let c := fieldAt d 16 1
          netOf (s.core c).semNet idx = none → Sparse.get 0 (s.core c).sems idx < 2 ^ 32 → Sparse.get 0 (t.core c).sems idx =
            (if e.2.2 then Sparse.get 0 (s.core c).sems idx - v else min (Sparse.get 0 (s.core c).sems idx + v) (2 ^ 32 - 1)) ∧
          (∀ i, i ≠ idx → Sparse.get 0 (t.core c).sems i = Sparse.get 0 (s.core c).sems i) ∧ ∀ x, x ≠ c → t.core x = s.core x)) ∧
    (u.semRefusal d false = none → bitOf (fieldAt d 16 8) 22 = false → v = 0 → exec (e.1 r) s = .next (u.complete s.cmdId [] [])) ∧
    (u.semRefusal d false = none → bitOf (fieldAt d 16 8) 22 = false → v ≠ 0 →
      let x := u.remoteIssue (.command s.cmdId) (BitVec.ofNat 64 (fieldAt d 16 8)) (fieldAt d 9 1 == 1) idx (if e.2.2 then -(v : Int) else v)
      exec (e.1 r) s = .next (if x.2 then x.1 else u.complete s.cmdId [0x32] []))) ∧
  (∀ (r : Nat) (d : Desc) (s : State), Offered s r .semWait d → (∀ c ∈ s.cmds, c.id ≠ s.cmdId) →
    (∀ c ∈ s.cmds, rowOf c.desc ≠ some .semWait ∨ c.ended ≠ none) →
    let u := delivered s r d
    (∀ x, u.semRefusal d true = some x → exec (.semaphoreWait r) s = .next (u.complete s.cmdId [x] [])) ∧
    (u.semRefusal d true = none → s.namedSem d < fieldAt d 12 4 → exec (.semaphoreWait r) s = .next (u.block s.cmdId) ∧
      ((u.block s.cmdId).cring r).blocked = some s.cmdId) ∧
    (u.semRefusal d true = none → fieldAt d 12 4 ≤ s.namedSem d → s.semStopped (fieldAt d 16 1) = false →
      exec (.semaphoreWait r) s = .next ((u.block s.cmdId).complete s.cmdId [] (leBytes 4 (s.namedSem d))))) ∧
  (∀ (r : Nat) (d : Desc) (s : State), Offered s r .fence d → (∀ c ∈ s.cmds, c.id ≠ s.cmdId) →
    ((zeroAt d 1 3 && zeroAt d 16 48) = false → exec (.fence r) s = .next ((delivered s r d).complete s.cmdId [1] [])) ∧
    ((zeroAt d 1 3 && zeroAt d 16 48) = true → ∃ t c, exec (.fence r) s = .next t ∧ (t.cring r).blocked = some s.cmdId ∧ t.cmd s.cmdId = some c ∧
      c.fence = (s.cmds.filter (fun x => x.ring == r || bitOf (fieldAt d 8 8) x.ring)).map (fun x => x.id) ∧ ∀ a, t.byteAt a = s.byteAt a)) ∧
  ∀ (r id : Nat) (s : State) (c : Cmd), s.clk.lost = false → (s.cring r).blocked = some id → s.cmd id = some c → rowOf c.desc = some .fence → c.ended = none →
    ((∀ i ∈ c.fence, s.cmd i = none) → exec (.fenceRelease r) s = .next (s.complete id [] (leBytes 8 s.epoch))) ∧
    ((∃ i ∈ c.fence, s.cmd i ≠ none) → exec (.fenceRelease r) s = .next s)

/-! ### Runs and contexts -/

/-- A run starts its entry on every active core at count 0 with cleared registers, stopped before its first bundle where a raise is on its way
    or the core is in an episode, or is refused; it completes with its record once everything it began is over. -/
def Obligations.RunsStartAndComplete : Prop :=
  (∀ (r : Nat) (d : Desc) (s : State) (p : Prog), Offered s r .run d → s.prog = some p →
    (zeroAt d 1 3 && zeroAt d 11 5 && zeroAt d 48 16) = true → fieldAt d 10 1 / 16 % 8 = 0 → fieldAt d 8 2 < p.entries.length →
    let inj := fieldAt d 10 1
    ∀ tb : Option Table, (bitOf inj 7 = false ∧ tb = none ∨ bitOf inj 7 = true ∧ p.table (inj % 16) = tb ∧ ∃ x, tb = some x ∧ x.op = false) →
    ∃ t ru, exec (.run r) s = .next t ∧ t.run = some ru ∧ ru.cmd = s.cmdId ∧ ru.entry = fieldAt d 8 2 ∧ ru.inj = tb.map (fun x => x.ut) ∧
      ru.units = (tb.map (fun x => x.count)).getD 0 ∧ ru.args = (List.range 4).map (fun i => BitVec.ofNat 64 (fieldAt d (16 + 8 * i) 8)) ∧
      ru.cond = 0 ∧ t.prog = s.prog ∧ (∀ a, t.byteAt a = s.byteAt a) ∧
      ∀ c, c < 160 → s.fuse.active c = true → (t.core c).issuing = true ∧ (t.core c).ended = false ∧ (t.core c).sched = 0 ∧ (t.core c).stepNo = 0 ∧
        (t.core c).stopped = (if (s.core c).stopped.isSome ∨ s.hold.raising = true then some 0 else none) ∧
        (t.core c).pc = p.entries.getD (fieldAt d 8 2) 0 ∧ (t.core c).sregs = [] ∧ (t.core c).streams = [] ∧ (t.core c).loops = [] ∧
        (t.core c).pail = (s.core c).pail ∧ (t.core c).acc = (s.core c).acc ∧ (t.core c).sems = (s.core c).sems) ∧
  (∀ (r : Nat) (d : Desc) (s : State), Offered s r .run d →
    (zeroAt d 1 3 && zeroAt d 11 5 && zeroAt d 48 16) = true → fieldAt d 10 1 / 16 % 8 = 0 →
    let inj := fieldAt d 10 1
    ∀ status : Nat,
      (s.prog = none ∧ status = 6 ∨
        ∃ p, s.prog = some p ∧ status = 1 ∧ (p.entries.length ≤ fieldAt d 8 2 ∨
          bitOf inj 7 = true ∧ (p.table (inj % 16) = none ∨ ∃ x, p.table (inj % 16) = some x ∧ x.op = true))) →
      ∃ t : State, exec (.run r) s = .next (t.complete s.cmdId [status] (detailOf [(8, 0), (4, 0), (2, 0xFFFF)])) ∧ t.run = s.run ∧ t.prog = s.prog ∧
        (∀ a, t.byteAt a = s.byteAt a) ∧
        ∀ c, c < 160 → t.core c = { s.core c with injq := (t.core c).injq } ∧
          (s.fuse.active c = true → ∀ i ∈ (t.core c).injq, i.forNext = false)) ∧
  ∀ (s : State) (ru : RunState), s.clk.lost = false → s.run = some ru → ru.restart = false → ru.cut = false →
    ((∀ c ∈ s.fuse.ring, (s.core c).ended = true ∧ (s.core c).drained = true) → s.runRemote = false →
      ∃ (t : State) (count core : Nat), exec .runCompletion s = .next (t.complete ru.cmd (runStatuses (s.conditions ru) ru.remote)
          (detailOf [(8, count), (4, s.conditions ru), (2, core)])) ∧
        (∀ n, ru.endCount = some n → count = n) ∧ (∀ c, ru.firstCore = some c → core = c) ∧
        (ru.firstCore = none → (∀ c, c < 160 → (s.core c).cond = 0) → core = 0xFFFF) ∧
        (ru.firstCore = none → ∀ c, c < 160 → (s.core c).cond ≠ 0 → (∀ x, x < c → (s.core x).cond = 0) → core = c) ∧
        t.run = none ∧ t.cmds = s.cmds ∧ t.gsems = s.gsems ∧ (∀ a, t.byteAt a = s.byteAt a) ∧
        ∀ c, c < 160 → s.fuse.active c = true → (t.core c).issuing = false ∧ (t.core c).pail = (s.core c).pail ∧ (t.core c).acc = (s.core c).acc) ∧
    ((∃ c ∈ s.fuse.ring, (s.core c).ended = false ∨ (s.core c).drained = false) → exec .runCompletion s = .next s)

/-- Binds, re-placements and context switches: a refused one changes nothing but its record, an accepted one begins a context change;
    the change ends with the new program and seed in force, the semaphores at 0, and the accumulators kept. -/
def Obligations.ContextsChange : Prop :=
  (∀ (r : Nat) (d : Desc) (s : State), Offered s r .bind d → s.bindWaits d = false →
    let u := delivered s r d
    (bindFieldsOk d = false → exec (.bindProgram r) s = .next (u.complete s.cmdId [1] (bindDetail noItem 0 0))) ∧
    (∀ e, bindFieldsOk d = true → (u.planBind d false).2 = .error e → ∃ t : State, exec (.bindProgram r) s = .next (t.complete s.cmdId [e.1] (bindDetail e.2 0 0)) ∧
      t.prog = s.prog ∧ t.ctx = s.ctx ∧ ∀ a, t.byteAt a = s.byteAt a) ∧
    (∀ p, bindFieldsOk d = true → (u.planBind d false).2 = .ok (some p) → ∃ t x, exec (.bindProgram r) s = .next t ∧ t.ctx = some x ∧ x.kind = 0 ∧
      x.cmd = s.cmdId ∧ x.seed = BitVec.ofNat 64 (fieldAt d 56 8) ∧ x.prog = some (p.prog (bitOf (fieldAt d 42 1) 0)) ∧ t.prog = s.prog ∧
      ∀ a, t.byteAt a = s.byteAt a)) ∧
  (∀ (r : Nat) (d : Desc) (s : State), Offered s r .replace d → bindFieldsOk d = true → s.bindWaits d = false →
    (∀ e, ((delivered s r d).planBind d true).2 = .error e → ∃ t : State, exec (.rePlacement r) s = .next (t.complete s.cmdId [e.1] (bindDetail e.2 0 0)) ∧
      t.prog = s.prog ∧ t.replacing = s.replacing ∧ ∀ a, t.byteAt a = s.byteAt a) ∧
    (∀ p, ((delivered s r d).planBind d true).2 = .ok p → ∃ t, exec (.rePlacement r) s = .next t ∧ t.replacing = some s.cmdId ∧ t.prog = s.prog ∧
      ∀ a, t.byteAt a = s.byteAt a)) ∧
  (∀ (s : State) (id : Nat) (c : Cmd), s.clk.lost = false → s.replacing = some id → s.cmd id = some c →
    (s.atBoundary = false → exec .placementAtBoundary s = .next s) ∧
    (∀ e, s.atBoundary = true → s.changeHolds = false → s.bindWaits c.desc = false → (s.planBind c.desc false).2 = .error e →
      ∃ t : State, exec .placementAtBoundary s = .next (t.complete id [e.1] (bindDetail e.2 0 0)) ∧ t.replacing = none ∧ t.prog = s.prog ∧
        ∀ a, t.byteAt a = s.byteAt a) ∧
    (∀ p, s.atBoundary = true → s.changeHolds = false → s.bindWaits c.desc = false → (s.planBind c.desc false).2 = .ok (some p) →
      ∃ t x, exec .placementAtBoundary s = .next t ∧ t.replacing = none ∧ t.ctx = some x ∧ x.kind = 1 ∧ x.cmd = id ∧ t.prog = s.prog)) ∧
  (∀ (r : Nat) (d : Desc) (s : State), Offered s r .switch_ d → (zeroAt d 1 3 && zeroAt d 16 48) = true →
    (s.prog = none → exec (.contextSwitch r) s = .next ((delivered s r d).complete s.cmdId [6] (detailOf [(8, 0)]))) ∧
    (∀ p, s.prog = some p → ∃ t x, exec (.contextSwitch r) s = .next t ∧ t.ctx = some x ∧ x.kind = 2 ∧ x.cmd = s.cmdId ∧
      x.seed = BitVec.ofNat 64 (fieldAt d 8 8) ∧ t.prog = s.prog ∧ ∀ a, t.byteAt a = s.byteAt a)) ∧
  ∀ (s : State) (x : Ctx), s.clk.lost = false → s.ctx = some x →
    (x.stepDown ≠ 1 → s.beginContext.quiet = true → s.changeHolds = false → (∀ u, (s.unit u).quiesce = false) → ∃ t, exec .contextStart s = .next t ∧ t.ctx = none ∧ t.seed = x.seed ∧ t.gsems = [] ∧
      t.prog = (if x.kind = 2 then s.prog else x.prog) ∧ (x.kind = 2 → x.writes = [] → ∀ a, t.byteAt a = s.byteAt a) ∧
      ∀ c, c < 160 → s.fuse.active c = true → (t.core c).sems = [] ∧ (t.core c).pail = [] ∧ (t.core c).masks = [] ∧ (t.core c).vl = 128 ∧
        (t.core c).genAge = 0 ∧ (t.core c).acc = (s.core c).acc) ∧
    (x.stepDown ≠ 1 → s.beginContext.quiet = false → exec .contextStart s = .next s) ∧
    (x.stepDown = 1 → s.mixed = false → s.clk.change = none → s.clk.ecfPend = none → ∃ t, exec .contextStart s = .next t ∧
      t.clk.change = some { step := 1, cfg := 1, n := s.epoch + 65536, hw := true } ∧ t.ctx = some { x with stepDown := 0 } ∧ t.prog = s.prog)

/-! ### Copies, jobs, tables -/

/-- Ladle copies, ingest jobs, epochs, Press jobs and group tables of the host: accepted as their own rules say, or completed at once with
    the reason. -/
def Obligations.CopiesJobsAndTables : Prop :=
  (∀ (r : Nat) (d : Desc) (s : State), Offered s r .ladle d → (zeroAt d 1 3 && zeroAt d 10 6 && zeroAt d 24 40) = true →
    let c := fieldAt d 8 1
    let q := fieldAt d 9 1
    let a := fieldAt d 16 8
    c < 160 → q < 8 → a < 2 ^ 52 → a % 128 = 0 → s.waits a = false →
    (s.fuse.active c = false → exec (.ladleCopy r) s = .next ((delivered s r d).complete s.cmdId [2] (detailOf [(8, 0), (4, 0)]))) ∧
    (s.fuse.active c = true → s.queueOwner c q ≠ 1 → ∃ t : State, exec (.ladleCopy r) s = .next (t.complete s.cmdId [1] (detailOf [(8, 0), (4, 0)])) ∧
      bitOf (t.core c).ladleErr (8 + q) = true ∧ (t.core c).ladle = (s.core c).ladle ∧ ∀ x, t.byteAt x = s.byteAt x) ∧
    (s.fuse.active c = true → s.queueOwner c q = 1 → s.rangeOkDev false a (a + 127) = true → s.anyBad a 128 = false →
      ∃ (t : State) (x : Transfer), exec (.ladleCopy r) s = .next t ∧
        (Sparse.get {} (t.core c).ladle q).waiting = (Sparse.get {} (s.core c).ladle q).waiting ++ [x] ∧ x.by_ = .host ∧ x.cmd = s.cmdId ∧
        x.desc = ladleDesc (s.bytesAt a 128) ∧ (∀ p, p ≠ q → Sparse.get {} (t.core c).ladle p = Sparse.get {} (s.core c).ladle p) ∧
        ∀ x, t.byteAt x = s.byteAt x)) ∧
  (∀ (r : Nat) (d : Desc) (s : State), Offered s r .ingest d →
    (ingestFieldsOk d = false → exec (.ingestJob r) s = .next ((delivered s r d).complete s.cmdId [1] [])) ∧
    (ingestFieldsOk d = true → s.clk.enCrm = 0 → exec (.ingestJob r) s = .next ((delivered s r d).complete s.cmdId [4] [])) ∧
    (ingestFieldsOk d = true → s.clk.enCrm ≠ 0 → exec (.ingestJob r) s = .next { delivered s r d with ingestQ := s.ingestQ ++ [s.cmdId] })) ∧
  (∀ (r : Nat) (d : Desc) (s : State), Offered s r .stirrer d → (∀ c ∈ s.cmds, c.id ≠ s.cmdId) → (zeroAt d 1 3 && zeroAt d 36 28) = true →
    fieldAt d 32 4 ≠ 0 → fieldAt d 24 8 % 64 = 0 → fieldAt d 24 8 < 2 ^ 52 →
    let u : State := { delivered s r d with epochQueue := s.epochQueue ++ [s.cmdId] }
    (s.epochCmd.isSome → exec (.stirrerEpoch r) s = .next u) ∧
    (s.epochCmd = none → s.epochQueue = [] → u.stirWaits d = true → exec (.stirrerEpoch r) s = .next u) ∧
    (∀ x, s.epochCmd = none → s.epochQueue = [] → u.stirWaits d = false → (u.stirStart s.cmdId d).2 = .error x → ∃ t : State,
      exec (.stirrerEpoch r) s = .next { (t.complete s.cmdId [x] (detailOf [(4, 0), (4, 0)])) with epochQueue := [] } ∧ ∀ a, t.byteAt a = s.byteAt a) ∧
    (∀ x, s.epochCmd = none → s.epochQueue = [] → u.stirWaits d = false → (u.stirStart s.cmdId d).2 = .ok x → ∃ t : State,
      exec (.stirrerEpoch r) s = .next t ∧ t.epochCmd = some x ∧ t.epochQueue = [] ∧ ∀ a, t.byteAt a = s.byteAt a)) ∧
  (∀ (r : Nat) (par : List Nat) (d : Desc) (s : State), Offered s r .press d → (∀ x ∈ s.press.jobs, x.cmd ≠ s.cmdId) →
    let u := delivered s r d
    let j := { jobOf d s.cmdId with par := par }
    (u.pressRefusals d j ≠ [] → exec (.pressJob ⟨r, par⟩) s = .next (u.complete s.cmdId (u.pressRefusals d j) (j.detail 0 0 false))) ∧
    (u.pressRefusals d j = [] → bitOf (fieldAt d 12 2) 10 = true →
      exec (.pressJob ⟨r, par⟩) s = .next { u with press := { u.press with jobs := s.press.jobs ++ [j] } }) ∧
    (u.pressRefusals d j = [] → bitOf (fieldAt d 12 2) 10 = false → s.pressEngines = [] → ∃ t : State,
      exec (.pressJob ⟨r, par⟩) s = .next (t.complete s.cmdId [4] (j.detail 0 0 false)) ∧ t.press.jobs = s.press.jobs ∧ ∀ a, t.byteAt a = s.byteAt a) ∧
    (u.pressRefusals d j = [] → bitOf (fieldAt d 12 2) 10 = false → s.pressEngines ≠ [] →
      exec (.pressJob ⟨r, par⟩) s = .next (State.pressStart { u with press := { u.press with jobs := s.press.jobs ++ [j] } } s.cmdId))) ∧
  (∀ (r : Nat) (d : Desc) (s : State), Offered s r .groupLoad d → (∀ c ∈ s.cmds, c.id ≠ s.cmdId) →
    (zeroAt d 1 3 && zeroAt d 10 2 && zeroAt d 20 4 && zeroAt d 32 16 && zeroAt d 48 16) = true →
    let g := fieldAt d 9 1
    let p := fieldAt d 16 2
    let a := fieldAt d 24 8
    let ring := listOf (s.bytesAt a (2 * p)) p
    g ≤ 15 → 1 ≤ p → p ≤ 16384 → fieldAt d 18 2 < p → a % 32 = 0 → a < 2 ^ 52 →
    ((∃ j ∈ s.press.jobs, j.group = g) → exec (.pressGroupTableLoad r) s = .next ((delivered s r d).block s.cmdId)) ∧
    ((∀ j ∈ s.press.jobs, j.group ≠ g) → s.waitsRange a (2 * p) = false → s.rangeOkDev false a (a + 2 * p - 1) = true → s.anyBad a (2 * p) = false →
      (∀ x ∈ ring, x < 2 ^ 14) → allDiff ring = true → ring.getD (fieldAt d 18 2) 0 = s.grbSelf → ∃ t : State,
      exec (.pressGroupTableLoad r) s = .next (t.complete s.cmdId [] (detailOf [(4, fieldAt d 12 4), (2, p), (2, fieldAt d 18 2)])) ∧
      t.group g = { valid := true, gen := fieldAt d 12 4, p := p, ring := ring, self := fieldAt d 18 2 } ∧
      (∀ i, i ≠ g → t.group i = s.group i) ∧ ∀ x, t.byteAt x = s.byteAt x)) ∧
  ∀ (r : Nat) (d : Desc) (s : State), Offered s r .shardLoad d → (∀ c ∈ s.cmds, c.id ≠ s.cmdId) →
    (zeroAt d 1 3 && zeroAt d 9 1 && zeroAt d 10 2 && zeroAt d 12 8 && zeroAt d 20 4 && zeroAt d 24 8 && zeroAt d 48 16) = true →
    (∀ i, i < 4 → 1 ≤ fieldAt d (32 + 4 * i) 2 ∧ fieldAt d (32 + 4 * i) 2 ≤ 16384 ∧ fieldAt d (34 + 4 * i) 2 < fieldAt d (32 + 4 * i) 2) →
    s.replacing = none → (∀ x, s.ctx = some x → x.kind = 2) → ∃ t : State, exec (.shardGroupTableLoad r) s = .next (t.complete s.cmdId [] []) ∧
      t.shard = (List.range 4).map (fun i => (fieldAt d (32 + 4 * i) 2, fieldAt d (34 + 4 * i) 2)) ∧
      t.prog = s.prog.map (fun p => { p with shardLoaded := true }) ∧ ∀ x, t.byteAt x = s.byteAt x

/-! ### Calibration, tests, gauges, the deadlock detector -/

/-- Calibration-and-test commands: their checks, what their ends do to the record, to memory and to the test's state; the hourly
    sample never makes a TOP faster; the deadlock detector counts and dates its finding. -/
def Obligations.CalibrationTestsAndDetectors : Prop :=
  (∀ (r : Nat) (d : Desc) (s : State), Offered s r .calRead d →
    ((calZero d false && calAddr d) = false → exec (.calRead r) s = .next ((delivered s r d).complete s.cmdId [1] (calDetail 0 0))) ∧
    ((calZero d false && calAddr d) = true → 0 < fieldAt d 28 4 → fieldAt d 28 4 % 32 = 0 → fieldAt d 24 4 + fieldAt d 28 4 ≤ 0x400000 →
      exec (.calRead r) s = .next (if s.rangeOkDev false (fieldAt d 16 8) (fieldAt d 16 8 + fieldAt d 28 4 - 1) then delivered s r d
        else (delivered s r d).complete s.cmdId [2] (calDetail 0 0)))) ∧
  (∀ (r : Nat) (d : Desc) (s : State), Offered s r .calWrite d →
    ((calZero d false && calAddr d) = false → exec (.calWrite r) s = .next ((delivered s r d).complete s.cmdId [1] (calDetail 0 0))) ∧
    ((calZero d false && calAddr d) = true → 0 < fieldAt d 28 4 → fieldAt d 28 4 % 4096 = 0 → 0 < fieldAt d 24 4 → fieldAt d 24 4 % 4096 = 0 →
      fieldAt d 24 4 + fieldAt d 28 4 ≤ 0x400000 →
      exec (.calWrite r) s = .next (if s.rangeOkDev false (fieldAt d 16 8) (fieldAt d 16 8 + fieldAt d 28 4 - 1) then delivered s r d
        else (delivered s r d).complete s.cmdId [2] (calDetail 0 0)))) ∧
  (∀ (r : Nat) (d : Desc) (s : State), Offered s r .gauge d → exec (.gaugeSample r) s =
    .next (if zeroAt d 1 3 && zeroAt d 9 55 then delivered s r d else (delivered s r d).complete s.cmdId [1] (calDetail 0 0))) ∧
  (∀ (r : Nat) (d : Desc) (s : State), Offered s r .loopback d → (calZero d true && zeroAt d 16 12) = true → 0 < fieldAt d 28 4 → fieldAt d 28 4 % 32 = 0 →
    loopFields (fieldAt d 9 1) (fieldAt d 10 2) (fieldAt d 12 1) = true → (fieldAt d 9 1 = 4 → s.fuse.active (fieldAt d 10 2) = true) →
    (s.loopOk (fieldAt d 9 1) (fieldAt d 10 2) (fieldAt d 12 1) = false →
      exec (.loopback r) s = .next ((delivered s r d).complete s.cmdId [0x62] (calDetail 0 0))) ∧
    (s.loopOk (fieldAt d 9 1) (fieldAt d 10 2) (fieldAt d 12 1) = true → ∃ t x, exec (.loopback r) s = .next t ∧ t.loopTest = some x ∧ x.cmd = s.cmdId ∧
      x.target = fieldAt d 9 1 ∧ x.unit = fieldAt d 10 2 ∧ x.lost = [] ∧ t.lbStatus = none ∧ ∀ a, t.byteAt a = s.byteAt a)) ∧
  (∀ (i : Nat) (s : State) (x : LoopTest), s.clk.lost = false → s.loopTest = some x → i < x.len → i ∉ x.lost →
    exec (.loopbackByteTimeout i) s = .next { s with loopTest := some { x with lost := x.lost ++ [i] } }) ∧
  (∀ (bad : Option Nat) (back : List Byte) (lane : Nat) (drifts temps : List Nat) (s : State) (c : Cmd), s.clk.lost = false →
    s.cmds.find? (fun c => fieldAt c.desc 0 1 == 0x0A && c.ended.isNone) = some c →
    let a := fieldAt c.desc 16 8
    let off := fieldAt c.desc 24 4
    let len := fieldAt c.desc 28 4
    (rowOf c.desc = some .calRead → s.waitsRange a len = false → inHost a = false → ∃ t : State,
      exec (.calibrationTestOperationEnd bad back lane drifts temps) s = .next (t.complete c.id [] (calDetail len 0)) ∧
      ∀ x, t.byteAt x = if a ≤ x ∧ x < a + len then Sparse.get 0 s.flash (off + (x - a)) else s.byteAt x) ∧
    (rowOf c.desc = some .calWrite → s.waitsRange a len = false → s.anyBad a len = false → bad = none → ∃ t : State,
      exec (.calibrationTestOperationEnd bad back lane drifts temps) s = .next (t.complete c.id [] (calDetail len 0)) ∧
      (∀ i, Sparse.get 0 t.flash i = if off ≤ i ∧ i < off + len then s.byteAt (a + (i - off)) else Sparse.get 0 s.flash i) ∧
      ∀ x, t.byteAt x = s.byteAt x) ∧
    (rowOf c.desc = some .gauge → exec (.calibrationTestOperationEnd bad back lane drifts temps) s =
      .next ((s.gaugeSample drifts temps).complete c.id [] (calDetail 0 0))) ∧
    (rowOf c.desc = some .loopback → ∀ x, s.loopTest = some x → x.cmd = c.id → back.length = x.len →
      (back = x.sent len → x.lost = [] → ∃ t : State, exec (.calibrationTestOperationEnd bad back lane drifts temps) s =
        .next (t.complete c.id [] (calDetail x.len 0)) ∧ t.loopTest = none) ∧
      ((∃ i, i < x.len ∧ (back.getD i 0 ≠ (x.sent len).getD i 0 ∨ i ∈ x.lost)) → ∃ (t : State) (n : Nat),
        exec (.calibrationTestOperationEnd bad back lane drifts temps) s = .next (t.complete c.id [0x61] (calDetail x.len n)) ∧ 0 < n ∧
        t.loopTest = none ∧ t.lbStatus.isSome))) ∧
  (∀ (drifts temps : List Nat) (s : State), s.clk.lost = false → s.boot.done = true →
    ∃ t, exec (.hourlyGaugeSample drifts temps) s = .next t ∧ t.clk.gaugeEpoch = s.epoch ∧ (∀ a, t.byteAt a = s.byteAt a) ∧
      ∀ r, r < 16 → (t.region r).drift = min (drifts.getD r 0) 4095 ∧
        (t.region r).top = max (s.region r).top (min ((s.region r).gauge (min (drifts.getD r 0) 4095)) 5)) ∧
  ∀ s : State, s.clk.lost = false →
    (s.dldDue = false → exec .deadlockDetectorFire s = .next s) ∧
    (s.dld.en = true → s.dld.quiet = false → s.pendingWork = true → 2 ^ s.dld.k < s.noProgress → s.mayPass = false ∧
      ∃ t, exec .deadlockDetectorFire s = .next t ∧ t.epoch = s.epoch ∧ t.dld.fired = true ∧ t.dld.snap = s.dldSnap ∧
        t.dld.fires = min (s.dld.fires + 1) 0xFFFF ∧ t.dldDue = false ∧ ∀ a, t.byteAt a = s.byteAt a)

/-! ### Griby: ports, lanes, messages -/

/-- No job of the Press on the device has the byte at a in its destination. -/
def Sys2Proof.Claims.NoJobAt (s : State) (a : Nat) : Prop :=
  ∀ j ∈ s.press.jobs, a < j.dst ∨ j.dst + j.nb * lineBytes j.dstFmt ≤ a

/-- Slots and items that come on a port: what is not in service, not of an awaited replay or received before is not taken and changes
    nothing; the rest counts as received in order. -/
def Sys2Proof.Claims.ArrivalsAreTakenInOrder : Prop :=
  (∀ (x : Rx) (s : State) (i : Nat), s.portUp x.port = true → ((s.port x.port).rxNak = false ∨ x.again = true) → i ≤ 128 →
    x.seq % 256 = ((s.port x.port).rxSeq + i + 255) % 256 →
    s.arrive x = some (s.setPort x.port { s.port x.port with
      rxSeq := ((s.port x.port).rxSeq + i) % 256, rxNak := false, credited := (s.port x.port).credited && i == 0 })) ∧
  (∀ (x : Rx) (s : State), s.portUp x.port = false ∨ ((s.port x.port).rxNak = true ∧ x.again = false) ∨
    (∃ i, 1 < i ∧ i < 128 ∧ (x.seq + i) % 256 = (s.port x.port).rxSeq % 256) → s.arrive x = none) ∧
  ∀ (x : Rx) (s : State), s.arrive x = none → ∀ (whey : Bool) (count seq kind hops dst src incarn len tag addr arg port : Nat) (body : List Byte),
    ∀ c ∈ [Instr.creditItem x whey count, .laneAck x seq, .nakItem x seq, .headerItem x kind hops dst src incarn len tag addr arg,
        .identityItem x src incarn port, .uncorrectableCodeword x, .writeMsg x body, .semMsg x hops dst src incarn tag arg,
        .ackMsg x hops dst src incarn tag arg, .grantMsg x hops dst src incarn tag addr arg, .abortMsg x hops dst src incarn tag addr arg,
        .returnMsg x hops dst src incarn tag addr arg body, .skimMsg x hops dst src incarn tag addr arg body], exec c s = .next s

/-- A port's life: asked for it trains, up it counts from 0 with its credits and sends its identity in the control-lane bits of idle slots,
    failed or down it loses its slots; where its clock is the reference, that is lost. -/
def Sys2Proof.Claims.PortsComeAndGo : Prop :=
  (∀ (n value : Nat) (s : State), s.portOn n = true → s.testOn 0 n = false →
    (value % 2 = 1 → (s.port n).upReq = false → (s.port n).state = 0 → s.grbSelfValid = true →
      exec (.portUpRequest n value) s = .next (s.setPort n { s.port n with
        laneInv := value / 2 ^ 8 % 2 ^ 8, upReq := true, want := false, state := 1, failCause := 0 })) ∧
    (value % 2 = 0 → (s.clk.refSrc = true → s.clk.refPort ≠ n) → (s.clk.useSrc = true → s.clk.usePort ≠ n) →
      ∃ t, exec (.portDownRequest n value) s = .next t ∧ t = { s with ports := t.ports } ∧ (∀ q, q ≠ n → t.port q = s.port q) ∧ (t.port n).state = 0 ∧
        (t.port n).upReq = false ∧ (t.port n).wheyq = [] ∧ (t.port n).outq = [] ∧ (t.port n).lane = [] ∧ (t.port n).replay = [] ∧ (t.port n).headers = [])) ∧
  (∀ (n rtt : Nat) (s : State), s.clk.lost = false → n < 24 → (s.port n).state = 1 →
    ∃ t, exec (.linkUp n rtt) s = .next t ∧ t = { s with ports := t.ports, outbox := t.outbox } ∧
      (∀ q, q ≠ n → t.port q = s.port q) ∧ (t.port n).state = 2 ∧ (t.port n).rtt = min rtt 255 ∧ (t.port n).far = none ∧
      (t.port n).rxSeq = 0 ∧ (t.port n).creditBulk = 1024 ∧ (t.port n).creditWhey = 2 ∧ (t.port n).wheyq = [] ∧ (t.port n).outq = [] ∧
      (t.portUp n = true → (t.port n).lane = [] ∧ (t.port n).txSeq = 8 ∧ (t.port n).replay.map Prod.fst = List.range 8 ∧
        t.outbox = s.outbox ++ (List.range 8).map (fun i => .slot n i false (GSlot.bytes s.free i ⟨false, none, 0, 0⟩))
          ++ [.item n (.identity s.grbSelf s.incarn n)])) ∧
  (∀ (n cause : Nat) (s : State), s.clk.lost = false → ((s.port n).state = 1 ∧ cause = 4 ∨ (s.port n).state = 2 ∧ 1 ≤ cause ∧ cause ≤ 3) →
    ∃ t, exec (.linkFailure n cause) s = .next t ∧ (t.port n).state = 3 ∧ (t.port n).failCause = cause ∧ (t.port n).wheyq = [] ∧ (t.port n).outq = [] ∧
      (t.port n).replay = [] ∧ t.clk.lost = s.onReference n ∧ ∀ a, Claims.NoJobAt s a → t.byteAt a = s.byteAt a) ∧
  ∀ (value : Nat) (s : State), s.regAlive = true → ∃ t, exec (.reflect value) s = .next t ∧
    t = { s with ports := t.ports, reflect := t.reflect, clk := { s.clk with lost := t.clk.lost } } ∧ (t.clk.lost = true → ∃ n, n < 24 ∧ s.onReference n = true) ∧
    ∀ n, n < 24 → (bitOf t.reflect n = true → bitOf value n = true) ∧ (bitOf s.reflect n = true → bitOf value n = false → (t.port n).state = 0) ∧
      ((s.port n).state = 2 → (s.clk.refSrc = true → s.clk.refPort ≠ n) → (s.clk.useSrc = true → s.clk.usePort ≠ n) → bitOf t.reflect n = bitOf value n)

/-- The control lane of a port in service: credits are applied once a slot, acks free the replay buffer, a nak sends again from its slot and
    fails the link after 16 replays without progress, a header announces a bulk message, an identity is recorded; after an uncorrectable
    codeword the slots from the next one on are asked for again. -/
def Sys2Proof.Claims.ControlLaneActs : Prop :=
  (∀ (x : Rx) (count : Nat) (whey : Bool) (s u : State), s.clk.lost = false → s.arrive x = some u → count < 2048 →
    let p := u.port x.port
    (p.credited = true → exec (.creditItem x whey count) s = .next u) ∧
    (p.credited = false → p.wheyq = [] → p.outq = [] → p.lane = [] →
      exec (.creditItem x whey count) s = .next (u.setPort x.port (if whey then { p with creditWhey := p.creditWhey + count, credited := true }
        else { p with creditBulk := p.creditBulk + count, credited := true })))) ∧
  (∀ (x : Rx) (seq : Nat) (s u : State), s.clk.lost = false → s.arrive x = some u →
    let p := u.port x.port
    (∃ e ∈ p.replay, e.1 = seq) →
    ∃ t, exec (.laneAck x seq) s = .next t ∧ t = { u with ports := t.ports, outbox := t.outbox } ∧ (∀ q, q ≠ x.port → t.port q = u.port q) ∧
      (t.port x.port).lastAck = seq ∧ ∃ before e after more, p.replay = before ++ e :: after ∧ e.1 = seq ∧ (∀ y ∈ before, y.1 ≠ seq) ∧
        (t.port x.port).replay = after ++ more ∧ (p.wheyq = [] → p.outq = [] → p.lane = [] → more = [])) ∧
  (∀ (x : Rx) (seq : Nat) (s u : State), s.clk.lost = false → s.arrive x = some u →
    let p := u.port x.port
    let made := if p.replayFrom = some seq then p.replays else 0
    (∃ e ∈ p.replay, e.1 = seq) →
    ∃ t, exec (.nakItem x seq) s = .next t ∧ (∀ a, Claims.NoJobAt s a → t.byteAt a = s.byteAt a) ∧
      (made < 16 → (t.port x.port).replays = made + 1 ∧ (t.port x.port).replayFrom = some seq ∧ (t.port x.port).replay = p.replay ∧
        t.outbox = s.outbox ++ (p.replay.dropWhile (fun e => e.1 != seq)).map (fun e => .slot x.port e.1 e.2.whey (GSlot.bytes s.free e.1 e.2))) ∧
      (16 ≤ made → (t.port x.port).state = 3 ∧ (t.port x.port).failCause = 1)) ∧
  (∀ (x : Rx) (kind hops dst src incarn len tag addr arg : Nat) (s u : State), s.clk.lost = false → s.arrive x = some u →
    ∃ t, exec (.headerItem x kind hops dst src incarn len tag addr arg) s = .next t ∧ (∀ a, Claims.NoJobAt s a → t.byteAt a = s.byteAt a) ∧
      (kind = 1 ∨ kind = 2 → t = { u with ports := t.ports } ∧ (∀ q, q ≠ x.port → t.port q = u.port q) ∧ ∃ m : Msg,
        (t.port x.port).headers = (s.port x.port).headers ++ [m] ∧ m.kind = kind ∧ m.dst = dst % 2 ^ 14 ∧ m.src = src % 2 ^ 14 ∧
        m.incarn = incarn % 2 ^ 16 ∧ m.tag = tag % 2 ^ 32 ∧ m.addr = addr % 2 ^ 64 ∧ m.arg = arg % 2 ^ 64 ∧ m.len = len % 2 ^ 32) ∧
      (kind ≠ 1 → kind ≠ 2 → (t.port x.port).state = 3 ∧ (t.port x.port).failCause = 3)) ∧
  (∀ (x : Rx) (self incarn port : Nat) (s u : State), s.clk.lost = false → s.arrive x = some u →
    (∃ t, exec (.identityItem x self incarn port) s = .next t ∧ t = { u with ports := t.ports, outbox := t.outbox } ∧
      (t.port x.port).far = some (self % 2 ^ 14, incarn % 2 ^ 16, port % 32) ∧ ∀ q, q ≠ x.port → (t.port q).far = (s.port q).far) ∧
    (s.peerPorts (self % 2 ^ 14) = [] → exec (.identityItem x self incarn port) s =
      .next (u.setPort x.port { u.port x.port with far := some (self % 2 ^ 14, incarn % 2 ^ 16, port % 32) }))) ∧
  ∀ (x : Rx) (s u : State), s.clk.lost = false → s.arrive x = some u → ∃ t, exec (.uncorrectableCodeword x) s = .next t ∧
    t = { u with ports := t.ports, outbox := t.outbox } ∧ (∀ q, q ≠ x.port → t.port q = u.port q) ∧ (t.port x.port).rxNak = true ∧
    (t.port x.port).rxSeq = (u.port x.port).rxSeq ∧ Sparse.get 0 (t.port x.port).cnt 3 = min (Sparse.get 0 (s.port x.port).cnt 3 + 1) (2 ^ 64 - 1) ∧
    ((u.port x.port).wheyq = [] → (u.port x.port).outq = [] → (u.port x.port).lane = [] → (u.port x.port).replay.length ≤ 62 →
      .item x.port (.nak (u.port x.port).rxSeq) ∈ t.outbox)

/-- A port takes slots in order, comes and goes as asked, trained or failed, and acts on the items of its control lane. -/
def Obligations.PortsAndLanes : Prop := Claims.ArrivalsAreTakenInOrder ∧ Claims.PortsComeAndGo ∧ Claims.ControlLaneActs

/-- WRITE, SEM and ACK messages that are for this device: the body of an admitted write leaves for its place in writes of at most 128 bytes, an
    admitted SEM changes its semaphore, a refused one changes none, one for another device goes on, an ACK ends its operation. -/
def Obligations.MessagesAct : Prop :=
  (∀ (x : Rx) (body : List Byte) (s u : State) (h : Msg) (rest : List Msg), s.clk.lost = false → s.arrive x = some u → (s.port x.port).headers = h :: rest →
    h.kind = 1 → h.len = body.length →
    let a := h.addr % 2 ^ 63
    let bytes := markAll (bitOf h.addr 63) body
    ((h.dst ≠ s.grbSelf ∨ h.incarn ≠ s.incarn ∨ bitOf s.grbCtl 0 = false) → ∃ t, exec (.writeMsg x body) s = .next t ∧ (t.port x.port).headers = rest ∧
      t.writesIn = s.writesIn ∧ (h.dst = s.grbSelf → t.mesh = s.mesh) ∧ ∀ y, t.byteAt y = s.byteAt y) ∧
    (h.dst = s.grbSelf → h.incarn = s.incarn → bitOf s.grbCtl 0 = true → 0 < body.length → body.length % 32 = 0 → body.length ≤ 65536 → a % 32 = 0 →
      a < 2 ^ 52 → s.writeRange a body.length = true →
      ∃ t id, exec (.writeMsg x body) s = .next t ∧ (t.port x.port).headers = rest ∧ (∀ y, t.byteAt y = s.byteAt y) ∧
        t.writesIn = s.writesIn ++ [(id, { h with body := [] }, (body.length + 127) / 128)] ∧
        t.mesh.map Prod.snd = s.mesh.map Prod.snd ++ (List.range ((body.length + 127) / 128)).map (fun i =>
          .write (.message id) (a + 128 * i) ((bytes.drop (128 * i)).take 128) false))) ∧
  (∀ (x : Rx) (hops dst src incarn tag arg : Nat) (s u : State), s.clk.lost = false → s.arrive x = some u →
    let idx := arg / 2 ^ 34 % 2 ^ 10
    let core := arg / 2 ^ 44 % 2 ^ 8
    let v := arg % 2 ^ 32
    let after : Nat → Nat := fun n => if bitOf arg 32 then n - v else min (n + v) (2 ^ 32 - 1)
    let mine := dst % 2 ^ 14 = s.grbSelf ∧ incarn % 2 ^ 16 = s.incarn ∧ bitOf s.grbCtl 0 = true ∧ s.switching = false ∧ s.restarting = false
    ((dst % 2 ^ 14 ≠ s.grbSelf ∨ incarn % 2 ^ 16 ≠ s.incarn ∨ bitOf s.grbCtl 0 = false ∨ (bitOf arg 33 = true ∧ core ≠ 255) ∨
        (bitOf arg 33 = false ∧ (159 < core ∨ 255 < idx))) →
      (dst % 2 ^ 14 = s.grbSelf → s.semStopped core = false) → ∃ t, exec (.semMsg x hops dst src incarn tag arg) s = .next t ∧ t.gsems = s.gsems ∧ t.cores = s.cores ∧ ∀ a, t.byteAt a = s.byteAt a) ∧
    (∀ out, dst % 2 ^ 14 ≠ s.grbSelf → bitOf s.grbCtl 1 = true → hops % 16 ≠ 0 → s.portFor idx (dst % 2 ^ 14) = some out →
      ∃ t m, exec (.semMsg x hops dst src incarn tag arg) s = .next t ∧ t.mesh = s.mesh ++ [(s.meshId, .fwd x.port out m)] ∧ m.kind = 0x10 ∧
        m.hops = hops % 16 - 1 ∧ m.dst = dst % 2 ^ 14 ∧ m.src = src % 2 ^ 14 ∧ m.incarn = incarn % 2 ^ 16 ∧ m.tag = tag % 2 ^ 32 ∧ m.arg = arg % 2 ^ 64) ∧
    (dst % 2 ^ 14 = s.grbSelf → s.semStopped core = true → exec (.semMsg x hops dst src incarn tag arg) s = .next s) ∧
    (mine → s.semStopped core = false → bitOf arg 33 = true → core = 255 → Sparse.get 0 s.gsems idx < 2 ^ 32 → netOf s.gsemNet idx = none →
      ∃ t, exec (.semMsg x hops dst src incarn tag arg) s = .next t ∧ (∀ a, t.byteAt a = s.byteAt a) ∧
        Sparse.get 0 t.gsems idx = after (Sparse.get 0 s.gsems idx) ∧ ∀ i, i ≠ idx → Sparse.get 0 t.gsems i = Sparse.get 0 s.gsems i) ∧
    (mine → s.semStopped core = false → bitOf arg 33 = false → s.fuse.active core = true → core < 160 → idx < 256 → Sparse.get 0 (s.core core).sems idx < 2 ^ 32 →
      netOf (s.core core).semNet idx = none →
      ∃ t, exec (.semMsg x hops dst src incarn tag arg) s = .next t ∧ (∀ a, t.byteAt a = s.byteAt a) ∧ t.gsems = s.gsems ∧
        Sparse.get 0 (t.core core).sems idx = after (Sparse.get 0 (s.core core).sems idx) ∧
        ∀ i, i ≠ idx → Sparse.get 0 (t.core core).sems i = Sparse.get 0 (s.core core).sems i)) ∧
  ∀ (x : Rx) (hops dst src incarn tag arg : Nat) (s u : State), s.clk.lost = false → s.arrive x = some u → dst % 2 ^ 14 = s.grbSelf →
    (incarn % 2 ^ 16 ≠ s.incarn → ∃ t, exec (.ackMsg x hops dst src incarn tag arg) s = .next t ∧ t.remote = s.remote ∧ t.writesOut = s.writesOut ∧
      ∀ a, t.byteAt a = s.byteAt a) ∧
    (∀ op, incarn % 2 ^ 16 = s.incarn → s.remote.find? (fun o => o.id % 2 ^ 32 == tag % 2 ^ 32 && !o.self && (o.peer == src % 2 ^ 14 || arg % 8 == 4)) = some op →
      ∃ t, exec (.ackMsg x hops dst src incarn tag arg) s = .next t ∧ t.remote = s.remote.filter (fun x => x.id != op.id) ∧
        t.writesOut = s.writesOut ∧ ∀ a, t.byteAt a = s.byteAt a)

/-! ### Press messages, triggers, ends -/

/-- A control message arrives at x and is for this device, under its incarnation. -/
def Sys2Proof.Claims.Arrives (s : State) (x : Rx) (dst incarn : Nat) : Prop :=
  s.clk.lost = false ∧ (∃ u, s.arrive x = some u) ∧ dst % 2 ^ 14 = s.grbSelf ∧ incarn % 2 ^ 16 = s.incarn

/-- The one Press job of the device runs and is the one that a lap message with header h is for; h is the next header of the port, and the
    next member is reachable. -/
def Sys2Proof.Claims.LapFor (s : State) (x : Rx) (lap : Nat) (h : Msg) (rest : List Msg) (j : PressJob) (block size : Nat) (body : List Byte) : Prop :=
  s.clk.lost = false ∧ (∃ u, s.arrive x = some u) ∧ (s.port x.port).headers = h :: rest ∧ h.kind = 2 ∧ h.len = size ∧ body.length = size ∧
    h.addr / 2 ^ 36 % 4 = lap ∧ h.dst = s.grbSelf ∧ h.incarn = s.incarn ∧ s.press.jobs = [j] ∧ s.press.old = [] ∧ j.armed = false ∧
    h.addr / 2 ^ 32 % 16 = j.group ∧ h.tag = j.tag ∧ h.addr % 2 ^ 32 = j.gen ∧
    (lap ≠ 3 → h.arg % 2 ^ 30 + 1 = j.nb ∧ h.arg / 2 ^ 30 % 2 = j.mode ∧ h.arg / 2 ^ 32 % 16 = j.skim) ∧ block < j.nb ∧
    j.chunk block = h.addr / 2 ^ 38 % 2 ^ 15 ∧ (lap ≠ 3 → s.chunkWaits j (j.chunk block) = false) ∧
    ((lap = 3 ∧ j.self = j.next (!j.up (j.chunk block)) (j.owner (j.chunk block))) ∨
      s.peerPorts (j.ring.getD (j.next (j.up (j.chunk block)) j.self) 0) ≠ [])

/-- Lap messages of one block: a larger scale code or a sum goes on, to wait for the next member's grant where there is none; a total is
    written to its place; a message of no running job changes no job and no memory; one for a source in a quiesced stack waits. -/
def Obligations.LapMessagesAct : Prop :=
  (∀ e ∈ [((Instr.scaleLapMessage : Rx → Nat → List Byte → Bool → Instr), 1), (.sumLapRecord, 2), (.resultLapRecord, 3)],
    ∀ (x : Rx) (block : Nat) (body : List Byte) (par : Bool) (s : State) (h : Msg) (rest : List Msg), s.clk.lost = false → (∃ u, s.arrive x = some u) →
    (s.port x.port).headers = h :: rest → h.kind = 2 → h.addr / 2 ^ 36 % 4 = e.2 → h.len = body.length →
    ((h.dst ≠ s.grbSelf ∨ h.incarn ≠ s.incarn ∨ ∀ j ∈ s.press.jobs, j.armed = true ∨ j.group ≠ h.addr / 2 ^ 32 % 16 ∨ j.tag ≠ h.tag) →
      (h.dst ≠ s.grbSelf ∨ e.2 = 3 ∨ ∀ j ∈ s.press.jobs, j.armed = true ∨ j.group ≠ h.addr / 2 ^ 32 % 16 ∨ j.tag ≠ h.tag ∨
        s.chunkWaits j (h.addr / 2 ^ 38 % 2 ^ 15) = false) →
      ∃ t, exec (e.1 x block body par) s = .next t ∧ (t.port x.port).headers = rest ∧ t.press.jobs = s.press.jobs ∧ (h.dst = s.grbSelf → t.mesh = s.mesh) ∧
        (∀ a, t.byteAt a = s.byteAt a) ∧
        (h.dst = s.grbSelf → h.incarn = s.incarn → e.2 ≠ 3 → Sparse.get 0 t.press.cnt 6 = min (Sparse.get 0 s.press.cnt 6 + 1) (2 ^ 64 - 1))) ∧
    (∀ j, s.press.jobs = [j] → j.armed = false → j.group = h.addr / 2 ^ 32 % 16 → j.tag = h.tag → h.dst = s.grbSelf → e.2 ≠ 3 →
      s.chunkWaits j (h.addr / 2 ^ 38 % 2 ^ 15) = true → exec (e.1 x block body par) s = .next s)) ∧
  (∀ (x : Rx) (block : Nat) (body : List Byte) (s : State) (h : Msg) (rest : List Msg) (j : PressJob), Claims.LapFor s x 1 h rest j block 1 body →
    let c := j.chunk block
    let peer := j.ring.getD (j.next (j.up c) j.self) 0
    j.self ≠ j.origin c → Sparse.get 0 s.press.grants peer = 0 → ∃ t m fl, exec (.scaleLapMessage x block body false) s = .next t ∧
      (t.port x.port).headers = rest ∧ t.press.waiting = s.press.waiting ++ [(peer, fl, m)] ∧ m.kind = 2 ∧ m.tag = j.tag ∧
      m.body = markAll false (leBytes 1 (max (body.getD 0 0).toNat (localCode (s.pressRead j block).1))) ∧ ∀ a, t.byteAt a = s.byteAt a) ∧
  (∀ (x : Rx) (block : Nat) (body : List Byte) (s : State) (h : Msg) (rest : List Msg) (j : PressJob), Claims.LapFor s x 2 h rest j block 260 body →
    let c := j.chunk block
    let peer := j.ring.getD (j.next (j.up c) j.self) 0
    let k := convert (leAt body 256 1) j.h (s.pressRead j block).1
    let sum : PressRec := { block := block, scale := k.1, headroom := leAt body 257 1
                            words := if k.1 = 255 then List.replicate 64 0
                              else (recOf block false body).words.zipWith (fun a b => int32 (a.toInt + b.toInt)) k.2.1 }
    j.mode = 0 → j.skim = 0 → j.skims = [] → j.p ≠ 1 → j.self ≠ j.owner c → Sparse.get 0 s.press.grants peer = 0 →
    ∃ t m fl, exec (.sumLapRecord x block body false) s = .next t ∧ (t.port x.port).headers = rest ∧ t.press.waiting = s.press.waiting ++ [(peer, fl, m)] ∧
      m.kind = 2 ∧ m.tag = j.tag ∧ m.body = markAll false (sum.bytes 0) ∧ ∀ a, t.byteAt a = s.byteAt a) ∧
  ∀ (x : Rx) (block : Nat) (body : List Byte) (par : Bool) (s : State) (h : Msg) (rest : List Msg) (j : PressJob),
    Claims.LapFor s x 3 h rest j block j.recSize body →
    let bad := bitOf h.addr 63 || par
    ∃ t id, exec (.resultLapRecord x block body par) s = .next t ∧ (t.port x.port).headers = rest ∧ (∀ a, t.byteAt a = s.byteAt a) ∧
      (id, Packet.write (.press j.cmd) (j.dst + block * lineBytes j.dstFmt) (markAll bad (packElems j.dstFmt (j.resultElems (recOf block bad body)))) false)
        ∈ t.mesh

/-- Control messages of Press jobs: grants add up, an abort fails its group and ends its jobs, a returned message is kept, a child's sum
    enters its tree. -/
def Sys2Proof.Claims.PressControlActs : Prop :=
  (∀ (x : Rx) (hops dst src incarn tag addr arg : Nat) (s : State), Claims.Arrives s x dst incarn → arg % 16 = 1 → s.press.waiting = [] →
    ∃ t, exec (.grantMsg x hops dst src incarn tag addr arg) s = .next t ∧ t.press.jobs = s.press.jobs ∧ (∀ a, t.byteAt a = s.byteAt a) ∧
      ∀ p, Sparse.get 0 t.press.grants p = Sparse.get 0 s.press.grants p + if p = src % 2 ^ 14 then arg / 2 ^ 4 % 2 ^ 32 else 0) ∧
  (∀ (x : Rx) (hops dst src incarn tag addr arg : Nat) (s : State), Claims.Arrives s x dst incarn → arg % 16 = 2 →
    let g := addr / 2 ^ 32 % 16
    (s.group g).valid = true → (s.group g).gen = addr % 2 ^ 32 → (g, addr % 2 ^ 32, tag % 2 ^ 32, arg / 2 ^ 4 % 2 ^ 16) ∉ s.press.aborts →
    ∃ t, exec (.abortMsg x hops dst src incarn tag addr arg) s = .next t ∧ (t.group g).failed = true ∧ (∀ j ∈ t.press.jobs, j.group ≠ g) ∧
      ∀ a, Claims.NoJobAt s a → t.byteAt a = s.byteAt a) ∧
  (∀ (x : Rx) (hops dst src incarn tag addr arg : Nat) (body : List Byte) (s : State) (j : PressJob), Claims.Arrives s x dst incarn → arg % 16 = 3 →
    s.press.jobs = [j] → j.armed = false → j.group = addr / 2 ^ 32 % 16 → j.tag = tag % 2 ^ 32 → j.gen = addr % 2 ^ 32 →
    ∃ t j' m, exec (.returnMsg x hops dst src incarn tag addr arg body) s = .next t ∧ t.press.jobs = [j'] ∧ j'.returned = j.returned ++ [m] ∧
      m.dst = src % 2 ^ 14 ∧ m.tag = j.tag ∧ m.addr = addr % 2 ^ 64 ∧ m.body = markAll false body ∧ ∀ a, t.byteAt a = s.byteAt a) ∧
  ∀ (x : Rx) (hops dst src incarn tag addr arg : Nat) (body : List Byte) (s : State) (j : PressJob) (y : SkimAcc), Claims.Arrives s x dst incarn → arg % 16 = 4 →
    let b := arg / 2 ^ 4 % 2 ^ 30
    s.press.jobs = [j] → s.press.old = [] → j.armed = false → j.group = addr / 2 ^ 32 % 16 → j.tag = tag % 2 ^ 32 → j.gen = addr % 2 ^ 32 →
    j.sampled b = true → b < j.nb → j.chunk b = addr / 2 ^ 38 % 2 ^ 15 → j.skims.find? (fun a => a.block == b) = some y → 2 ≤ y.left → y.words ≠ [] →
    y.scale ≠ 255 → leAt body 256 1 ≠ 255 →
    ∃ t j' z, exec (.skimMsg x hops dst src incarn tag addr arg body) s = .next t ∧ t.press.jobs = [j'] ∧
      j'.skims.find? (fun a => a.block == b) = some z ∧ z.left = y.left - 1 ∧ z.scale = y.scale ∧ z.headroom = y.headroom ∧
      z.words = y.words.zipWith (fun a b => int32 (a.toInt + b.toInt)) (recOf b false body).words ∧ ∀ a, t.byteAt a = s.byteAt a

/-- Ends of Press jobs: a returned message is sent again, or ends the job where its receiver is not reachable; a job that has been silent for
    2^t periods fails, no other does, and that time has passed; a finished one signals in a later cycle than its last acknowledgement; an
    armed one fires at its threshold. -/
def Sys2Proof.Claims.PressJobsFinish : Prop :=
  (∀ (cmd : Nat) (s : State) (j : PressJob), s.clk.lost = false → s.pressJob cmd = some j →
    (∀ m rest, j.returned = m :: rest → s.peerPorts m.dst ≠ [] → Sparse.get 0 s.press.grants m.dst = 0 → ∃ t j' fl, exec (.pressResend cmd) s = .next t ∧
      t.press.waiting = s.press.waiting ++ [(m.dst, fl, m)] ∧ t.pressJob cmd = some j' ∧ j'.returned = rest ∧ ∀ a, t.byteAt a = s.byteAt a) ∧
    (∀ m rest, j.returned = m :: rest → s.peerPorts m.dst = [] → ∃ t, exec (.pressResend cmd) s = .next t ∧ t.pressJob cmd = none ∧
      (t.group j.group).failed = true) ∧
    (s.periods0 < j.since + 2 ^ s.press.tmoExp → exec (.pressTimeout cmd) s = .next s) ∧
    (j.since + 2 ^ s.press.tmoExp ≤ s.periods0 → s.mayPass = false ∧
      ∃ t, exec (.pressTimeout cmd) s = .next t ∧ t.pressJob cmd = none ∧ (t.group j.group).failed = true ∧ bitOf t.press.err 3 = true ∧
        (∀ a, a < j.dst ∨ j.dst + j.nb * lineBytes j.dstFmt ≤ a → t.byteAt a = s.byteAt a) ∧
        ∀ b ∈ j.done, ∀ i, i < lineBytes j.dstFmt → t.byteAt (j.dst + b * lineBytes j.dstFmt + i) = s.byteAt (j.dst + b * lineBytes j.dstFmt + i)) ∧
    (j.written = j.nb → j.outst = 0 → j.compare = 0 → j.doneAt < s.epoch → s.sigStopped j.sig = false → ∃ t : State, exec (.pressJobComplete cmd) s = .next (t.complete cmd
        ((if j.poison then [5] else []) ++ (if j.mism ≠ 0 then [0x52] else [])) (j.detail 0 0 false)) ∧ t.pressJob cmd = none ∧
      Sparse.get 0 t.press.cnt 0 = min (Sparse.get 0 s.press.cnt 0 + 1) (2 ^ 64 - 1) ∧ (j.sig = none ∨ j.dropSignal = true → t.gsems = s.gsems) ∧
      (∀ c i v, j.sig = some (true, c, i, v) → j.dropSignal = false → Sparse.get 0 s.gsems i < 2 ^ 32 → netOf s.gsemNet i = none →
        Sparse.get 0 t.gsems i = min (Sparse.get 0 s.gsems i + v) (2 ^ 32 - 1)) ∧ ∀ a, t.byteAt a = s.byteAt a) ∧
    (j.written ≠ j.nb ∨ j.outst ≠ 0 ∨ j.compare ≠ 0 ∨ s.epoch ≤ j.doneAt ∨ s.sigStopped j.sig = true → exec (.pressJobComplete cmd) s = .next s)) ∧
  ∀ (s : State), s.clk.lost = false → s.replacing = none →
    ((∀ j ∈ s.press.jobs, j.armed = true → Sparse.get 0 s.gsems j.trigSem < j.thresh) → exec .triggerFire s = .next s) ∧
    (s.semStopped 255 = true → exec .triggerFire s = .next s) ∧
    ∀ j, s.semStopped 255 = false → s.press.jobs = [j] → j.armed = true → j.thresh ≤ Sparse.get 0 s.gsems j.trigSem →
      exec .triggerFire s = .next ((if j.consume then s.gsemConsume j.trigSem j.thresh else s).pressStart j.cmd) ∧
      (j.consume = true → j.thresh ≠ 0 → Sparse.get 0 s.gsems j.trigSem < 2 ^ 32 →
        Sparse.get 0 (s.gsemConsume j.trigSem j.thresh).gsems j.trigSem = Sparse.get 0 s.gsems j.trigSem - j.thresh)

/-- Control messages and ends of Press jobs. -/
def Obligations.PressJobsEnd : Prop := Claims.PressControlActs ∧ Claims.PressJobsFinish

/-! ### Creamery, Stirrer, check-value units -/

/-- Decode jobs, Stirrer batches and check-value feeds. -/
def Obligations.CreameryAndStirrerAct : Prop :=
  (∀ (par : Option Nat) (cut : Cut) (s : State) (id e : Nat) (rest : List Nat) (c : Cmd), s.clk.lost = false → s.ingestQ = id :: rest →
    s.freeEngine = some e → s.cmd id = some c →
    let a := fieldAt c.desc 32 8
    let p := profileOf (s.bytesAt a 256)
    (s.ingestWaits c.desc e = true → exec (.ingestJobAssign par cut) s = .next s) ∧
    (s.ingestWaits c.desc e = false → s.rangeOkDev false a (a + 255) = false → exec (.ingestJobAssign par cut) s =
      .next (State.complete { s with ingestQ := rest, noProgress := 0 } id [0x40] (({} : Ingest).detail e))) ∧
    (s.ingestWaits c.desc e = false → s.rangeOkDev false a (a + 255) = true → s.anyBad a 256 = false → profileFieldsOk (s.bytesAt a 256) = true →
      s.ingestRangesOk p c.desc e = true → p.clipBytes ≤ p.slot → s.cvReady p = true → s.anyBad p.filter 3072 = false →
      ∃ t, exec (.ingestJobAssign par cut) s = .next t ∧ t.ingestQ = rest ∧ (t.engine e).cmd = id ∧ (∀ f, f ≠ e → t.engine f = s.engine f) ∧
        ∀ x, (x < p.stage + e * p.stageBytes ∨ p.stage + (e + 1) * p.stageBytes ≤ x) → t.byteAt x = s.byteAt x)) ∧
  (∀ (e k : Nat) (s : State) (rest : List (Nat × Nat)), s.clk.lost = false → (s.engine e).clips = (k, 0) :: rest →
    (s.epoch ≤ (s.engine e).doneAt → exec (.clipSignal e) s = .next s) ∧
    ((s.engine e).doneAt < s.epoch → (s.engine e).sem = none ∨ s.semStopped 255 = false → ∃ t, exec (.clipSignal e) s = .next t ∧ (t.engine e) = { s.engine e with clips := rest } ∧ (∀ a, t.byteAt a = s.byteAt a) ∧
      ((s.engine e).sem = none → t.gsems = s.gsems) ∧
      ∀ i, (s.engine e).sem = some i → netOf s.gsemNet i = none → Sparse.get 0 t.gsems i = min (Sparse.get 0 s.gsems i + 1) (2 ^ 32 - 1))) ∧
  (∀ (e : Nat) (s : State), s.clk.lost = false →
    ((s.engine e).cmd ≠ 0 → (s.engine e).clips = [] → (s.engine e).auxOut = 0 →
      exec (.ingestJobComplete e) s = .next ((s.setEngine e {}).complete (s.engine e).cmd (s.engine e).found ((s.engine e).detail e))) ∧
    ((s.engine e).cmd = 0 ∨ (s.engine e).clips ≠ [] ∨ (s.engine e).auxOut ≠ 0 → exec (.ingestJobComplete e) s = .next s)) ∧
  (∀ (par : Bool) (s : State) (e : Epoch) (c : Cmd), s.clk.lost = false → s.epochCmd = some e → s.cmd e.cmd = some c →
    let t := e.targets.getD (e.credits % e.plan.nt) (0, 0, 0, 0, 0)
    let free := Sparse.get 0 (s.core t.1).sems t.2.2.2.1
    let n := min e.plan.per (fieldAt c.desc 32 4 - e.emitted)
    (free = 0 ∨ fieldAt c.desc 32 4 ≤ e.emitted ∨ s.semStopped t.1 = true → exec (.stirrerCredit par) s = .next s) ∧
    (0 < free → free < 2 ^ 32 → s.semStopped t.1 = false → netOf (s.core t.1).semNet t.2.2.2.1 = none → e.emitted < fieldAt c.desc 32 4 → s.queueOwner t.1 t.2.1 = 2 →
      ∃ u, exec (.stirrerCredit par) s = .next u ∧
      Sparse.get 0 (u.core t.1).sems t.2.2.2.1 = free - 1 ∧
      u.epochCmd = some { e with emitted := e.emitted + n, credits := e.credits + 1, left := e.left ++ [(e.credits, n)] } ∧
      (Sparse.get {} (u.core t.1).ladle t.2.1).waiting =
        (Sparse.get {} (s.core t.1).ladle t.2.1).waiting ++ (List.range n).map (fun w => e.transfer c.desc (e.emitted + w)) ∧
      (∀ x, x ≠ t.1 → u.core x = s.core x) ∧ ∀ a, u.byteAt a = s.byteAt a)) ∧
  (∀ (b : Nat) (s : State) (e : Epoch), s.clk.lost = false → s.epochCmd = some e →
    let t := e.targets.getD (b % e.plan.nt) (0, 0, 0, 0, 0)
    let full := Sparse.get 0 (s.core t.1).sems t.2.2.1
    ((b, 0) ∉ e.left ∨ s.semStopped t.1 = true → exec (.stirrerBatchFull b) s = .next s) ∧
    ((b, 0) ∈ e.left → s.semStopped t.1 = false → netOf (s.core t.1).semNet t.2.2.1 = none → ∃ u, exec (.stirrerBatchFull b) s = .next u ∧ Sparse.get 0 (u.core t.1).sems t.2.2.1 = min (full + 1) (2 ^ 32 - 1) ∧
      ∀ a, u.byteAt a = s.byteAt a)) ∧
  (∀ (n value : Nat) (s : State), s.cvReach n = true → value / 2 ^ 31 % 2 = 1 → s.cvInUse n = false →
    let w := (s.cv n).setFields (value % 2 ^ 32)
    exec (.checkValueBlockStart n value) s =
      .next (s.setCv n { w with opened := w.src == 0, reg := if w.src = 0 then cvPrefix w w.seq.toNat else w.reg })) ∧
  ∀ e ∈ [((Instr.feedb : Nat → Fed → Instr), 1), (.feedh, 2), (.feedw, 4)], ∀ (n data : Nat) (poison : Bool) (s : State), s.cvReach n = true →
    ((s.cv n).src = 0 → (s.cv n).opened = true →
      exec (e.1 n ⟨data, poison⟩) s = .next (s.setCv n { s.cv n with
        reg := crcBytes (s.cv n).poly (s.cv n).reg (leBytes e.2 data), par := (s.cv n).par || poison })) ∧
    ((s.cv n).src ≠ 0 → exec (e.1 n ⟨data, poison⟩) s = .next (s.setCv n { s.cv n with feedErr := true }))

/-! ### Security, management, test access port -/

/-- Attestation and boot checks: a request waits its turn or is refused by its address; its end sets DONE and the result. -/
def Obligations.SecurityRequestsAct : Prop :=
  (∀ (value : Nat) (s : State), s.regAlive = true → s.boot.done = true → value / 2 ^ 31 % 2 = 1 → value / 2 ^ 30 % 2 = 0 →
    let a := s.sec.attAddr
    let good := a % 128 = 0 ∧ (inHost a = true ∨ a < 0x0C000000000) ∧ s.rangeOkDev false a (a + 767) = true
    (s.sec.attBusy = true → exec (.attestationRequest value) s = .next s) ∧
    (s.sec.attBusy = false → ¬ good → exec (.attestationRequest value) s = .next { s with sec := { s.sec with attDone := true, attResult := 1 } }) ∧
    (s.sec.attBusy = false → good → s.sec.queue = [] → s.sec.report = none → s.celBusy = false → s.replacing = none → ∃ t r, exec (.attestationRequest value) s = .next t ∧
      t.sec.attBusy = true ∧ t.sec.queue = [true] ∧ t.sec.report = some r ∧ r = s.reportBytes768 ∧ t.sec.repOut = (chunks a r).length ∧
      ∀ x, t.byteAt x = s.byteAt x)) ∧
  (∀ (err : Bool) (s : State) (r : List Byte), s.clk.lost = false → s.sec.queue = [true] → s.sec.report = some r →
    (0 < s.sec.repOut → exec (.attestationDone err) s = .next s) ∧
    (s.sec.repOut = 0 → exec (.attestationDone err) s = .next { s with sec := { s.sec with
      report := none, attBusy := false, attDone := true, attResult := (if err then 2 else 0), queue := [] } })) ∧
  (∀ (value : Nat) (s : State), s.regAlive = true → s.boot.done = true → value / 2 ^ 30 % 2 = 1 → value / 2 ^ 31 % 2 = 0 →
    exec (.bootCheckRequest value) s =
      .next (if s.sec.bootBusy then s else { s with sec := { s.sec with bootBusy := true, queue := s.sec.queue ++ [false] } })) ∧
  ∀ (err : Bool) (s : State), s.clk.lost = false → s.sec.queue = [false] →
    let r := s.bootCheck s.sec.bootAddr err
    (s.bootWaits s.sec.bootAddr = true → exec (.bootCheckEnd err) s = .next s) ∧
    (s.bootWaits s.sec.bootAddr = false →
      ∃ t, exec (.bootCheckEnd err) s = .next t ∧ t.sec.queue = [] ∧ t.sec.bootBusy = false ∧ t.sec.bootDone = true ∧ t.sec.bootResult = r.1 ∧
        (r.1 = 0 → t.sec.bootDigest = some (sha256 (bootMessage r.2))) ∧ (r.1 ≠ 0 → t.sec.bootDigest = s.sec.bootDigest) ∧ ∀ a, t.byteAt a = s.byteAt a)

/-- I3C, rail telemetry and the test access port: addresses, the offset, captured items, what each instruction shifts out. -/
def Obligations.ManagementAndTestPort : Prop :=
  (∀ s : State, s.clk.lost = false → s.boot.started = true →
    (∀ static dyn, s.mgmt.dynAddr = none → static = 0x50 + s.mgmt.strap →
      exec (.setdasa static dyn) s = .next { s with mgmt := { s.mgmt with dynAddr := some (dyn % 128) } }) ∧
    (∀ dyn, s.mgmt.dynAddr = none → ∃ t id, exec (.entdaa dyn) s = .next t ∧
      t = { s with mgmt := { s.mgmt with dynAddr := some (dyn % 128) }, outbox := s.outbox ++ [.i3c id] } ∧
      id.reverse = leBytes 6 (0x5E7053090000 + s.fuse.serial.toNat % 2 ^ 16)) ∧
    (∀ addr lo hi, s.mgmt.mine addr = true →
      exec (.privateWrite addr [lo, hi]) s = .next { s with mgmt := { s.mgmt with offset := lo.toNat + 256 * hi.toNat, item := none } }) ∧
    (∀ addr data, data.length ≠ 2 → exec (.privateWrite addr data) s = .next s) ∧
    (∀ addr n, s.mgmt.mine addr = true → s.mgmt.offset < 2 ^ 16 → ∃ t data, exec (.privateRead addr n) s = .next t ∧
      t = { s with mgmt := t.mgmt, outbox := s.outbox ++ [.i3c data] } ∧ data.length = n ∧ t.mgmt.offset = (s.mgmt.offset + n) % 2 ^ 16 ∧
      (n = 8 → s.mgmt.offset % 8 = 0 → data = s.mgmtBytes s.mgmt.offset 8)) ∧
    ∀ rails, ∃ t, exec (.railTelemetryUpdate rails) s = .next t ∧ t = { s with mgmt := { s.mgmt with rails := t.mgmt.rails } } ∧
      ∀ i, i < 8 → (t.mgmt.rails.getD i (0, 0, 0, 0)).2.2.2 = ((s.mgmt.rails.getD i (0, 0, 0, 0)).2.2.2 + 1) % 2 ^ 64 ∧
        (t.mgmt.rails.getD i (0, 0, 0, 0)).1 = (rails.getD i (0, 0, 0)).1 % 2 ^ 16) ∧
  ∀ s : State,
    (∀ data, exec (.jtagBypass data) s = .next { s with jtag := { s.jtag with instr := 0 }, outbox := s.outbox ++ [.jtag (2 * shiftOut data)] }) ∧
    exec .jtagIdcode s =
      .next { s with jtag := { s.jtag with instr := 1 }, outbox := s.outbox ++ [.jtag (0x0530956B + s.fuse.stepping % 16 * 2 ^ 28)] } ∧
    (∀ pins data, exec (.samplePreload pins data) s =
      .next { s with jtag := { s.jtag with instr := 2, boundary := data }, outbox := s.outbox ++ [.jtag (shiftOut pins)] }) ∧
    (∀ pins data, exec (.jtagExtest pins data) s =
      .next { s with jtag := { s.jtag with instr := 3, driven := true, boundary := data }, outbox := s.outbox ++ [.jtag (shiftOut pins)] }) ∧
    (∀ data, exec (.jtagClamp data) s =
      .next { s with jtag := { s.jtag with instr := 4, driven := true }, outbox := s.outbox ++ [.jtag (2 * shiftOut data)] }) ∧
    ∀ data, exec (.jtagHighz data) s =
      .next { s with jtag := { s.jtag with instr := 5, driven := true }, outbox := s.outbox ++ [.jtag (2 * shiftOut data)] }

/-! ### Host accesses -/

/-- Host reads answer the stored bytes, host writes store the enabled bytes and no other, where the mesh is in service mode and nothing keeps
    them waiting; a register write acts or is a bus error, and leaves a W1C bit that is set in the same cycle; one to a core whose region's
    clock is stopped waits. -/
def Obligations.HostAccessesAnswer : Prop :=
  (∀ (a n router : Nat) (s : State), s.hostAlive = true →
    (s.hostTarget a n = false → exec (.memoryRead a n ⟨⟨[], router, false⟩, []⟩) s = .next (s.emit (.reply 1 (List.replicate n 0xFF)))) ∧
    (s.hostTarget a n = true → oneUnit a n = true → n ∈ [32, 64, 128, 256] → a % n = 0 →
      (s.meshRegs.service = false → exec (.memoryRead a n ⟨⟨[], router, false⟩, []⟩) s = .next s) ∧
      (s.meshRegs.service = true → s.busyAt a n = false → s.hasRoom (portOf a) 1 = true →
        ∃ t, exec (.memoryRead a n ⟨⟨[], router, false⟩, []⟩) s = .next t ∧ (∀ x, t.byteAt x = s.byteAt x) ∧
          t.outbox = s.outbox ++ [.reply (if s.anyBad a n then 2 else 0) (s.bytesAt a n)]))) ∧
  (∀ (a router : Nat) (data : List (Option Byte)) (poison : Bool) (s : State), s.hostAlive = true →
    (s.hostTarget a data.length = false → exec (.memoryWrite a ⟨data, poison⟩ ⟨[], router, false⟩) s = .next (s.emit (.reply 1 []))) ∧
    (s.hostTarget a data.length = true → oneUnit a data.length = true → s.meshRegs.service = true → s.busyAt a data.length = false →
      s.hasRoom (portOf a) 3 = true →
      ∃ t, exec (.memoryWrite a ⟨data, poison⟩ ⟨[], router, false⟩) s = .next t ∧ t.outbox = s.outbox ++ [.reply 0 []] ∧
        ∀ x, t.byteAt x = if a ≤ x then (data.getD (x - a) none).getD (s.byteAt x) else s.byteAt x)) ∧
  ∀ (off w value raced : Nat) (s : State), s.regAlive = true →
    let v := clearBits value (raced &&& w1cBits off)
    let waits := s.regWaits off = true ∨ (0x200000 ≤ off ∧ off < 0x2A0000 ∧ s.cfgWait ≠ [])
    (waits → exec (.registerWrite off w ⟨value, raced⟩) s = .next { s with cfgWait := s.cfgWait ++ [(off, w, v)] }) ∧
    (¬ waits →
      ((∀ c, s.reg off w ≠ some (w, c)) → exec (.registerWrite off w ⟨value, raced⟩) s = .next (s.emit (.reply 1 []))) ∧
      (∀ c, s.reg off w = some (w, c) → exec (.registerWrite off w ⟨value, raced⟩) s = .next ((s.regPut off (v % 2 ^ (8 * w))).emit (.reply 0 []))) ∧
      (∀ r, r < 64 → off = 0x1000 + 32 * r → w = 8 → (s.cring r).en = false → exec (.registerWrite off w ⟨value, raced⟩) s =
        .next ((s.setCring r { s.cring r with base := value % 2 ^ 47 / 4096 * 4096 }).emit (.reply 0 []))) ∧
      (s.boot.done = true → off = 0x700008 → w = 4 → exec (.registerWrite off w ⟨value, raced⟩) s =
        .next (State.emit { s with press := { s.press with err := clearBits s.press.err (clearBits (value % 32) raced) } } (.reply 0 []))) ∧
      (s.boot.done = true → off = 0x40F000 → w = 4 → exec (.registerWrite off w ⟨value, raced⟩) s =
        .next (State.emit { s with memEccCtl := value / 2 ^ 8 % 8 * 2 ^ 8 + value % 4 } (.reply 0 []))))

/-! ### The queue, reset, invariants -/

/-- On an empty queue a step passes one period of a block that has started and has its reference, where all that must happen in the present
    one has happened; else, and of a block that has not started, no time passes. -/
def Obligations.EmptyQueuePassesOnePeriod : Prop :=
  (∀ s : State, s.pending = [] → step s = .next s.tick) ∧ (∀ s : State, s.clk.lost = true ∨ s.boot.started = false → s.tick = s) ∧
  ∀ s : State, s.clk.lost = false → s.boot.started = true → s.tick.epoch = if s.mayPass then s.epoch + 1 else s.epoch

/-- What the spec gives the device right after reset: nothing in progress, rings disabled, ports down, memory in its canonical form
    with nothing listed, timeouts and counters at their reset values. -/
def Obligations.ResetLeavesTheTablesValues : Prop :=
  State.reset.pending = [] ∧ State.reset.memWf = true ∧ State.reset.mem = [] ∧ (∀ a, State.reset.byteAt a = 0) ∧ State.reset.epoch = 0 ∧
  State.reset.run = none ∧ State.reset.prog = none ∧ State.reset.boot.done = false ∧ State.reset.boot.modules = 0 ∧
  (∀ r, (State.reset.cring r).en = false ∧ (State.reset.cring r).state = 0 ∧ (State.reset.cring r).head = 0 ∧ (State.reset.cring r).tail = 0) ∧
  (∀ e, (State.reset.ering e).en = false ∧ (State.reset.ering e).lost = 0) ∧ (∀ n, (State.reset.port n).state = 0 ∧ (State.reset.port n).upReq = false) ∧
  (∀ r, (State.reset.region r).step = 5) ∧ State.reset.clk.cfg = 0 ∧ State.reset.clk.enCrm = 0 ∧ State.reset.clk.enGrb = 0 ∧ State.reset.clk.enMisc = 0 ∧
  (∀ c i, Sparse.get 0 (State.reset.core c).sems i = 0) ∧ (∀ i, Sparse.get 0 State.reset.gsems i = 0) ∧ State.reset.tmoExp = 24 ∧
  State.reset.press.tmoExp = 31 ∧ State.reset.dld.en = true ∧ State.reset.dld.k = 32 ∧ State.reset.memEccCtl = 3 ∧ State.reset.grbCtl = 0xF0000 ∧
  State.reset.hold.freeze = false ∧ State.reset.hold.total = 0

/-- Every step keeps the memory in its canonical form. -/
def Obligations.MemoryStaysCanonical : Prop := ∀ s t : State, s.memWf = true → step s = .next t → t.memWf = true

/-- No step changes the fuse map: neither a command, nor a period, nor a reset. -/
def Obligations.FuseMapNeverChanges : Prop := ∀ s t : State, step s = .next t → t.fuse = s.fuse
end

