-- ==== Sys2Proof/Laws/Sparse.lean ====
section
/-! SUPPORT. The laws of sparse tables: reads after writes, and the canonical form that every operation keeps. -/

namespace Sys2Proof.Machine

variable {α : Type}

/-- Keys strictly rising and no listed default, as list predicates. -/
theorem Sparse.wf_iff [DecidableEq α] (d : α) (m : Sparse α) :
    Sparse.wf d m = true ↔ m.Pairwise (fun a b => a.1 < b.1) ∧ ∀ e ∈ m, e.2 ≠ d := by
  induction m with
  | nil => simp [Sparse.wf]
  | cons e t ih =>
    obtain ⟨k, v⟩ := e
    cases t with
    | nil => simp [Sparse.wf]
    | cons e' t' =>
      obtain ⟨k', v'⟩ := e'
      simp only [Sparse.wf, Bool.and_eq_true, bne_iff_ne, decide_eq_true_eq, ih]
      constructor
      · rintro ⟨⟨h1, h2⟩, h3, h4⟩
        refine ⟨List.pairwise_cons.2 ⟨?_, h3⟩, ?_⟩
        · intro a ha
          rcases List.mem_cons.1 ha with rfl | ha
          · exact h2
          · exact lt_trans h2 ((List.pairwise_cons.1 h3).1 a ha)
        · intro a ha
          rcases List.mem_cons.1 ha with rfl | ha
          · exact h1
          · exact h4 a ha
      · rintro ⟨h3, h4⟩
        have := List.pairwise_cons.1 h3
        exact ⟨⟨h4 (k, v) (by simp), this.1 (k', v') (by simp)⟩, this.2, fun a ha => h4 a (List.mem_cons_of_mem _ ha)⟩

/-- A part of a canonical table is canonical. -/
theorem Sparse.wf_filter [DecidableEq α] {d : α} {m : Sparse α} (p : Nat × α → Bool) (h : Sparse.wf d m = true) :
    Sparse.wf d (m.filter p) = true := by
  rw [Sparse.wf_iff] at h ⊢
  exact ⟨h.1.filter _, fun e he => h.2 e (List.mem_filter.1 he).1⟩

theorem Sparse.wf_clear [DecidableEq α] {d : α} {m : Sparse α} (lo hi : Nat) (h : Sparse.wf d m = true) :
    Sparse.wf d (Sparse.clear m lo hi) = true := Sparse.wf_filter _ h

theorem Sparse.mem_insert (i : Nat) (v : α) (m : Sparse α) (e : Nat × α) :
    e ∈ Sparse.insert i v m ↔ e = (i, v) ∨ e ∈ m := by
  induction m with
  | nil => simp [Sparse.insert]
  | cons a t ih =>
    obtain ⟨k, w⟩ := a
    unfold Sparse.insert
    split
    · simp
    · simp only [List.mem_cons, ih]; tauto

theorem Sparse.insert_sorted (i : Nat) (v : α) (m : Sparse α) (h : m.Pairwise (fun a b => a.1 < b.1)) (hi : ∀ e ∈ m, e.1 ≠ i) :
    (Sparse.insert i v m).Pairwise (fun a b => a.1 < b.1) := by
  induction m with
  | nil => simp [Sparse.insert]
  | cons a t ih =>
    obtain ⟨k, w⟩ := a
    have ht := List.pairwise_cons.1 h
    unfold Sparse.insert
    split
    · rename_i hlt
      refine List.pairwise_cons.2 ⟨?_, h⟩
      intro e he
      rcases List.mem_cons.1 he with rfl | he
      · exact hlt
      · exact lt_trans hlt (ht.1 e he)
    · rename_i hge
      have hk : k < i := by
        have := hi (k, w) (by simp)
        simp only at this
        omega
      refine List.pairwise_cons.2 ⟨?_, ih ht.2 (fun e he => hi e (List.mem_cons_of_mem _ he))⟩
      intro e he
      rcases (Sparse.mem_insert i v t e).1 he with rfl | he
      · exact hk
      · exact ht.1 e he

/-- Every write keeps the canonical form. -/
theorem Sparse.wf_set [DecidableEq α] {d : α} {m : Sparse α} (i : Nat) (v : α) (h : Sparse.wf d m = true) :
    Sparse.wf d (Sparse.set d m i v) = true := by
  have he := Sparse.wf_filter (fun e => e.1 != i) h
  unfold Sparse.set
  split
  · exact he
  · rename_i hv
    have hw := (Sparse.wf_iff d _).1 he
    rw [Sparse.wf_iff]
    refine ⟨Sparse.insert_sorted i v _ hw.1 ?_, ?_⟩
    · intro e hm
      have := (List.mem_filter.1 hm).2
      simpa using this
    · intro e hm
      rcases (Sparse.mem_insert i v _ e).1 hm with rfl | hm
      · exact hv
      · exact hw.2 e hm

theorem Sparse.wf_setRange [DecidableEq α] {d : α} {m : Sparse α} (lo : Nat) (f : Nat → α) (n : Nat) (h : Sparse.wf d m = true) :
    Sparse.wf d (Sparse.setRange d m lo f n) = true := by
  induction n with
  | zero => exact h
  | succ n ih => exact Sparse.wf_set _ _ ih

/-- The value read after an entry's removal. -/
theorem Sparse.get_erase (d : α) (m : Sparse α) (i j : Nat) :
    Sparse.get d (m.erase i) j = if j = i then d else Sparse.get d m j := by
  induction m with
  | nil => simp [Sparse.erase, Sparse.get]
  | cons a t ih =>
    obtain ⟨k, w⟩ := a
    unfold Sparse.erase at ih ⊢
    by_cases hk : k = i
    · subst hk
      simp only [bne_self_eq_false, Bool.false_eq_true, not_false_eq_true, List.filter_cons_of_neg, ih, Sparse.get]
      by_cases hj : j = k
      · simp [hj]
      · simp [hj, Ne.symm hj]
    · rw [List.filter_cons_of_pos (by simpa using hk)]
      simp only [Sparse.get, ih]
      by_cases hj : j = i
      · subst hj; simp [hk]
      · by_cases hkj : k = j <;> simp [hj, hkj]

theorem Sparse.get_insert (d : α) (i : Nat) (v : α) (m : Sparse α) (j : Nat) (hi : ∀ e ∈ m, e.1 ≠ i) :
    Sparse.get d (Sparse.insert i v m) j = if j = i then v else Sparse.get d m j := by
  induction m with
  | nil => by_cases h : j = i <;> simp [Sparse.insert, Sparse.get, h, Ne.symm]
  | cons a t ih =>
    obtain ⟨k, w⟩ := a
    have hk : k ≠ i := hi (k, w) (by simp)
    have ih := ih (fun e he => hi e (List.mem_cons_of_mem _ he))
    unfold Sparse.insert
    split
    · by_cases h : j = i
      · subst h; simp [Sparse.get]
      · simp [Sparse.get, h, Ne.symm h]
    · simp only [Sparse.get, ih]
      by_cases hj : j = i
      · subst hj; simp [hk]
      · simp [hj]

/-- A read after a write: the value written there, elsewhere as before. -/
theorem Sparse.get_set [DecidableEq α] (d : α) (m : Sparse α) (i : Nat) (v : α) (j : Nat) :
    Sparse.get d (Sparse.set d m i v) j = if j = i then v else Sparse.get d m j := by
  unfold Sparse.set
  split
  · rename_i hv
    rw [Sparse.get_erase]
    by_cases hj : j = i <;> simp [hj, hv]
  · rw [Sparse.get_insert _ _ _ _ _ (by intro e he; simpa [Sparse.erase] using (List.mem_filter.1 he).2), Sparse.get_erase]
    by_cases hj : j = i <;> simp [hj]

@[simp] theorem Sparse.get_set_self [DecidableEq α] (d : α) (m : Sparse α) (i : Nat) (v : α) :
    Sparse.get d (Sparse.set d m i v) i = v := by simp [Sparse.get_set]

theorem Sparse.get_set_ne [DecidableEq α] (d : α) (m : Sparse α) {i j : Nat} (v : α) (h : j ≠ i) :
    Sparse.get d (Sparse.set d m i v) j = Sparse.get d m j := by simp [Sparse.get_set, h]

/-- A read after writes to a range of keys. -/
theorem Sparse.get_setRange [DecidableEq α] (d : α) (m : Sparse α) (lo : Nat) (f : Nat → α) (n j : Nat) :
    Sparse.get d (Sparse.setRange d m lo f n) j = if lo ≤ j ∧ j < lo + n then f (j - lo) else Sparse.get d m j := by
  induction n with
  | zero => simp [Sparse.setRange]
  | succ n ih =>
    simp only [Sparse.setRange, Sparse.get_set, ih]
    by_cases h : j = lo + n
    · subst h; simp
    · by_cases h2 : lo ≤ j ∧ j < lo + n
      · rw [if_neg h, if_pos h2, if_pos ⟨h2.1, by omega⟩]
      · rw [if_neg h, if_neg h2, if_neg (by omega)]

theorem Sparse.get_filterMap_of_notMem (d : α) (l : List Nat) (g : Nat → Option (Nat × α)) (hg : ∀ i e, g i = some e → e.1 = i)
    (j : Nat) (h : j ∉ l) : Sparse.get d (l.filterMap g) j = d := by
  induction l with
  | nil => rfl
  | cons a t ih =>
    have h' : j ≠ a ∧ j ∉ t := by simpa using h
    rw [List.filterMap_cons]
    split
    · exact ih h'.2
    · rename_i e he
      have := hg a e he
      obtain ⟨k, v⟩ := e
      simp only at this
      subst this
      simp only [Sparse.get, Ne.symm h'.1, if_false]
      exact ih h'.2

/-- The table of a function reads as the function. -/
theorem Sparse.get_ofFn [DecidableEq α] (d : α) (n : Nat) (f : Nat → α) (j : Nat) :
    Sparse.get d (Sparse.ofFn d n f) j = if j < n then f j else d := by
  have hg : ∀ i e, (fun i => if f i = d then none else some (i, f i)) i = some e → e.1 = i := by
    intro i e h
    simp only at h
    split at h <;> simp at h
    exact h ▸ rfl
  have key : ∀ l : List Nat, l.Nodup →
      Sparse.get d (l.filterMap (fun i => if f i = d then none else some (i, f i))) j = if j ∈ l then f j else d := by
    intro l hl
    induction l with
    | nil => rfl
    | cons a t ih =>
      have hn := List.nodup_cons.1 hl
      rw [List.filterMap_cons]
      by_cases ha : f a = d
      · simp only [ha, if_true, ih hn.2]
        by_cases hj : j = a
        · subst hj; simp [hn.1, ha]
        · simp [hj]
      · simp only [ha, if_false, Sparse.get, ih hn.2]
        by_cases hj : a = j
        · subst hj; simp
        · simp [hj, Ne.symm hj]
  unfold Sparse.ofFn
  rw [key _ List.nodup_range]
  simp

end Sys2Proof.Machine
end

