-- ==== Sys2Proof/Laws/Memory.lean ====
section
/-! SUPPORT. Memory: a read after a write, and the canonical form that every memory operation keeps. -/

namespace Sys2Proof.Machine

/-- A byte after a list of bytes is written: theirs inside, as before outside. -/
theorem get_putBytes (m : List Host.Cell) (a : Nat) (bs : List Byte) (x : Nat) :
    Sparse.get unlisted (putBytes m a bs) x
      = if a ≤ x ∧ x < a + bs.length then bs.getD (x - a) unlisted else Sparse.get unlisted m x := by
  induction bs generalizing m a with
  | nil => simp [putBytes]
  | cons b t ih =>
    simp only [putBytes, ih, Sparse.get_set, List.length_cons]
    by_cases h : x = a
    · subst h; simp
    · by_cases h2 : a + 1 ≤ x ∧ x < a + 1 + t.length
      · rw [if_pos h2, if_pos (by omega)]
        obtain ⟨k, rfl⟩ : ∃ k, x = a + 1 + k := ⟨x - (a + 1), by omega⟩
        rw [show a + 1 + k - (a + 1) = k by omega, show a + 1 + k - a = k + 1 by omega]
        simp
      · rw [if_neg h2, if_neg h, if_neg (by omega)]

theorem putBytes_wf {m : List Host.Cell} (a : Nat) (bs : List Byte) (h : Memory.wf m = true) : Memory.wf (putBytes m a bs) = true := by
  induction bs generalizing m a with
  | nil => exact h
  | cons b t ih => exact ih (a + 1) (Sparse.wf_set _ _ h)

theorem clear_wf {m : List Host.Cell} (lo hi : Nat) (h : Memory.wf m = true) : Memory.wf (Sparse.clear m lo hi) = true :=
  Sparse.wf_clear _ _ h

theorem filter_wf {m : List Host.Cell} (p : Host.Cell → Bool) (h : Memory.wf m = true) : Memory.wf (m.filter p) = true :=
  Sparse.wf_filter _ h

/-- Marked bytes stored at an address: theirs inside, as before outside. -/
theorem State.byteAt_storeBytes (s : State) (a : Nat) (bs : List MByte) (x : Nat) :
    (s.storeBytes a bs).byteAt x = if a ≤ x ∧ x < a + bs.length then (bs.map Prod.fst).getD (x - a) unlisted else s.byteAt x := by
  unfold State.byteAt State.storeBytes
  simp only [get_putBytes, List.length_map]

theorem State.storeBytes_memWf {s : State} (a : Nat) (bs : List MByte) (h : s.memWf = true) : (s.storeBytes a bs).memWf = true :=
  putBytes_wf _ _ h

/-- Where no word and no scratchpad byte is marked, no byte is bad. -/
theorem State.byteBad_clean {s : State} (h1 : s.ecc = []) (h2 : s.bytePar = []) (a : Nat) : s.byteBad a = false := by
  simp [State.byteBad, h1, h2, Sparse.get]

theorem State.anyBad_clean {s : State} (h1 : s.ecc = []) (h2 : s.bytePar = []) (a n : Nat) : s.anyBad a n = false := by
  simp [State.anyBad, State.byteBad_clean h1 h2]

theorem State.spadBad_clean {s : State} (h : s.bytePar = []) (c off n : Nat) : s.spadBad c off n = false := by
  simp [State.spadBad, h, Sparse.get]

/-- The little-endian value of the bytes of a value is the value, cut to their number (R7). -/
theorem leNat_leBytes (n v : Nat) : leNat (leBytes n v) = v % 256 ^ n := by
  induction n generalizing v with
  | zero => simp [leBytes, leNat, Nat.mod_one]
  | succ n ih =>
    simp only [leBytes, leNat, ih, BitVec.toNat_ofNat]
    have h := Nat.mod_mul (x := v) (a := 256) (b := 256 ^ n)
    have e : 256 ^ (n + 1) = 256 * 256 ^ n := by rw [Nat.pow_succ, Nat.mul_comm]
    rw [e, h]

@[simp] theorem leBytes_length (n v : Nat) : (leBytes n v).length = n := by
  induction n generalizing v with
  | zero => rfl
  | succ n ih => simp [leBytes, ih]

end Sys2Proof.Machine
end

