-- ==== Sys2Proof/Laws/Routes.lean ====
section
/-! SUPPORT. Where no region has been touched, nothing waits for a stopped one. -/

namespace Sys2Proof.Machine

theorem State.region_fresh {s : State} (h : s.regions = []) (r : Nat) : s.region r = {} := by simp [State.region, h, Sparse.get]

theorem State.clocked_fresh {s : State} (h : s.regions = []) (c : Nat) : s.clocked c = true := by simp [State.clocked, State.region_fresh h]

theorem State.semStopped_fresh {s : State} (h : s.regions = []) (c : Nat) : s.semStopped c = false := by
  simp [State.semStopped, State.region_fresh h, State.clocked_fresh h]

theorem State.portStopped_fresh {s : State} (h : s.regions = []) (a : Nat) : s.portStopped a = false := by
  simp only [State.portStopped]
  cases portRouter (portOf a) <;> simp [State.routerStopped, State.region_fresh h]

theorem State.routeStopped_fresh {s : State} (h : s.regions = []) (a b : Nat) : s.routeStopped a b = false := by
  simp [State.routeStopped, State.region_fresh h]

/-- A running region holds nothing up: where every region's clock runs no route waits (R518). -/
theorem State.routeStopped_running {s : State} (h : ∀ r, r < 16 → (s.region r).stopped = false) (a b : Nat) : s.routeStopped a b = false := by
  have : (List.range 16).any (fun r => (s.region r).stopped) = false := by
    simp only [List.any_eq_false, List.mem_range, Bool.not_eq_true]
    exact h
  simp [State.routeStopped, this]

end Sys2Proof.Machine
end

