-- ==== Sys2Proof/Laws/State.lean ====
section
/-! SUPPORT. What each named update of the state leaves alone, field by field, and what it reads back as. -/

namespace Sys2Proof.Machine

/-! ### setCore -/

@[simp] theorem State.setCore_pending (s : State) (c : Nat) (k : Core) : (s.setCore c k).pending = s.pending := rfl
@[simp] theorem State.setCore_free (s : State) (c : Nat) (k : Core) : (s.setCore c k).free = s.free := rfl
@[simp] theorem State.setCore_fuse (s : State) (c : Nat) (k : Core) : (s.setCore c k).fuse = s.fuse := rfl
@[simp] theorem State.setCore_mem (s : State) (c : Nat) (k : Core) : (s.setCore c k).mem = s.mem := rfl
@[simp] theorem State.setCore_ecc (s : State) (c : Nat) (k : Core) : (s.setCore c k).ecc = s.ecc := rfl
@[simp] theorem State.setCore_bytePar (s : State) (c : Nat) (k : Core) : (s.setCore c k).bytePar = s.bytePar := rfl
@[simp] theorem State.setCore_memUnits (s : State) (c : Nat) (k : Core) : (s.setCore c k).memUnits = s.memUnits := rfl
@[simp] theorem State.setCore_pwin (s : State) (c : Nat) (k : Core) : (s.setCore c k).pwin = s.pwin := rfl
@[simp] theorem State.setCore_grbSelf (s : State) (c : Nat) (k : Core) : (s.setCore c k).grbSelf = s.grbSelf := rfl
@[simp] theorem State.setCore_prog (s : State) (c : Nat) (k : Core) : (s.setCore c k).prog = s.prog := rfl
@[simp] theorem State.setCore_run (s : State) (c : Nat) (k : Core) : (s.setCore c k).run = s.run := rfl
@[simp] theorem State.setCore_units (s : State) (c : Nat) (k : Core) : (s.setCore c k).units = s.units := rfl
@[simp] theorem State.setCore_gsems (s : State) (c : Nat) (k : Core) : (s.setCore c k).gsems = s.gsems := rfl
@[simp] theorem State.setCore_gsemErr (s : State) (c : Nat) (k : Core) : (s.setCore c k).gsemErr = s.gsemErr := rfl
@[simp] theorem State.setCore_mesh (s : State) (c : Nat) (k : Core) : (s.setCore c k).mesh = s.mesh := rfl
@[simp] theorem State.setCore_meshId (s : State) (c : Nat) (k : Core) : (s.setCore c k).meshId = s.meshId := rfl
@[simp] theorem State.setCore_ports (s : State) (c : Nat) (k : Core) : (s.setCore c k).ports = s.ports := rfl
@[simp] theorem State.setCore_grbCtl (s : State) (c : Nat) (k : Core) : (s.setCore c k).grbCtl = s.grbCtl := rfl
@[simp] theorem State.setCore_grbSelfValid (s : State) (c : Nat) (k : Core) : (s.setCore c k).grbSelfValid = s.grbSelfValid := rfl
@[simp] theorem State.setCore_tmoExp (s : State) (c : Nat) (k : Core) : (s.setCore c k).tmoExp = s.tmoExp := rfl
@[simp] theorem State.setCore_outbox (s : State) (c : Nat) (k : Core) : (s.setCore c k).outbox = s.outbox := rfl
@[simp] theorem State.setCore_remote (s : State) (c : Nat) (k : Core) : (s.setCore c k).remote = s.remote := rfl
@[simp] theorem State.setCore_remoteId (s : State) (c : Nat) (k : Core) : (s.setCore c k).remoteId = s.remoteId := rfl
@[simp] theorem State.setCore_incarn (s : State) (c : Nat) (k : Core) : (s.setCore c k).incarn = s.incarn := rfl
@[simp] theorem State.setCore_peers (s : State) (c : Nat) (k : Core) : (s.setCore c k).peers = s.peers := rfl
@[simp] theorem State.setCore_epoch (s : State) (c : Nat) (k : Core) : (s.setCore c k).epoch = s.epoch := rfl
@[simp] theorem State.setCore_seed (s : State) (c : Nat) (k : Core) : (s.setCore c k).seed = s.seed := rfl
@[simp] theorem State.setCore_hold (s : State) (c : Nat) (k : Core) : (s.setCore c k).hold = s.hold := rfl
@[simp] theorem State.setCore_crings (s : State) (c : Nat) (k : Core) : (s.setCore c k).crings = s.crings := rfl
@[simp] theorem State.setCore_erings (s : State) (c : Nat) (k : Core) : (s.setCore c k).erings = s.erings := rfl
@[simp] theorem State.setCore_seqs (s : State) (c : Nat) (k : Core) : (s.setCore c k).seqs = s.seqs := rfl
@[simp] theorem State.setCore_waitRecs (s : State) (c : Nat) (k : Core) : (s.setCore c k).waitRecs = s.waitRecs := rfl
@[simp] theorem State.setCore_cmds (s : State) (c : Nat) (k : Core) : (s.setCore c k).cmds = s.cmds := rfl
@[simp] theorem State.setCore_cmdId (s : State) (c : Nat) (k : Core) : (s.setCore c k).cmdId = s.cmdId := rfl
@[simp] theorem State.setCore_turn (s : State) (c : Nat) (k : Core) : (s.setCore c k).turn = s.turn := rfl
@[simp] theorem State.setCore_hostWrites (s : State) (c : Nat) (k : Core) : (s.setCore c k).hostWrites = s.hostWrites := rfl
@[simp] theorem State.setCore_linkDown (s : State) (c : Nat) (k : Core) : (s.setCore c k).linkDown = s.linkDown := rfl
@[simp] theorem State.setCore_ctx (s : State) (c : Nat) (k : Core) : (s.setCore c k).ctx = s.ctx := rfl
@[simp] theorem State.setCore_replacing (s : State) (c : Nat) (k : Core) : (s.setCore c k).replacing = s.replacing := rfl
@[simp] theorem State.setCore_memEccCtl (s : State) (c : Nat) (k : Core) : (s.setCore c k).memEccCtl = s.memEccCtl := rfl
@[simp] theorem State.setCore_writesOut (s : State) (c : Nat) (k : Core) : (s.setCore c k).writesOut = s.writesOut := rfl
@[simp] theorem State.setCore_regions (s : State) (c : Nat) (k : Core) : (s.setCore c k).regions = s.regions := rfl
@[simp] theorem State.setCore_clk (s : State) (c : Nat) (k : Core) : (s.setCore c k).clk = s.clk := rfl
@[simp] theorem State.setCore_boot (s : State) (c : Nat) (k : Core) : (s.setCore c k).boot = s.boot := rfl
@[simp] theorem State.setCore_meshRegs (s : State) (c : Nat) (k : Core) : (s.setCore c k).meshRegs = s.meshRegs := rfl
@[simp] theorem State.setCore_flash (s : State) (c : Nat) (k : Core) : (s.setCore c k).flash = s.flash := rfl
@[simp] theorem State.setCore_press (s : State) (c : Nat) (k : Core) : (s.setCore c k).press = s.press := rfl
@[simp] theorem State.setCore_dld (s : State) (c : Nat) (k : Core) : (s.setCore c k).dld = s.dld := rfl
@[simp] theorem State.setCore_shard (s : State) (c : Nat) (k : Core) : (s.setCore c k).shard = s.shard := rfl
@[simp] theorem State.setCore_lastRun (s : State) (c : Nat) (k : Core) : (s.setCore c k).lastRun = s.lastRun := rfl
@[simp] theorem State.setCore_cvs (s : State) (c : Nat) (k : Core) : (s.setCore c k).cvs = s.cvs := rfl
@[simp] theorem State.setCore_epochCmd (s : State) (c : Nat) (k : Core) : (s.setCore c k).epochCmd = s.epochCmd := rfl
@[simp] theorem State.setCore_epochQueue (s : State) (c : Nat) (k : Core) : (s.setCore c k).epochQueue = s.epochQueue := rfl
@[simp] theorem State.setCore_ingestQ (s : State) (c : Nat) (k : Core) : (s.setCore c k).ingestQ = s.ingestQ := rfl
@[simp] theorem State.setCore_engines (s : State) (c : Nat) (k : Core) : (s.setCore c k).engines = s.engines := rfl
@[simp] theorem State.setCore_crmErr (s : State) (c : Nat) (k : Core) : (s.setCore c k).crmErr = s.crmErr := rfl
@[simp] theorem State.setCore_clipsWritten (s : State) (c : Nat) (k : Core) : (s.setCore c k).clipsWritten = s.clipsWritten := rfl
@[simp] theorem State.setCore_clipsDropped (s : State) (c : Nat) (k : Core) : (s.setCore c k).clipsDropped = s.clipsDropped := rfl
@[simp] theorem State.setCore_noProgress (s : State) (c : Nat) (k : Core) : (s.setCore c k).noProgress = s.noProgress := rfl
@[simp] theorem State.setCore_maint (s : State) (c : Nat) (k : Core) : (s.setCore c k).maint = s.maint := rfl
@[simp] theorem State.setCore_hardLeft (s : State) (c : Nat) (k : Core) : (s.setCore c k).hardLeft = s.hardLeft := rfl
@[simp] theorem State.setCore_softReps (s : State) (c : Nat) (k : Core) : (s.setCore c k).softReps = s.softReps := rfl
@[simp] theorem State.setCore_postponed (s : State) (c : Nat) (k : Core) : (s.setCore c k).postponed = s.postponed := rfl
@[simp] theorem State.setCore_loopTest (s : State) (c : Nat) (k : Core) : (s.setCore c k).loopTest = s.loopTest := rfl
@[simp] theorem State.setCore_lbStatus (s : State) (c : Nat) (k : Core) : (s.setCore c k).lbStatus = s.lbStatus := rfl
@[simp] theorem State.setCore_reflect (s : State) (c : Nat) (k : Core) : (s.setCore c k).reflect = s.reflect := rfl
@[simp] theorem State.setCore_sec (s : State) (c : Nat) (k : Core) : (s.setCore c k).sec = s.sec := rfl
@[simp] theorem State.setCore_mgmt (s : State) (c : Nat) (k : Core) : (s.setCore c k).mgmt = s.mgmt := rfl
@[simp] theorem State.setCore_jtag (s : State) (c : Nat) (k : Core) : (s.setCore c k).jtag = s.jtag := rfl
@[simp] theorem State.setCore_rsv (s : State) (c : Nat) (k : Core) : (s.setCore c k).rsv = s.rsv := rfl
@[simp] theorem State.setCore_gsemNet (s : State) (c : Nat) (k : Core) : (s.setCore c k).gsemNet = s.gsemNet := rfl
@[simp] theorem State.setCore_gsemErr0 (s : State) (c : Nat) (k : Core) : (s.setCore c k).gsemErr0 = s.gsemErr0 := rfl
@[simp] theorem State.setCore_gsemSent (s : State) (c : Nat) (k : Core) : (s.setCore c k).gsemSent = s.gsemSent := rfl
@[simp] theorem State.setCore_hostBanks (s : State) (c : Nat) (k : Core) : (s.setCore c k).hostBanks = s.hostBanks := rfl
@[simp] theorem State.setCore_cfgWait (s : State) (c : Nat) (k : Core) : (s.setCore c k).cfgWait = s.cfgWait := rfl
@[simp] theorem State.setCore_writesIn (s : State) (c : Nat) (k : Core) : (s.setCore c k).writesIn = s.writesIn := rfl

/-! ### emit -/

@[simp] theorem State.emit_pending (s : State) (o : Out) : (s.emit o).pending = s.pending := rfl
@[simp] theorem State.emit_free (s : State) (o : Out) : (s.emit o).free = s.free := rfl
@[simp] theorem State.emit_fuse (s : State) (o : Out) : (s.emit o).fuse = s.fuse := rfl
@[simp] theorem State.emit_mem (s : State) (o : Out) : (s.emit o).mem = s.mem := rfl
@[simp] theorem State.emit_ecc (s : State) (o : Out) : (s.emit o).ecc = s.ecc := rfl
@[simp] theorem State.emit_bytePar (s : State) (o : Out) : (s.emit o).bytePar = s.bytePar := rfl
@[simp] theorem State.emit_memUnits (s : State) (o : Out) : (s.emit o).memUnits = s.memUnits := rfl
@[simp] theorem State.emit_pwin (s : State) (o : Out) : (s.emit o).pwin = s.pwin := rfl
@[simp] theorem State.emit_grbSelf (s : State) (o : Out) : (s.emit o).grbSelf = s.grbSelf := rfl
@[simp] theorem State.emit_cores (s : State) (o : Out) : (s.emit o).cores = s.cores := rfl
@[simp] theorem State.emit_prog (s : State) (o : Out) : (s.emit o).prog = s.prog := rfl
@[simp] theorem State.emit_run (s : State) (o : Out) : (s.emit o).run = s.run := rfl
@[simp] theorem State.emit_units (s : State) (o : Out) : (s.emit o).units = s.units := rfl
@[simp] theorem State.emit_gsems (s : State) (o : Out) : (s.emit o).gsems = s.gsems := rfl
@[simp] theorem State.emit_gsemErr (s : State) (o : Out) : (s.emit o).gsemErr = s.gsemErr := rfl
@[simp] theorem State.emit_mesh (s : State) (o : Out) : (s.emit o).mesh = s.mesh := rfl
@[simp] theorem State.emit_meshId (s : State) (o : Out) : (s.emit o).meshId = s.meshId := rfl
@[simp] theorem State.emit_ports (s : State) (o : Out) : (s.emit o).ports = s.ports := rfl
@[simp] theorem State.emit_grbCtl (s : State) (o : Out) : (s.emit o).grbCtl = s.grbCtl := rfl
@[simp] theorem State.emit_grbSelfValid (s : State) (o : Out) : (s.emit o).grbSelfValid = s.grbSelfValid := rfl
@[simp] theorem State.emit_tmoExp (s : State) (o : Out) : (s.emit o).tmoExp = s.tmoExp := rfl
@[simp] theorem State.emit_remote (s : State) (o : Out) : (s.emit o).remote = s.remote := rfl
@[simp] theorem State.emit_remoteId (s : State) (o : Out) : (s.emit o).remoteId = s.remoteId := rfl
@[simp] theorem State.emit_incarn (s : State) (o : Out) : (s.emit o).incarn = s.incarn := rfl
@[simp] theorem State.emit_peers (s : State) (o : Out) : (s.emit o).peers = s.peers := rfl
@[simp] theorem State.emit_epoch (s : State) (o : Out) : (s.emit o).epoch = s.epoch := rfl
@[simp] theorem State.emit_seed (s : State) (o : Out) : (s.emit o).seed = s.seed := rfl
@[simp] theorem State.emit_hold (s : State) (o : Out) : (s.emit o).hold = s.hold := rfl
@[simp] theorem State.emit_crings (s : State) (o : Out) : (s.emit o).crings = s.crings := rfl
@[simp] theorem State.emit_erings (s : State) (o : Out) : (s.emit o).erings = s.erings := rfl
@[simp] theorem State.emit_seqs (s : State) (o : Out) : (s.emit o).seqs = s.seqs := rfl
@[simp] theorem State.emit_waitRecs (s : State) (o : Out) : (s.emit o).waitRecs = s.waitRecs := rfl
@[simp] theorem State.emit_cmds (s : State) (o : Out) : (s.emit o).cmds = s.cmds := rfl
@[simp] theorem State.emit_cmdId (s : State) (o : Out) : (s.emit o).cmdId = s.cmdId := rfl
@[simp] theorem State.emit_turn (s : State) (o : Out) : (s.emit o).turn = s.turn := rfl
@[simp] theorem State.emit_hostWrites (s : State) (o : Out) : (s.emit o).hostWrites = s.hostWrites := rfl
@[simp] theorem State.emit_linkDown (s : State) (o : Out) : (s.emit o).linkDown = s.linkDown := rfl
@[simp] theorem State.emit_ctx (s : State) (o : Out) : (s.emit o).ctx = s.ctx := rfl
@[simp] theorem State.emit_replacing (s : State) (o : Out) : (s.emit o).replacing = s.replacing := rfl
@[simp] theorem State.emit_memEccCtl (s : State) (o : Out) : (s.emit o).memEccCtl = s.memEccCtl := rfl
@[simp] theorem State.emit_writesOut (s : State) (o : Out) : (s.emit o).writesOut = s.writesOut := rfl
@[simp] theorem State.emit_regions (s : State) (o : Out) : (s.emit o).regions = s.regions := rfl
@[simp] theorem State.emit_clk (s : State) (o : Out) : (s.emit o).clk = s.clk := rfl
@[simp] theorem State.emit_boot (s : State) (o : Out) : (s.emit o).boot = s.boot := rfl
@[simp] theorem State.emit_meshRegs (s : State) (o : Out) : (s.emit o).meshRegs = s.meshRegs := rfl
@[simp] theorem State.emit_flash (s : State) (o : Out) : (s.emit o).flash = s.flash := rfl
@[simp] theorem State.emit_press (s : State) (o : Out) : (s.emit o).press = s.press := rfl
@[simp] theorem State.emit_dld (s : State) (o : Out) : (s.emit o).dld = s.dld := rfl
@[simp] theorem State.emit_shard (s : State) (o : Out) : (s.emit o).shard = s.shard := rfl
@[simp] theorem State.emit_lastRun (s : State) (o : Out) : (s.emit o).lastRun = s.lastRun := rfl
@[simp] theorem State.emit_cvs (s : State) (o : Out) : (s.emit o).cvs = s.cvs := rfl
@[simp] theorem State.emit_epochCmd (s : State) (o : Out) : (s.emit o).epochCmd = s.epochCmd := rfl
@[simp] theorem State.emit_epochQueue (s : State) (o : Out) : (s.emit o).epochQueue = s.epochQueue := rfl
@[simp] theorem State.emit_ingestQ (s : State) (o : Out) : (s.emit o).ingestQ = s.ingestQ := rfl
@[simp] theorem State.emit_engines (s : State) (o : Out) : (s.emit o).engines = s.engines := rfl
@[simp] theorem State.emit_crmErr (s : State) (o : Out) : (s.emit o).crmErr = s.crmErr := rfl
@[simp] theorem State.emit_clipsWritten (s : State) (o : Out) : (s.emit o).clipsWritten = s.clipsWritten := rfl
@[simp] theorem State.emit_clipsDropped (s : State) (o : Out) : (s.emit o).clipsDropped = s.clipsDropped := rfl
@[simp] theorem State.emit_noProgress (s : State) (o : Out) : (s.emit o).noProgress = s.noProgress := rfl
@[simp] theorem State.emit_maint (s : State) (o : Out) : (s.emit o).maint = s.maint := rfl
@[simp] theorem State.emit_hardLeft (s : State) (o : Out) : (s.emit o).hardLeft = s.hardLeft := rfl
@[simp] theorem State.emit_softReps (s : State) (o : Out) : (s.emit o).softReps = s.softReps := rfl
@[simp] theorem State.emit_postponed (s : State) (o : Out) : (s.emit o).postponed = s.postponed := rfl
@[simp] theorem State.emit_loopTest (s : State) (o : Out) : (s.emit o).loopTest = s.loopTest := rfl
@[simp] theorem State.emit_lbStatus (s : State) (o : Out) : (s.emit o).lbStatus = s.lbStatus := rfl
@[simp] theorem State.emit_reflect (s : State) (o : Out) : (s.emit o).reflect = s.reflect := rfl
@[simp] theorem State.emit_sec (s : State) (o : Out) : (s.emit o).sec = s.sec := rfl
@[simp] theorem State.emit_mgmt (s : State) (o : Out) : (s.emit o).mgmt = s.mgmt := rfl
@[simp] theorem State.emit_jtag (s : State) (o : Out) : (s.emit o).jtag = s.jtag := rfl
@[simp] theorem State.emit_rsv (s : State) (o : Out) : (s.emit o).rsv = s.rsv := rfl
@[simp] theorem State.emit_gsemNet (s : State) (o : Out) : (s.emit o).gsemNet = s.gsemNet := rfl
@[simp] theorem State.emit_gsemErr0 (s : State) (o : Out) : (s.emit o).gsemErr0 = s.gsemErr0 := rfl
@[simp] theorem State.emit_gsemSent (s : State) (o : Out) : (s.emit o).gsemSent = s.gsemSent := rfl
@[simp] theorem State.emit_hostBanks (s : State) (o : Out) : (s.emit o).hostBanks = s.hostBanks := rfl
@[simp] theorem State.emit_cfgWait (s : State) (o : Out) : (s.emit o).cfgWait = s.cfgWait := rfl
@[simp] theorem State.emit_writesIn (s : State) (o : Out) : (s.emit o).writesIn = s.writesIn := rfl

/-! ### storeBytes -/

@[simp] theorem State.storeBytes_pending (s : State) (a : Nat) (bs : List MByte) : (s.storeBytes a bs).pending = s.pending := rfl
@[simp] theorem State.storeBytes_free (s : State) (a : Nat) (bs : List MByte) : (s.storeBytes a bs).free = s.free := rfl
@[simp] theorem State.storeBytes_fuse (s : State) (a : Nat) (bs : List MByte) : (s.storeBytes a bs).fuse = s.fuse := rfl
@[simp] theorem State.storeBytes_memUnits (s : State) (a : Nat) (bs : List MByte) : (s.storeBytes a bs).memUnits = s.memUnits := rfl
@[simp] theorem State.storeBytes_pwin (s : State) (a : Nat) (bs : List MByte) : (s.storeBytes a bs).pwin = s.pwin := rfl
@[simp] theorem State.storeBytes_grbSelf (s : State) (a : Nat) (bs : List MByte) : (s.storeBytes a bs).grbSelf = s.grbSelf := rfl
@[simp] theorem State.storeBytes_cores (s : State) (a : Nat) (bs : List MByte) : (s.storeBytes a bs).cores = s.cores := rfl
@[simp] theorem State.storeBytes_prog (s : State) (a : Nat) (bs : List MByte) : (s.storeBytes a bs).prog = s.prog := rfl
@[simp] theorem State.storeBytes_run (s : State) (a : Nat) (bs : List MByte) : (s.storeBytes a bs).run = s.run := rfl
@[simp] theorem State.storeBytes_units (s : State) (a : Nat) (bs : List MByte) : (s.storeBytes a bs).units = s.units := rfl
@[simp] theorem State.storeBytes_gsems (s : State) (a : Nat) (bs : List MByte) : (s.storeBytes a bs).gsems = s.gsems := rfl
@[simp] theorem State.storeBytes_gsemErr (s : State) (a : Nat) (bs : List MByte) : (s.storeBytes a bs).gsemErr = s.gsemErr := rfl
@[simp] theorem State.storeBytes_mesh (s : State) (a : Nat) (bs : List MByte) : (s.storeBytes a bs).mesh = s.mesh := rfl
@[simp] theorem State.storeBytes_meshId (s : State) (a : Nat) (bs : List MByte) : (s.storeBytes a bs).meshId = s.meshId := rfl
@[simp] theorem State.storeBytes_ports (s : State) (a : Nat) (bs : List MByte) : (s.storeBytes a bs).ports = s.ports := rfl
@[simp] theorem State.storeBytes_grbCtl (s : State) (a : Nat) (bs : List MByte) : (s.storeBytes a bs).grbCtl = s.grbCtl := rfl
@[simp] theorem State.storeBytes_grbSelfValid (s : State) (a : Nat) (bs : List MByte) : (s.storeBytes a bs).grbSelfValid = s.grbSelfValid := rfl
@[simp] theorem State.storeBytes_tmoExp (s : State) (a : Nat) (bs : List MByte) : (s.storeBytes a bs).tmoExp = s.tmoExp := rfl
@[simp] theorem State.storeBytes_outbox (s : State) (a : Nat) (bs : List MByte) : (s.storeBytes a bs).outbox = s.outbox := rfl
@[simp] theorem State.storeBytes_remote (s : State) (a : Nat) (bs : List MByte) : (s.storeBytes a bs).remote = s.remote := rfl
@[simp] theorem State.storeBytes_remoteId (s : State) (a : Nat) (bs : List MByte) : (s.storeBytes a bs).remoteId = s.remoteId := rfl
@[simp] theorem State.storeBytes_incarn (s : State) (a : Nat) (bs : List MByte) : (s.storeBytes a bs).incarn = s.incarn := rfl
@[simp] theorem State.storeBytes_peers (s : State) (a : Nat) (bs : List MByte) : (s.storeBytes a bs).peers = s.peers := rfl
@[simp] theorem State.storeBytes_epoch (s : State) (a : Nat) (bs : List MByte) : (s.storeBytes a bs).epoch = s.epoch := rfl
@[simp] theorem State.storeBytes_seed (s : State) (a : Nat) (bs : List MByte) : (s.storeBytes a bs).seed = s.seed := rfl
@[simp] theorem State.storeBytes_hold (s : State) (a : Nat) (bs : List MByte) : (s.storeBytes a bs).hold = s.hold := rfl
@[simp] theorem State.storeBytes_crings (s : State) (a : Nat) (bs : List MByte) : (s.storeBytes a bs).crings = s.crings := rfl
@[simp] theorem State.storeBytes_erings (s : State) (a : Nat) (bs : List MByte) : (s.storeBytes a bs).erings = s.erings := rfl
@[simp] theorem State.storeBytes_seqs (s : State) (a : Nat) (bs : List MByte) : (s.storeBytes a bs).seqs = s.seqs := rfl
@[simp] theorem State.storeBytes_waitRecs (s : State) (a : Nat) (bs : List MByte) : (s.storeBytes a bs).waitRecs = s.waitRecs := rfl
@[simp] theorem State.storeBytes_cmds (s : State) (a : Nat) (bs : List MByte) : (s.storeBytes a bs).cmds = s.cmds := rfl
@[simp] theorem State.storeBytes_cmdId (s : State) (a : Nat) (bs : List MByte) : (s.storeBytes a bs).cmdId = s.cmdId := rfl
@[simp] theorem State.storeBytes_turn (s : State) (a : Nat) (bs : List MByte) : (s.storeBytes a bs).turn = s.turn := rfl
@[simp] theorem State.storeBytes_hostWrites (s : State) (a : Nat) (bs : List MByte) : (s.storeBytes a bs).hostWrites = s.hostWrites := rfl
@[simp] theorem State.storeBytes_linkDown (s : State) (a : Nat) (bs : List MByte) : (s.storeBytes a bs).linkDown = s.linkDown := rfl
@[simp] theorem State.storeBytes_ctx (s : State) (a : Nat) (bs : List MByte) : (s.storeBytes a bs).ctx = s.ctx := rfl
@[simp] theorem State.storeBytes_replacing (s : State) (a : Nat) (bs : List MByte) : (s.storeBytes a bs).replacing = s.replacing := rfl
@[simp] theorem State.storeBytes_memEccCtl (s : State) (a : Nat) (bs : List MByte) : (s.storeBytes a bs).memEccCtl = s.memEccCtl := rfl
@[simp] theorem State.storeBytes_writesOut (s : State) (a : Nat) (bs : List MByte) : (s.storeBytes a bs).writesOut = s.writesOut := rfl
@[simp] theorem State.storeBytes_regions (s : State) (a : Nat) (bs : List MByte) : (s.storeBytes a bs).regions = s.regions := rfl
@[simp] theorem State.storeBytes_clk (s : State) (a : Nat) (bs : List MByte) : (s.storeBytes a bs).clk = s.clk := rfl
@[simp] theorem State.storeBytes_boot (s : State) (a : Nat) (bs : List MByte) : (s.storeBytes a bs).boot = s.boot := rfl
@[simp] theorem State.storeBytes_meshRegs (s : State) (a : Nat) (bs : List MByte) : (s.storeBytes a bs).meshRegs = s.meshRegs := rfl
@[simp] theorem State.storeBytes_flash (s : State) (a : Nat) (bs : List MByte) : (s.storeBytes a bs).flash = s.flash := rfl
@[simp] theorem State.storeBytes_press (s : State) (a : Nat) (bs : List MByte) : (s.storeBytes a bs).press = s.press := rfl
@[simp] theorem State.storeBytes_dld (s : State) (a : Nat) (bs : List MByte) : (s.storeBytes a bs).dld = s.dld := rfl
@[simp] theorem State.storeBytes_shard (s : State) (a : Nat) (bs : List MByte) : (s.storeBytes a bs).shard = s.shard := rfl
@[simp] theorem State.storeBytes_lastRun (s : State) (a : Nat) (bs : List MByte) : (s.storeBytes a bs).lastRun = s.lastRun := rfl
@[simp] theorem State.storeBytes_cvs (s : State) (a : Nat) (bs : List MByte) : (s.storeBytes a bs).cvs = s.cvs := rfl
@[simp] theorem State.storeBytes_epochCmd (s : State) (a : Nat) (bs : List MByte) : (s.storeBytes a bs).epochCmd = s.epochCmd := rfl
@[simp] theorem State.storeBytes_epochQueue (s : State) (a : Nat) (bs : List MByte) : (s.storeBytes a bs).epochQueue = s.epochQueue := rfl
@[simp] theorem State.storeBytes_ingestQ (s : State) (a : Nat) (bs : List MByte) : (s.storeBytes a bs).ingestQ = s.ingestQ := rfl
@[simp] theorem State.storeBytes_engines (s : State) (a : Nat) (bs : List MByte) : (s.storeBytes a bs).engines = s.engines := rfl
@[simp] theorem State.storeBytes_crmErr (s : State) (a : Nat) (bs : List MByte) : (s.storeBytes a bs).crmErr = s.crmErr := rfl
@[simp] theorem State.storeBytes_clipsWritten (s : State) (a : Nat) (bs : List MByte) : (s.storeBytes a bs).clipsWritten = s.clipsWritten := rfl
@[simp] theorem State.storeBytes_clipsDropped (s : State) (a : Nat) (bs : List MByte) : (s.storeBytes a bs).clipsDropped = s.clipsDropped := rfl
@[simp] theorem State.storeBytes_noProgress (s : State) (a : Nat) (bs : List MByte) : (s.storeBytes a bs).noProgress = s.noProgress := rfl
@[simp] theorem State.storeBytes_maint (s : State) (a : Nat) (bs : List MByte) : (s.storeBytes a bs).maint = s.maint := rfl
@[simp] theorem State.storeBytes_hardLeft (s : State) (a : Nat) (bs : List MByte) : (s.storeBytes a bs).hardLeft = s.hardLeft := rfl
@[simp] theorem State.storeBytes_softReps (s : State) (a : Nat) (bs : List MByte) : (s.storeBytes a bs).softReps = s.softReps := rfl
@[simp] theorem State.storeBytes_postponed (s : State) (a : Nat) (bs : List MByte) : (s.storeBytes a bs).postponed = s.postponed := rfl
@[simp] theorem State.storeBytes_loopTest (s : State) (a : Nat) (bs : List MByte) : (s.storeBytes a bs).loopTest = s.loopTest := rfl
@[simp] theorem State.storeBytes_lbStatus (s : State) (a : Nat) (bs : List MByte) : (s.storeBytes a bs).lbStatus = s.lbStatus := rfl
@[simp] theorem State.storeBytes_reflect (s : State) (a : Nat) (bs : List MByte) : (s.storeBytes a bs).reflect = s.reflect := rfl
@[simp] theorem State.storeBytes_sec (s : State) (a : Nat) (bs : List MByte) : (s.storeBytes a bs).sec = s.sec := rfl
@[simp] theorem State.storeBytes_mgmt (s : State) (a : Nat) (bs : List MByte) : (s.storeBytes a bs).mgmt = s.mgmt := rfl
@[simp] theorem State.storeBytes_jtag (s : State) (a : Nat) (bs : List MByte) : (s.storeBytes a bs).jtag = s.jtag := rfl
@[simp] theorem State.storeBytes_rsv (s : State) (a : Nat) (bs : List MByte) : (s.storeBytes a bs).rsv = s.rsv := rfl
@[simp] theorem State.storeBytes_gsemNet (s : State) (a : Nat) (bs : List MByte) : (s.storeBytes a bs).gsemNet = s.gsemNet := rfl
@[simp] theorem State.storeBytes_gsemErr0 (s : State) (a : Nat) (bs : List MByte) : (s.storeBytes a bs).gsemErr0 = s.gsemErr0 := rfl
@[simp] theorem State.storeBytes_gsemSent (s : State) (a : Nat) (bs : List MByte) : (s.storeBytes a bs).gsemSent = s.gsemSent := rfl
@[simp] theorem State.storeBytes_hostBanks (s : State) (a : Nat) (bs : List MByte) : (s.storeBytes a bs).hostBanks = s.hostBanks := rfl
@[simp] theorem State.storeBytes_cfgWait (s : State) (a : Nat) (bs : List MByte) : (s.storeBytes a bs).cfgWait = s.cfgWait := rfl
@[simp] theorem State.storeBytes_writesIn (s : State) (a : Nat) (bs : List MByte) : (s.storeBytes a bs).writesIn = s.writesIn := rfl

/-! ### send -/

@[simp] theorem State.send_pending (s : State) (ps : List Packet) : (s.send ps).pending = s.pending := rfl
@[simp] theorem State.send_free (s : State) (ps : List Packet) : (s.send ps).free = s.free := rfl
@[simp] theorem State.send_fuse (s : State) (ps : List Packet) : (s.send ps).fuse = s.fuse := rfl
@[simp] theorem State.send_mem (s : State) (ps : List Packet) : (s.send ps).mem = s.mem := rfl
@[simp] theorem State.send_ecc (s : State) (ps : List Packet) : (s.send ps).ecc = s.ecc := rfl
@[simp] theorem State.send_bytePar (s : State) (ps : List Packet) : (s.send ps).bytePar = s.bytePar := rfl
@[simp] theorem State.send_memUnits (s : State) (ps : List Packet) : (s.send ps).memUnits = s.memUnits := rfl
@[simp] theorem State.send_pwin (s : State) (ps : List Packet) : (s.send ps).pwin = s.pwin := rfl
@[simp] theorem State.send_grbSelf (s : State) (ps : List Packet) : (s.send ps).grbSelf = s.grbSelf := rfl
@[simp] theorem State.send_cores (s : State) (ps : List Packet) : (s.send ps).cores = s.cores := rfl
@[simp] theorem State.send_prog (s : State) (ps : List Packet) : (s.send ps).prog = s.prog := rfl
@[simp] theorem State.send_run (s : State) (ps : List Packet) : (s.send ps).run = s.run := rfl
@[simp] theorem State.send_units (s : State) (ps : List Packet) : (s.send ps).units = s.units := rfl
@[simp] theorem State.send_gsems (s : State) (ps : List Packet) : (s.send ps).gsems = s.gsems := rfl
@[simp] theorem State.send_gsemErr (s : State) (ps : List Packet) : (s.send ps).gsemErr = s.gsemErr := rfl
@[simp] theorem State.send_ports (s : State) (ps : List Packet) : (s.send ps).ports = s.ports := rfl
@[simp] theorem State.send_grbCtl (s : State) (ps : List Packet) : (s.send ps).grbCtl = s.grbCtl := rfl
@[simp] theorem State.send_grbSelfValid (s : State) (ps : List Packet) : (s.send ps).grbSelfValid = s.grbSelfValid := rfl
@[simp] theorem State.send_tmoExp (s : State) (ps : List Packet) : (s.send ps).tmoExp = s.tmoExp := rfl
@[simp] theorem State.send_outbox (s : State) (ps : List Packet) : (s.send ps).outbox = s.outbox := rfl
@[simp] theorem State.send_remote (s : State) (ps : List Packet) : (s.send ps).remote = s.remote := rfl
@[simp] theorem State.send_remoteId (s : State) (ps : List Packet) : (s.send ps).remoteId = s.remoteId := rfl
@[simp] theorem State.send_incarn (s : State) (ps : List Packet) : (s.send ps).incarn = s.incarn := rfl
@[simp] theorem State.send_peers (s : State) (ps : List Packet) : (s.send ps).peers = s.peers := rfl
@[simp] theorem State.send_epoch (s : State) (ps : List Packet) : (s.send ps).epoch = s.epoch := rfl
@[simp] theorem State.send_seed (s : State) (ps : List Packet) : (s.send ps).seed = s.seed := rfl
@[simp] theorem State.send_hold (s : State) (ps : List Packet) : (s.send ps).hold = s.hold := rfl
@[simp] theorem State.send_crings (s : State) (ps : List Packet) : (s.send ps).crings = s.crings := rfl
@[simp] theorem State.send_erings (s : State) (ps : List Packet) : (s.send ps).erings = s.erings := rfl
@[simp] theorem State.send_seqs (s : State) (ps : List Packet) : (s.send ps).seqs = s.seqs := rfl
@[simp] theorem State.send_waitRecs (s : State) (ps : List Packet) : (s.send ps).waitRecs = s.waitRecs := rfl
@[simp] theorem State.send_cmds (s : State) (ps : List Packet) : (s.send ps).cmds = s.cmds := rfl
@[simp] theorem State.send_cmdId (s : State) (ps : List Packet) : (s.send ps).cmdId = s.cmdId := rfl
@[simp] theorem State.send_turn (s : State) (ps : List Packet) : (s.send ps).turn = s.turn := rfl
@[simp] theorem State.send_hostWrites (s : State) (ps : List Packet) : (s.send ps).hostWrites = s.hostWrites := rfl
@[simp] theorem State.send_linkDown (s : State) (ps : List Packet) : (s.send ps).linkDown = s.linkDown := rfl
@[simp] theorem State.send_ctx (s : State) (ps : List Packet) : (s.send ps).ctx = s.ctx := rfl
@[simp] theorem State.send_replacing (s : State) (ps : List Packet) : (s.send ps).replacing = s.replacing := rfl
@[simp] theorem State.send_memEccCtl (s : State) (ps : List Packet) : (s.send ps).memEccCtl = s.memEccCtl := rfl
@[simp] theorem State.send_writesOut (s : State) (ps : List Packet) : (s.send ps).writesOut = s.writesOut := rfl
@[simp] theorem State.send_regions (s : State) (ps : List Packet) : (s.send ps).regions = s.regions := rfl
@[simp] theorem State.send_clk (s : State) (ps : List Packet) : (s.send ps).clk = s.clk := rfl
@[simp] theorem State.send_boot (s : State) (ps : List Packet) : (s.send ps).boot = s.boot := rfl
@[simp] theorem State.send_meshRegs (s : State) (ps : List Packet) : (s.send ps).meshRegs = s.meshRegs := rfl
@[simp] theorem State.send_flash (s : State) (ps : List Packet) : (s.send ps).flash = s.flash := rfl
@[simp] theorem State.send_press (s : State) (ps : List Packet) : (s.send ps).press = s.press := rfl
@[simp] theorem State.send_dld (s : State) (ps : List Packet) : (s.send ps).dld = s.dld := rfl
@[simp] theorem State.send_shard (s : State) (ps : List Packet) : (s.send ps).shard = s.shard := rfl
@[simp] theorem State.send_lastRun (s : State) (ps : List Packet) : (s.send ps).lastRun = s.lastRun := rfl
@[simp] theorem State.send_cvs (s : State) (ps : List Packet) : (s.send ps).cvs = s.cvs := rfl
@[simp] theorem State.send_epochCmd (s : State) (ps : List Packet) : (s.send ps).epochCmd = s.epochCmd := rfl
@[simp] theorem State.send_epochQueue (s : State) (ps : List Packet) : (s.send ps).epochQueue = s.epochQueue := rfl
@[simp] theorem State.send_ingestQ (s : State) (ps : List Packet) : (s.send ps).ingestQ = s.ingestQ := rfl
@[simp] theorem State.send_engines (s : State) (ps : List Packet) : (s.send ps).engines = s.engines := rfl
@[simp] theorem State.send_crmErr (s : State) (ps : List Packet) : (s.send ps).crmErr = s.crmErr := rfl
@[simp] theorem State.send_clipsWritten (s : State) (ps : List Packet) : (s.send ps).clipsWritten = s.clipsWritten := rfl
@[simp] theorem State.send_clipsDropped (s : State) (ps : List Packet) : (s.send ps).clipsDropped = s.clipsDropped := rfl
@[simp] theorem State.send_noProgress (s : State) (ps : List Packet) : (s.send ps).noProgress = s.noProgress := rfl
@[simp] theorem State.send_maint (s : State) (ps : List Packet) : (s.send ps).maint = s.maint := rfl
@[simp] theorem State.send_hardLeft (s : State) (ps : List Packet) : (s.send ps).hardLeft = s.hardLeft := rfl
@[simp] theorem State.send_softReps (s : State) (ps : List Packet) : (s.send ps).softReps = s.softReps := rfl
@[simp] theorem State.send_postponed (s : State) (ps : List Packet) : (s.send ps).postponed = s.postponed := rfl
@[simp] theorem State.send_loopTest (s : State) (ps : List Packet) : (s.send ps).loopTest = s.loopTest := rfl
@[simp] theorem State.send_lbStatus (s : State) (ps : List Packet) : (s.send ps).lbStatus = s.lbStatus := rfl
@[simp] theorem State.send_reflect (s : State) (ps : List Packet) : (s.send ps).reflect = s.reflect := rfl
@[simp] theorem State.send_sec (s : State) (ps : List Packet) : (s.send ps).sec = s.sec := rfl
@[simp] theorem State.send_mgmt (s : State) (ps : List Packet) : (s.send ps).mgmt = s.mgmt := rfl
@[simp] theorem State.send_jtag (s : State) (ps : List Packet) : (s.send ps).jtag = s.jtag := rfl
@[simp] theorem State.send_rsv (s : State) (ps : List Packet) : (s.send ps).rsv = s.rsv := rfl
@[simp] theorem State.send_gsemNet (s : State) (ps : List Packet) : (s.send ps).gsemNet = s.gsemNet := rfl
@[simp] theorem State.send_gsemErr0 (s : State) (ps : List Packet) : (s.send ps).gsemErr0 = s.gsemErr0 := rfl
@[simp] theorem State.send_gsemSent (s : State) (ps : List Packet) : (s.send ps).gsemSent = s.gsemSent := rfl
@[simp] theorem State.send_hostBanks (s : State) (ps : List Packet) : (s.send ps).hostBanks = s.hostBanks := rfl
@[simp] theorem State.send_cfgWait (s : State) (ps : List Packet) : (s.send ps).cfgWait = s.cfgWait := rfl
@[simp] theorem State.send_writesIn (s : State) (ps : List Packet) : (s.send ps).writesIn = s.writesIn := rfl

/-! ### setCring -/

@[simp] theorem State.setCring_pending (s : State) (r : Nat) (k : CRing) : (s.setCring r k).pending = s.pending := rfl
@[simp] theorem State.setCring_free (s : State) (r : Nat) (k : CRing) : (s.setCring r k).free = s.free := rfl
@[simp] theorem State.setCring_fuse (s : State) (r : Nat) (k : CRing) : (s.setCring r k).fuse = s.fuse := rfl
@[simp] theorem State.setCring_mem (s : State) (r : Nat) (k : CRing) : (s.setCring r k).mem = s.mem := rfl
@[simp] theorem State.setCring_ecc (s : State) (r : Nat) (k : CRing) : (s.setCring r k).ecc = s.ecc := rfl
@[simp] theorem State.setCring_bytePar (s : State) (r : Nat) (k : CRing) : (s.setCring r k).bytePar = s.bytePar := rfl
@[simp] theorem State.setCring_memUnits (s : State) (r : Nat) (k : CRing) : (s.setCring r k).memUnits = s.memUnits := rfl
@[simp] theorem State.setCring_pwin (s : State) (r : Nat) (k : CRing) : (s.setCring r k).pwin = s.pwin := rfl
@[simp] theorem State.setCring_grbSelf (s : State) (r : Nat) (k : CRing) : (s.setCring r k).grbSelf = s.grbSelf := rfl
@[simp] theorem State.setCring_cores (s : State) (r : Nat) (k : CRing) : (s.setCring r k).cores = s.cores := rfl
@[simp] theorem State.setCring_prog (s : State) (r : Nat) (k : CRing) : (s.setCring r k).prog = s.prog := rfl
@[simp] theorem State.setCring_run (s : State) (r : Nat) (k : CRing) : (s.setCring r k).run = s.run := rfl
@[simp] theorem State.setCring_units (s : State) (r : Nat) (k : CRing) : (s.setCring r k).units = s.units := rfl
@[simp] theorem State.setCring_gsems (s : State) (r : Nat) (k : CRing) : (s.setCring r k).gsems = s.gsems := rfl
@[simp] theorem State.setCring_gsemErr (s : State) (r : Nat) (k : CRing) : (s.setCring r k).gsemErr = s.gsemErr := rfl
@[simp] theorem State.setCring_mesh (s : State) (r : Nat) (k : CRing) : (s.setCring r k).mesh = s.mesh := rfl
@[simp] theorem State.setCring_meshId (s : State) (r : Nat) (k : CRing) : (s.setCring r k).meshId = s.meshId := rfl
@[simp] theorem State.setCring_ports (s : State) (r : Nat) (k : CRing) : (s.setCring r k).ports = s.ports := rfl
@[simp] theorem State.setCring_grbCtl (s : State) (r : Nat) (k : CRing) : (s.setCring r k).grbCtl = s.grbCtl := rfl
@[simp] theorem State.setCring_grbSelfValid (s : State) (r : Nat) (k : CRing) : (s.setCring r k).grbSelfValid = s.grbSelfValid := rfl
@[simp] theorem State.setCring_tmoExp (s : State) (r : Nat) (k : CRing) : (s.setCring r k).tmoExp = s.tmoExp := rfl
@[simp] theorem State.setCring_outbox (s : State) (r : Nat) (k : CRing) : (s.setCring r k).outbox = s.outbox := rfl
@[simp] theorem State.setCring_remote (s : State) (r : Nat) (k : CRing) : (s.setCring r k).remote = s.remote := rfl
@[simp] theorem State.setCring_remoteId (s : State) (r : Nat) (k : CRing) : (s.setCring r k).remoteId = s.remoteId := rfl
@[simp] theorem State.setCring_incarn (s : State) (r : Nat) (k : CRing) : (s.setCring r k).incarn = s.incarn := rfl
@[simp] theorem State.setCring_peers (s : State) (r : Nat) (k : CRing) : (s.setCring r k).peers = s.peers := rfl
@[simp] theorem State.setCring_epoch (s : State) (r : Nat) (k : CRing) : (s.setCring r k).epoch = s.epoch := rfl
@[simp] theorem State.setCring_seed (s : State) (r : Nat) (k : CRing) : (s.setCring r k).seed = s.seed := rfl
@[simp] theorem State.setCring_hold (s : State) (r : Nat) (k : CRing) : (s.setCring r k).hold = s.hold := rfl
@[simp] theorem State.setCring_erings (s : State) (r : Nat) (k : CRing) : (s.setCring r k).erings = s.erings := rfl
@[simp] theorem State.setCring_seqs (s : State) (r : Nat) (k : CRing) : (s.setCring r k).seqs = s.seqs := rfl
@[simp] theorem State.setCring_waitRecs (s : State) (r : Nat) (k : CRing) : (s.setCring r k).waitRecs = s.waitRecs := rfl
@[simp] theorem State.setCring_cmds (s : State) (r : Nat) (k : CRing) : (s.setCring r k).cmds = s.cmds := rfl
@[simp] theorem State.setCring_cmdId (s : State) (r : Nat) (k : CRing) : (s.setCring r k).cmdId = s.cmdId := rfl
@[simp] theorem State.setCring_turn (s : State) (r : Nat) (k : CRing) : (s.setCring r k).turn = s.turn := rfl
@[simp] theorem State.setCring_hostWrites (s : State) (r : Nat) (k : CRing) : (s.setCring r k).hostWrites = s.hostWrites := rfl
@[simp] theorem State.setCring_linkDown (s : State) (r : Nat) (k : CRing) : (s.setCring r k).linkDown = s.linkDown := rfl
@[simp] theorem State.setCring_ctx (s : State) (r : Nat) (k : CRing) : (s.setCring r k).ctx = s.ctx := rfl
@[simp] theorem State.setCring_replacing (s : State) (r : Nat) (k : CRing) : (s.setCring r k).replacing = s.replacing := rfl
@[simp] theorem State.setCring_memEccCtl (s : State) (r : Nat) (k : CRing) : (s.setCring r k).memEccCtl = s.memEccCtl := rfl
@[simp] theorem State.setCring_writesOut (s : State) (r : Nat) (k : CRing) : (s.setCring r k).writesOut = s.writesOut := rfl
@[simp] theorem State.setCring_regions (s : State) (r : Nat) (k : CRing) : (s.setCring r k).regions = s.regions := rfl
@[simp] theorem State.setCring_clk (s : State) (r : Nat) (k : CRing) : (s.setCring r k).clk = s.clk := rfl
@[simp] theorem State.setCring_boot (s : State) (r : Nat) (k : CRing) : (s.setCring r k).boot = s.boot := rfl
@[simp] theorem State.setCring_meshRegs (s : State) (r : Nat) (k : CRing) : (s.setCring r k).meshRegs = s.meshRegs := rfl
@[simp] theorem State.setCring_flash (s : State) (r : Nat) (k : CRing) : (s.setCring r k).flash = s.flash := rfl
@[simp] theorem State.setCring_press (s : State) (r : Nat) (k : CRing) : (s.setCring r k).press = s.press := rfl
@[simp] theorem State.setCring_dld (s : State) (r : Nat) (k : CRing) : (s.setCring r k).dld = s.dld := rfl
@[simp] theorem State.setCring_shard (s : State) (r : Nat) (k : CRing) : (s.setCring r k).shard = s.shard := rfl
@[simp] theorem State.setCring_lastRun (s : State) (r : Nat) (k : CRing) : (s.setCring r k).lastRun = s.lastRun := rfl
@[simp] theorem State.setCring_cvs (s : State) (r : Nat) (k : CRing) : (s.setCring r k).cvs = s.cvs := rfl
@[simp] theorem State.setCring_epochCmd (s : State) (r : Nat) (k : CRing) : (s.setCring r k).epochCmd = s.epochCmd := rfl
@[simp] theorem State.setCring_epochQueue (s : State) (r : Nat) (k : CRing) : (s.setCring r k).epochQueue = s.epochQueue := rfl
@[simp] theorem State.setCring_ingestQ (s : State) (r : Nat) (k : CRing) : (s.setCring r k).ingestQ = s.ingestQ := rfl
@[simp] theorem State.setCring_engines (s : State) (r : Nat) (k : CRing) : (s.setCring r k).engines = s.engines := rfl
@[simp] theorem State.setCring_crmErr (s : State) (r : Nat) (k : CRing) : (s.setCring r k).crmErr = s.crmErr := rfl
@[simp] theorem State.setCring_clipsWritten (s : State) (r : Nat) (k : CRing) : (s.setCring r k).clipsWritten = s.clipsWritten := rfl
@[simp] theorem State.setCring_clipsDropped (s : State) (r : Nat) (k : CRing) : (s.setCring r k).clipsDropped = s.clipsDropped := rfl
@[simp] theorem State.setCring_noProgress (s : State) (r : Nat) (k : CRing) : (s.setCring r k).noProgress = s.noProgress := rfl
@[simp] theorem State.setCring_maint (s : State) (r : Nat) (k : CRing) : (s.setCring r k).maint = s.maint := rfl
@[simp] theorem State.setCring_hardLeft (s : State) (r : Nat) (k : CRing) : (s.setCring r k).hardLeft = s.hardLeft := rfl
@[simp] theorem State.setCring_softReps (s : State) (r : Nat) (k : CRing) : (s.setCring r k).softReps = s.softReps := rfl
@[simp] theorem State.setCring_postponed (s : State) (r : Nat) (k : CRing) : (s.setCring r k).postponed = s.postponed := rfl
@[simp] theorem State.setCring_loopTest (s : State) (r : Nat) (k : CRing) : (s.setCring r k).loopTest = s.loopTest := rfl
@[simp] theorem State.setCring_lbStatus (s : State) (r : Nat) (k : CRing) : (s.setCring r k).lbStatus = s.lbStatus := rfl
@[simp] theorem State.setCring_reflect (s : State) (r : Nat) (k : CRing) : (s.setCring r k).reflect = s.reflect := rfl
@[simp] theorem State.setCring_sec (s : State) (r : Nat) (k : CRing) : (s.setCring r k).sec = s.sec := rfl
@[simp] theorem State.setCring_mgmt (s : State) (r : Nat) (k : CRing) : (s.setCring r k).mgmt = s.mgmt := rfl
@[simp] theorem State.setCring_jtag (s : State) (r : Nat) (k : CRing) : (s.setCring r k).jtag = s.jtag := rfl
@[simp] theorem State.setCring_rsv (s : State) (r : Nat) (k : CRing) : (s.setCring r k).rsv = s.rsv := rfl
@[simp] theorem State.setCring_gsemNet (s : State) (r : Nat) (k : CRing) : (s.setCring r k).gsemNet = s.gsemNet := rfl
@[simp] theorem State.setCring_gsemErr0 (s : State) (r : Nat) (k : CRing) : (s.setCring r k).gsemErr0 = s.gsemErr0 := rfl
@[simp] theorem State.setCring_gsemSent (s : State) (r : Nat) (k : CRing) : (s.setCring r k).gsemSent = s.gsemSent := rfl
@[simp] theorem State.setCring_hostBanks (s : State) (r : Nat) (k : CRing) : (s.setCring r k).hostBanks = s.hostBanks := rfl
@[simp] theorem State.setCring_cfgWait (s : State) (r : Nat) (k : CRing) : (s.setCring r k).cfgWait = s.cfgWait := rfl
@[simp] theorem State.setCring_writesIn (s : State) (r : Nat) (k : CRing) : (s.setCring r k).writesIn = s.writesIn := rfl

/-! ### setEring -/

@[simp] theorem State.setEring_pending (s : State) (r : Nat) (k : ERing) : (s.setEring r k).pending = s.pending := rfl
@[simp] theorem State.setEring_free (s : State) (r : Nat) (k : ERing) : (s.setEring r k).free = s.free := rfl
@[simp] theorem State.setEring_fuse (s : State) (r : Nat) (k : ERing) : (s.setEring r k).fuse = s.fuse := rfl
@[simp] theorem State.setEring_mem (s : State) (r : Nat) (k : ERing) : (s.setEring r k).mem = s.mem := rfl
@[simp] theorem State.setEring_ecc (s : State) (r : Nat) (k : ERing) : (s.setEring r k).ecc = s.ecc := rfl
@[simp] theorem State.setEring_bytePar (s : State) (r : Nat) (k : ERing) : (s.setEring r k).bytePar = s.bytePar := rfl
@[simp] theorem State.setEring_memUnits (s : State) (r : Nat) (k : ERing) : (s.setEring r k).memUnits = s.memUnits := rfl
@[simp] theorem State.setEring_pwin (s : State) (r : Nat) (k : ERing) : (s.setEring r k).pwin = s.pwin := rfl
@[simp] theorem State.setEring_grbSelf (s : State) (r : Nat) (k : ERing) : (s.setEring r k).grbSelf = s.grbSelf := rfl
@[simp] theorem State.setEring_cores (s : State) (r : Nat) (k : ERing) : (s.setEring r k).cores = s.cores := rfl
@[simp] theorem State.setEring_prog (s : State) (r : Nat) (k : ERing) : (s.setEring r k).prog = s.prog := rfl
@[simp] theorem State.setEring_run (s : State) (r : Nat) (k : ERing) : (s.setEring r k).run = s.run := rfl
@[simp] theorem State.setEring_units (s : State) (r : Nat) (k : ERing) : (s.setEring r k).units = s.units := rfl
@[simp] theorem State.setEring_gsems (s : State) (r : Nat) (k : ERing) : (s.setEring r k).gsems = s.gsems := rfl
@[simp] theorem State.setEring_gsemErr (s : State) (r : Nat) (k : ERing) : (s.setEring r k).gsemErr = s.gsemErr := rfl
@[simp] theorem State.setEring_mesh (s : State) (r : Nat) (k : ERing) : (s.setEring r k).mesh = s.mesh := rfl
@[simp] theorem State.setEring_meshId (s : State) (r : Nat) (k : ERing) : (s.setEring r k).meshId = s.meshId := rfl
@[simp] theorem State.setEring_ports (s : State) (r : Nat) (k : ERing) : (s.setEring r k).ports = s.ports := rfl
@[simp] theorem State.setEring_grbCtl (s : State) (r : Nat) (k : ERing) : (s.setEring r k).grbCtl = s.grbCtl := rfl
@[simp] theorem State.setEring_grbSelfValid (s : State) (r : Nat) (k : ERing) : (s.setEring r k).grbSelfValid = s.grbSelfValid := rfl
@[simp] theorem State.setEring_tmoExp (s : State) (r : Nat) (k : ERing) : (s.setEring r k).tmoExp = s.tmoExp := rfl
@[simp] theorem State.setEring_outbox (s : State) (r : Nat) (k : ERing) : (s.setEring r k).outbox = s.outbox := rfl
@[simp] theorem State.setEring_remote (s : State) (r : Nat) (k : ERing) : (s.setEring r k).remote = s.remote := rfl
@[simp] theorem State.setEring_remoteId (s : State) (r : Nat) (k : ERing) : (s.setEring r k).remoteId = s.remoteId := rfl
@[simp] theorem State.setEring_incarn (s : State) (r : Nat) (k : ERing) : (s.setEring r k).incarn = s.incarn := rfl
@[simp] theorem State.setEring_peers (s : State) (r : Nat) (k : ERing) : (s.setEring r k).peers = s.peers := rfl
@[simp] theorem State.setEring_epoch (s : State) (r : Nat) (k : ERing) : (s.setEring r k).epoch = s.epoch := rfl
@[simp] theorem State.setEring_seed (s : State) (r : Nat) (k : ERing) : (s.setEring r k).seed = s.seed := rfl
@[simp] theorem State.setEring_hold (s : State) (r : Nat) (k : ERing) : (s.setEring r k).hold = s.hold := rfl
@[simp] theorem State.setEring_crings (s : State) (r : Nat) (k : ERing) : (s.setEring r k).crings = s.crings := rfl
@[simp] theorem State.setEring_seqs (s : State) (r : Nat) (k : ERing) : (s.setEring r k).seqs = s.seqs := rfl
@[simp] theorem State.setEring_waitRecs (s : State) (r : Nat) (k : ERing) : (s.setEring r k).waitRecs = s.waitRecs := rfl
@[simp] theorem State.setEring_cmds (s : State) (r : Nat) (k : ERing) : (s.setEring r k).cmds = s.cmds := rfl
@[simp] theorem State.setEring_cmdId (s : State) (r : Nat) (k : ERing) : (s.setEring r k).cmdId = s.cmdId := rfl
@[simp] theorem State.setEring_turn (s : State) (r : Nat) (k : ERing) : (s.setEring r k).turn = s.turn := rfl
@[simp] theorem State.setEring_hostWrites (s : State) (r : Nat) (k : ERing) : (s.setEring r k).hostWrites = s.hostWrites := rfl
@[simp] theorem State.setEring_linkDown (s : State) (r : Nat) (k : ERing) : (s.setEring r k).linkDown = s.linkDown := rfl
@[simp] theorem State.setEring_ctx (s : State) (r : Nat) (k : ERing) : (s.setEring r k).ctx = s.ctx := rfl
@[simp] theorem State.setEring_replacing (s : State) (r : Nat) (k : ERing) : (s.setEring r k).replacing = s.replacing := rfl
@[simp] theorem State.setEring_memEccCtl (s : State) (r : Nat) (k : ERing) : (s.setEring r k).memEccCtl = s.memEccCtl := rfl
@[simp] theorem State.setEring_writesOut (s : State) (r : Nat) (k : ERing) : (s.setEring r k).writesOut = s.writesOut := rfl
@[simp] theorem State.setEring_regions (s : State) (r : Nat) (k : ERing) : (s.setEring r k).regions = s.regions := rfl
@[simp] theorem State.setEring_clk (s : State) (r : Nat) (k : ERing) : (s.setEring r k).clk = s.clk := rfl
@[simp] theorem State.setEring_boot (s : State) (r : Nat) (k : ERing) : (s.setEring r k).boot = s.boot := rfl
@[simp] theorem State.setEring_meshRegs (s : State) (r : Nat) (k : ERing) : (s.setEring r k).meshRegs = s.meshRegs := rfl
@[simp] theorem State.setEring_flash (s : State) (r : Nat) (k : ERing) : (s.setEring r k).flash = s.flash := rfl
@[simp] theorem State.setEring_press (s : State) (r : Nat) (k : ERing) : (s.setEring r k).press = s.press := rfl
@[simp] theorem State.setEring_dld (s : State) (r : Nat) (k : ERing) : (s.setEring r k).dld = s.dld := rfl
@[simp] theorem State.setEring_shard (s : State) (r : Nat) (k : ERing) : (s.setEring r k).shard = s.shard := rfl
@[simp] theorem State.setEring_lastRun (s : State) (r : Nat) (k : ERing) : (s.setEring r k).lastRun = s.lastRun := rfl
@[simp] theorem State.setEring_cvs (s : State) (r : Nat) (k : ERing) : (s.setEring r k).cvs = s.cvs := rfl
@[simp] theorem State.setEring_epochCmd (s : State) (r : Nat) (k : ERing) : (s.setEring r k).epochCmd = s.epochCmd := rfl
@[simp] theorem State.setEring_epochQueue (s : State) (r : Nat) (k : ERing) : (s.setEring r k).epochQueue = s.epochQueue := rfl
@[simp] theorem State.setEring_ingestQ (s : State) (r : Nat) (k : ERing) : (s.setEring r k).ingestQ = s.ingestQ := rfl
@[simp] theorem State.setEring_engines (s : State) (r : Nat) (k : ERing) : (s.setEring r k).engines = s.engines := rfl
@[simp] theorem State.setEring_crmErr (s : State) (r : Nat) (k : ERing) : (s.setEring r k).crmErr = s.crmErr := rfl
@[simp] theorem State.setEring_clipsWritten (s : State) (r : Nat) (k : ERing) : (s.setEring r k).clipsWritten = s.clipsWritten := rfl
@[simp] theorem State.setEring_clipsDropped (s : State) (r : Nat) (k : ERing) : (s.setEring r k).clipsDropped = s.clipsDropped := rfl
@[simp] theorem State.setEring_noProgress (s : State) (r : Nat) (k : ERing) : (s.setEring r k).noProgress = s.noProgress := rfl
@[simp] theorem State.setEring_maint (s : State) (r : Nat) (k : ERing) : (s.setEring r k).maint = s.maint := rfl
@[simp] theorem State.setEring_hardLeft (s : State) (r : Nat) (k : ERing) : (s.setEring r k).hardLeft = s.hardLeft := rfl
@[simp] theorem State.setEring_softReps (s : State) (r : Nat) (k : ERing) : (s.setEring r k).softReps = s.softReps := rfl
@[simp] theorem State.setEring_postponed (s : State) (r : Nat) (k : ERing) : (s.setEring r k).postponed = s.postponed := rfl
@[simp] theorem State.setEring_loopTest (s : State) (r : Nat) (k : ERing) : (s.setEring r k).loopTest = s.loopTest := rfl
@[simp] theorem State.setEring_lbStatus (s : State) (r : Nat) (k : ERing) : (s.setEring r k).lbStatus = s.lbStatus := rfl
@[simp] theorem State.setEring_reflect (s : State) (r : Nat) (k : ERing) : (s.setEring r k).reflect = s.reflect := rfl
@[simp] theorem State.setEring_sec (s : State) (r : Nat) (k : ERing) : (s.setEring r k).sec = s.sec := rfl
@[simp] theorem State.setEring_mgmt (s : State) (r : Nat) (k : ERing) : (s.setEring r k).mgmt = s.mgmt := rfl
@[simp] theorem State.setEring_jtag (s : State) (r : Nat) (k : ERing) : (s.setEring r k).jtag = s.jtag := rfl
@[simp] theorem State.setEring_rsv (s : State) (r : Nat) (k : ERing) : (s.setEring r k).rsv = s.rsv := rfl
@[simp] theorem State.setEring_gsemNet (s : State) (r : Nat) (k : ERing) : (s.setEring r k).gsemNet = s.gsemNet := rfl
@[simp] theorem State.setEring_gsemErr0 (s : State) (r : Nat) (k : ERing) : (s.setEring r k).gsemErr0 = s.gsemErr0 := rfl
@[simp] theorem State.setEring_gsemSent (s : State) (r : Nat) (k : ERing) : (s.setEring r k).gsemSent = s.gsemSent := rfl
@[simp] theorem State.setEring_hostBanks (s : State) (r : Nat) (k : ERing) : (s.setEring r k).hostBanks = s.hostBanks := rfl
@[simp] theorem State.setEring_cfgWait (s : State) (r : Nat) (k : ERing) : (s.setEring r k).cfgWait = s.cfgWait := rfl
@[simp] theorem State.setEring_writesIn (s : State) (r : Nat) (k : ERing) : (s.setEring r k).writesIn = s.writesIn := rfl

/-! ### modCmd -/

@[simp] theorem State.modCmd_pending (s : State) (i : Nat) (f : Cmd → Cmd) : (s.modCmd i f).pending = s.pending := rfl
@[simp] theorem State.modCmd_free (s : State) (i : Nat) (f : Cmd → Cmd) : (s.modCmd i f).free = s.free := rfl
@[simp] theorem State.modCmd_fuse (s : State) (i : Nat) (f : Cmd → Cmd) : (s.modCmd i f).fuse = s.fuse := rfl
@[simp] theorem State.modCmd_mem (s : State) (i : Nat) (f : Cmd → Cmd) : (s.modCmd i f).mem = s.mem := rfl
@[simp] theorem State.modCmd_ecc (s : State) (i : Nat) (f : Cmd → Cmd) : (s.modCmd i f).ecc = s.ecc := rfl
@[simp] theorem State.modCmd_bytePar (s : State) (i : Nat) (f : Cmd → Cmd) : (s.modCmd i f).bytePar = s.bytePar := rfl
@[simp] theorem State.modCmd_memUnits (s : State) (i : Nat) (f : Cmd → Cmd) : (s.modCmd i f).memUnits = s.memUnits := rfl
@[simp] theorem State.modCmd_pwin (s : State) (i : Nat) (f : Cmd → Cmd) : (s.modCmd i f).pwin = s.pwin := rfl
@[simp] theorem State.modCmd_grbSelf (s : State) (i : Nat) (f : Cmd → Cmd) : (s.modCmd i f).grbSelf = s.grbSelf := rfl
@[simp] theorem State.modCmd_cores (s : State) (i : Nat) (f : Cmd → Cmd) : (s.modCmd i f).cores = s.cores := rfl
@[simp] theorem State.modCmd_prog (s : State) (i : Nat) (f : Cmd → Cmd) : (s.modCmd i f).prog = s.prog := rfl
@[simp] theorem State.modCmd_run (s : State) (i : Nat) (f : Cmd → Cmd) : (s.modCmd i f).run = s.run := rfl
@[simp] theorem State.modCmd_units (s : State) (i : Nat) (f : Cmd → Cmd) : (s.modCmd i f).units = s.units := rfl
@[simp] theorem State.modCmd_gsems (s : State) (i : Nat) (f : Cmd → Cmd) : (s.modCmd i f).gsems = s.gsems := rfl
@[simp] theorem State.modCmd_gsemErr (s : State) (i : Nat) (f : Cmd → Cmd) : (s.modCmd i f).gsemErr = s.gsemErr := rfl
@[simp] theorem State.modCmd_mesh (s : State) (i : Nat) (f : Cmd → Cmd) : (s.modCmd i f).mesh = s.mesh := rfl
@[simp] theorem State.modCmd_meshId (s : State) (i : Nat) (f : Cmd → Cmd) : (s.modCmd i f).meshId = s.meshId := rfl
@[simp] theorem State.modCmd_ports (s : State) (i : Nat) (f : Cmd → Cmd) : (s.modCmd i f).ports = s.ports := rfl
@[simp] theorem State.modCmd_grbCtl (s : State) (i : Nat) (f : Cmd → Cmd) : (s.modCmd i f).grbCtl = s.grbCtl := rfl
@[simp] theorem State.modCmd_grbSelfValid (s : State) (i : Nat) (f : Cmd → Cmd) : (s.modCmd i f).grbSelfValid = s.grbSelfValid := rfl
@[simp] theorem State.modCmd_tmoExp (s : State) (i : Nat) (f : Cmd → Cmd) : (s.modCmd i f).tmoExp = s.tmoExp := rfl
@[simp] theorem State.modCmd_outbox (s : State) (i : Nat) (f : Cmd → Cmd) : (s.modCmd i f).outbox = s.outbox := rfl
@[simp] theorem State.modCmd_remote (s : State) (i : Nat) (f : Cmd → Cmd) : (s.modCmd i f).remote = s.remote := rfl
@[simp] theorem State.modCmd_remoteId (s : State) (i : Nat) (f : Cmd → Cmd) : (s.modCmd i f).remoteId = s.remoteId := rfl
@[simp] theorem State.modCmd_incarn (s : State) (i : Nat) (f : Cmd → Cmd) : (s.modCmd i f).incarn = s.incarn := rfl
@[simp] theorem State.modCmd_peers (s : State) (i : Nat) (f : Cmd → Cmd) : (s.modCmd i f).peers = s.peers := rfl
@[simp] theorem State.modCmd_epoch (s : State) (i : Nat) (f : Cmd → Cmd) : (s.modCmd i f).epoch = s.epoch := rfl
@[simp] theorem State.modCmd_seed (s : State) (i : Nat) (f : Cmd → Cmd) : (s.modCmd i f).seed = s.seed := rfl
@[simp] theorem State.modCmd_hold (s : State) (i : Nat) (f : Cmd → Cmd) : (s.modCmd i f).hold = s.hold := rfl
@[simp] theorem State.modCmd_crings (s : State) (i : Nat) (f : Cmd → Cmd) : (s.modCmd i f).crings = s.crings := rfl
@[simp] theorem State.modCmd_erings (s : State) (i : Nat) (f : Cmd → Cmd) : (s.modCmd i f).erings = s.erings := rfl
@[simp] theorem State.modCmd_seqs (s : State) (i : Nat) (f : Cmd → Cmd) : (s.modCmd i f).seqs = s.seqs := rfl
@[simp] theorem State.modCmd_waitRecs (s : State) (i : Nat) (f : Cmd → Cmd) : (s.modCmd i f).waitRecs = s.waitRecs := rfl
@[simp] theorem State.modCmd_cmdId (s : State) (i : Nat) (f : Cmd → Cmd) : (s.modCmd i f).cmdId = s.cmdId := rfl
@[simp] theorem State.modCmd_turn (s : State) (i : Nat) (f : Cmd → Cmd) : (s.modCmd i f).turn = s.turn := rfl
@[simp] theorem State.modCmd_hostWrites (s : State) (i : Nat) (f : Cmd → Cmd) : (s.modCmd i f).hostWrites = s.hostWrites := rfl
@[simp] theorem State.modCmd_linkDown (s : State) (i : Nat) (f : Cmd → Cmd) : (s.modCmd i f).linkDown = s.linkDown := rfl
@[simp] theorem State.modCmd_ctx (s : State) (i : Nat) (f : Cmd → Cmd) : (s.modCmd i f).ctx = s.ctx := rfl
@[simp] theorem State.modCmd_replacing (s : State) (i : Nat) (f : Cmd → Cmd) : (s.modCmd i f).replacing = s.replacing := rfl
@[simp] theorem State.modCmd_memEccCtl (s : State) (i : Nat) (f : Cmd → Cmd) : (s.modCmd i f).memEccCtl = s.memEccCtl := rfl
@[simp] theorem State.modCmd_writesOut (s : State) (i : Nat) (f : Cmd → Cmd) : (s.modCmd i f).writesOut = s.writesOut := rfl
@[simp] theorem State.modCmd_regions (s : State) (i : Nat) (f : Cmd → Cmd) : (s.modCmd i f).regions = s.regions := rfl
@[simp] theorem State.modCmd_clk (s : State) (i : Nat) (f : Cmd → Cmd) : (s.modCmd i f).clk = s.clk := rfl
@[simp] theorem State.modCmd_boot (s : State) (i : Nat) (f : Cmd → Cmd) : (s.modCmd i f).boot = s.boot := rfl
@[simp] theorem State.modCmd_meshRegs (s : State) (i : Nat) (f : Cmd → Cmd) : (s.modCmd i f).meshRegs = s.meshRegs := rfl
@[simp] theorem State.modCmd_flash (s : State) (i : Nat) (f : Cmd → Cmd) : (s.modCmd i f).flash = s.flash := rfl
@[simp] theorem State.modCmd_press (s : State) (i : Nat) (f : Cmd → Cmd) : (s.modCmd i f).press = s.press := rfl
@[simp] theorem State.modCmd_dld (s : State) (i : Nat) (f : Cmd → Cmd) : (s.modCmd i f).dld = s.dld := rfl
@[simp] theorem State.modCmd_shard (s : State) (i : Nat) (f : Cmd → Cmd) : (s.modCmd i f).shard = s.shard := rfl
@[simp] theorem State.modCmd_lastRun (s : State) (i : Nat) (f : Cmd → Cmd) : (s.modCmd i f).lastRun = s.lastRun := rfl
@[simp] theorem State.modCmd_cvs (s : State) (i : Nat) (f : Cmd → Cmd) : (s.modCmd i f).cvs = s.cvs := rfl
@[simp] theorem State.modCmd_epochCmd (s : State) (i : Nat) (f : Cmd → Cmd) : (s.modCmd i f).epochCmd = s.epochCmd := rfl
@[simp] theorem State.modCmd_epochQueue (s : State) (i : Nat) (f : Cmd → Cmd) : (s.modCmd i f).epochQueue = s.epochQueue := rfl
@[simp] theorem State.modCmd_ingestQ (s : State) (i : Nat) (f : Cmd → Cmd) : (s.modCmd i f).ingestQ = s.ingestQ := rfl
@[simp] theorem State.modCmd_engines (s : State) (i : Nat) (f : Cmd → Cmd) : (s.modCmd i f).engines = s.engines := rfl
@[simp] theorem State.modCmd_crmErr (s : State) (i : Nat) (f : Cmd → Cmd) : (s.modCmd i f).crmErr = s.crmErr := rfl
@[simp] theorem State.modCmd_clipsWritten (s : State) (i : Nat) (f : Cmd → Cmd) : (s.modCmd i f).clipsWritten = s.clipsWritten := rfl
@[simp] theorem State.modCmd_clipsDropped (s : State) (i : Nat) (f : Cmd → Cmd) : (s.modCmd i f).clipsDropped = s.clipsDropped := rfl
@[simp] theorem State.modCmd_noProgress (s : State) (i : Nat) (f : Cmd → Cmd) : (s.modCmd i f).noProgress = s.noProgress := rfl
@[simp] theorem State.modCmd_maint (s : State) (i : Nat) (f : Cmd → Cmd) : (s.modCmd i f).maint = s.maint := rfl
@[simp] theorem State.modCmd_hardLeft (s : State) (i : Nat) (f : Cmd → Cmd) : (s.modCmd i f).hardLeft = s.hardLeft := rfl
@[simp] theorem State.modCmd_softReps (s : State) (i : Nat) (f : Cmd → Cmd) : (s.modCmd i f).softReps = s.softReps := rfl
@[simp] theorem State.modCmd_postponed (s : State) (i : Nat) (f : Cmd → Cmd) : (s.modCmd i f).postponed = s.postponed := rfl
@[simp] theorem State.modCmd_loopTest (s : State) (i : Nat) (f : Cmd → Cmd) : (s.modCmd i f).loopTest = s.loopTest := rfl
@[simp] theorem State.modCmd_lbStatus (s : State) (i : Nat) (f : Cmd → Cmd) : (s.modCmd i f).lbStatus = s.lbStatus := rfl
@[simp] theorem State.modCmd_reflect (s : State) (i : Nat) (f : Cmd → Cmd) : (s.modCmd i f).reflect = s.reflect := rfl
@[simp] theorem State.modCmd_sec (s : State) (i : Nat) (f : Cmd → Cmd) : (s.modCmd i f).sec = s.sec := rfl
@[simp] theorem State.modCmd_mgmt (s : State) (i : Nat) (f : Cmd → Cmd) : (s.modCmd i f).mgmt = s.mgmt := rfl
@[simp] theorem State.modCmd_jtag (s : State) (i : Nat) (f : Cmd → Cmd) : (s.modCmd i f).jtag = s.jtag := rfl
@[simp] theorem State.modCmd_rsv (s : State) (i : Nat) (f : Cmd → Cmd) : (s.modCmd i f).rsv = s.rsv := rfl
@[simp] theorem State.modCmd_gsemNet (s : State) (i : Nat) (f : Cmd → Cmd) : (s.modCmd i f).gsemNet = s.gsemNet := rfl
@[simp] theorem State.modCmd_gsemErr0 (s : State) (i : Nat) (f : Cmd → Cmd) : (s.modCmd i f).gsemErr0 = s.gsemErr0 := rfl
@[simp] theorem State.modCmd_gsemSent (s : State) (i : Nat) (f : Cmd → Cmd) : (s.modCmd i f).gsemSent = s.gsemSent := rfl
@[simp] theorem State.modCmd_hostBanks (s : State) (i : Nat) (f : Cmd → Cmd) : (s.modCmd i f).hostBanks = s.hostBanks := rfl
@[simp] theorem State.modCmd_cfgWait (s : State) (i : Nat) (f : Cmd → Cmd) : (s.modCmd i f).cfgWait = s.cfgWait := rfl
@[simp] theorem State.modCmd_writesIn (s : State) (i : Nat) (f : Cmd → Cmd) : (s.modCmd i f).writesIn = s.writesIn := rfl

/-! ### setPort -/

@[simp] theorem State.setPort_pending (s : State) (n : Nat) (p : Port) : (s.setPort n p).pending = s.pending := rfl
@[simp] theorem State.setPort_free (s : State) (n : Nat) (p : Port) : (s.setPort n p).free = s.free := rfl
@[simp] theorem State.setPort_fuse (s : State) (n : Nat) (p : Port) : (s.setPort n p).fuse = s.fuse := rfl
@[simp] theorem State.setPort_mem (s : State) (n : Nat) (p : Port) : (s.setPort n p).mem = s.mem := rfl
@[simp] theorem State.setPort_ecc (s : State) (n : Nat) (p : Port) : (s.setPort n p).ecc = s.ecc := rfl
@[simp] theorem State.setPort_bytePar (s : State) (n : Nat) (p : Port) : (s.setPort n p).bytePar = s.bytePar := rfl
@[simp] theorem State.setPort_memUnits (s : State) (n : Nat) (p : Port) : (s.setPort n p).memUnits = s.memUnits := rfl
@[simp] theorem State.setPort_pwin (s : State) (n : Nat) (p : Port) : (s.setPort n p).pwin = s.pwin := rfl
@[simp] theorem State.setPort_grbSelf (s : State) (n : Nat) (p : Port) : (s.setPort n p).grbSelf = s.grbSelf := rfl
@[simp] theorem State.setPort_cores (s : State) (n : Nat) (p : Port) : (s.setPort n p).cores = s.cores := rfl
@[simp] theorem State.setPort_prog (s : State) (n : Nat) (p : Port) : (s.setPort n p).prog = s.prog := rfl
@[simp] theorem State.setPort_run (s : State) (n : Nat) (p : Port) : (s.setPort n p).run = s.run := rfl
@[simp] theorem State.setPort_units (s : State) (n : Nat) (p : Port) : (s.setPort n p).units = s.units := rfl
@[simp] theorem State.setPort_gsems (s : State) (n : Nat) (p : Port) : (s.setPort n p).gsems = s.gsems := rfl
@[simp] theorem State.setPort_gsemErr (s : State) (n : Nat) (p : Port) : (s.setPort n p).gsemErr = s.gsemErr := rfl
@[simp] theorem State.setPort_mesh (s : State) (n : Nat) (p : Port) : (s.setPort n p).mesh = s.mesh := rfl
@[simp] theorem State.setPort_meshId (s : State) (n : Nat) (p : Port) : (s.setPort n p).meshId = s.meshId := rfl
@[simp] theorem State.setPort_grbCtl (s : State) (n : Nat) (p : Port) : (s.setPort n p).grbCtl = s.grbCtl := rfl
@[simp] theorem State.setPort_grbSelfValid (s : State) (n : Nat) (p : Port) : (s.setPort n p).grbSelfValid = s.grbSelfValid := rfl
@[simp] theorem State.setPort_tmoExp (s : State) (n : Nat) (p : Port) : (s.setPort n p).tmoExp = s.tmoExp := rfl
@[simp] theorem State.setPort_outbox (s : State) (n : Nat) (p : Port) : (s.setPort n p).outbox = s.outbox := rfl
@[simp] theorem State.setPort_remote (s : State) (n : Nat) (p : Port) : (s.setPort n p).remote = s.remote := rfl
@[simp] theorem State.setPort_remoteId (s : State) (n : Nat) (p : Port) : (s.setPort n p).remoteId = s.remoteId := rfl
@[simp] theorem State.setPort_incarn (s : State) (n : Nat) (p : Port) : (s.setPort n p).incarn = s.incarn := rfl
@[simp] theorem State.setPort_peers (s : State) (n : Nat) (p : Port) : (s.setPort n p).peers = s.peers := rfl
@[simp] theorem State.setPort_epoch (s : State) (n : Nat) (p : Port) : (s.setPort n p).epoch = s.epoch := rfl
@[simp] theorem State.setPort_seed (s : State) (n : Nat) (p : Port) : (s.setPort n p).seed = s.seed := rfl
@[simp] theorem State.setPort_hold (s : State) (n : Nat) (p : Port) : (s.setPort n p).hold = s.hold := rfl
@[simp] theorem State.setPort_crings (s : State) (n : Nat) (p : Port) : (s.setPort n p).crings = s.crings := rfl
@[simp] theorem State.setPort_erings (s : State) (n : Nat) (p : Port) : (s.setPort n p).erings = s.erings := rfl
@[simp] theorem State.setPort_seqs (s : State) (n : Nat) (p : Port) : (s.setPort n p).seqs = s.seqs := rfl
@[simp] theorem State.setPort_waitRecs (s : State) (n : Nat) (p : Port) : (s.setPort n p).waitRecs = s.waitRecs := rfl
@[simp] theorem State.setPort_cmds (s : State) (n : Nat) (p : Port) : (s.setPort n p).cmds = s.cmds := rfl
@[simp] theorem State.setPort_cmdId (s : State) (n : Nat) (p : Port) : (s.setPort n p).cmdId = s.cmdId := rfl
@[simp] theorem State.setPort_turn (s : State) (n : Nat) (p : Port) : (s.setPort n p).turn = s.turn := rfl
@[simp] theorem State.setPort_hostWrites (s : State) (n : Nat) (p : Port) : (s.setPort n p).hostWrites = s.hostWrites := rfl
@[simp] theorem State.setPort_linkDown (s : State) (n : Nat) (p : Port) : (s.setPort n p).linkDown = s.linkDown := rfl
@[simp] theorem State.setPort_ctx (s : State) (n : Nat) (p : Port) : (s.setPort n p).ctx = s.ctx := rfl
@[simp] theorem State.setPort_replacing (s : State) (n : Nat) (p : Port) : (s.setPort n p).replacing = s.replacing := rfl
@[simp] theorem State.setPort_memEccCtl (s : State) (n : Nat) (p : Port) : (s.setPort n p).memEccCtl = s.memEccCtl := rfl
@[simp] theorem State.setPort_writesOut (s : State) (n : Nat) (p : Port) : (s.setPort n p).writesOut = s.writesOut := rfl
@[simp] theorem State.setPort_regions (s : State) (n : Nat) (p : Port) : (s.setPort n p).regions = s.regions := rfl
@[simp] theorem State.setPort_clk (s : State) (n : Nat) (p : Port) : (s.setPort n p).clk = s.clk := rfl
@[simp] theorem State.setPort_boot (s : State) (n : Nat) (p : Port) : (s.setPort n p).boot = s.boot := rfl
@[simp] theorem State.setPort_meshRegs (s : State) (n : Nat) (p : Port) : (s.setPort n p).meshRegs = s.meshRegs := rfl
@[simp] theorem State.setPort_flash (s : State) (n : Nat) (p : Port) : (s.setPort n p).flash = s.flash := rfl
@[simp] theorem State.setPort_press (s : State) (n : Nat) (p : Port) : (s.setPort n p).press = s.press := rfl
@[simp] theorem State.setPort_dld (s : State) (n : Nat) (p : Port) : (s.setPort n p).dld = s.dld := rfl
@[simp] theorem State.setPort_shard (s : State) (n : Nat) (p : Port) : (s.setPort n p).shard = s.shard := rfl
@[simp] theorem State.setPort_lastRun (s : State) (n : Nat) (p : Port) : (s.setPort n p).lastRun = s.lastRun := rfl
@[simp] theorem State.setPort_cvs (s : State) (n : Nat) (p : Port) : (s.setPort n p).cvs = s.cvs := rfl
@[simp] theorem State.setPort_epochCmd (s : State) (n : Nat) (p : Port) : (s.setPort n p).epochCmd = s.epochCmd := rfl
@[simp] theorem State.setPort_epochQueue (s : State) (n : Nat) (p : Port) : (s.setPort n p).epochQueue = s.epochQueue := rfl
@[simp] theorem State.setPort_ingestQ (s : State) (n : Nat) (p : Port) : (s.setPort n p).ingestQ = s.ingestQ := rfl
@[simp] theorem State.setPort_engines (s : State) (n : Nat) (p : Port) : (s.setPort n p).engines = s.engines := rfl
@[simp] theorem State.setPort_crmErr (s : State) (n : Nat) (p : Port) : (s.setPort n p).crmErr = s.crmErr := rfl
@[simp] theorem State.setPort_clipsWritten (s : State) (n : Nat) (p : Port) : (s.setPort n p).clipsWritten = s.clipsWritten := rfl
@[simp] theorem State.setPort_clipsDropped (s : State) (n : Nat) (p : Port) : (s.setPort n p).clipsDropped = s.clipsDropped := rfl
@[simp] theorem State.setPort_noProgress (s : State) (n : Nat) (p : Port) : (s.setPort n p).noProgress = s.noProgress := rfl
@[simp] theorem State.setPort_maint (s : State) (n : Nat) (p : Port) : (s.setPort n p).maint = s.maint := rfl
@[simp] theorem State.setPort_hardLeft (s : State) (n : Nat) (p : Port) : (s.setPort n p).hardLeft = s.hardLeft := rfl
@[simp] theorem State.setPort_softReps (s : State) (n : Nat) (p : Port) : (s.setPort n p).softReps = s.softReps := rfl
@[simp] theorem State.setPort_postponed (s : State) (n : Nat) (p : Port) : (s.setPort n p).postponed = s.postponed := rfl
@[simp] theorem State.setPort_loopTest (s : State) (n : Nat) (p : Port) : (s.setPort n p).loopTest = s.loopTest := rfl
@[simp] theorem State.setPort_lbStatus (s : State) (n : Nat) (p : Port) : (s.setPort n p).lbStatus = s.lbStatus := rfl
@[simp] theorem State.setPort_reflect (s : State) (n : Nat) (p : Port) : (s.setPort n p).reflect = s.reflect := rfl
@[simp] theorem State.setPort_sec (s : State) (n : Nat) (p : Port) : (s.setPort n p).sec = s.sec := rfl
@[simp] theorem State.setPort_mgmt (s : State) (n : Nat) (p : Port) : (s.setPort n p).mgmt = s.mgmt := rfl
@[simp] theorem State.setPort_jtag (s : State) (n : Nat) (p : Port) : (s.setPort n p).jtag = s.jtag := rfl
@[simp] theorem State.setPort_rsv (s : State) (n : Nat) (p : Port) : (s.setPort n p).rsv = s.rsv := rfl
@[simp] theorem State.setPort_gsemNet (s : State) (n : Nat) (p : Port) : (s.setPort n p).gsemNet = s.gsemNet := rfl
@[simp] theorem State.setPort_gsemErr0 (s : State) (n : Nat) (p : Port) : (s.setPort n p).gsemErr0 = s.gsemErr0 := rfl
@[simp] theorem State.setPort_gsemSent (s : State) (n : Nat) (p : Port) : (s.setPort n p).gsemSent = s.gsemSent := rfl
@[simp] theorem State.setPort_hostBanks (s : State) (n : Nat) (p : Port) : (s.setPort n p).hostBanks = s.hostBanks := rfl
@[simp] theorem State.setPort_cfgWait (s : State) (n : Nat) (p : Port) : (s.setPort n p).cfgWait = s.cfgWait := rfl
@[simp] theorem State.setPort_writesIn (s : State) (n : Nat) (p : Port) : (s.setPort n p).writesIn = s.writesIn := rfl

/-! ### setRegion -/

@[simp] theorem State.setRegion_pending (s : State) (r : Nat) (g : Region) : (s.setRegion r g).pending = s.pending := rfl
@[simp] theorem State.setRegion_free (s : State) (r : Nat) (g : Region) : (s.setRegion r g).free = s.free := rfl
@[simp] theorem State.setRegion_fuse (s : State) (r : Nat) (g : Region) : (s.setRegion r g).fuse = s.fuse := rfl
@[simp] theorem State.setRegion_mem (s : State) (r : Nat) (g : Region) : (s.setRegion r g).mem = s.mem := rfl
@[simp] theorem State.setRegion_ecc (s : State) (r : Nat) (g : Region) : (s.setRegion r g).ecc = s.ecc := rfl
@[simp] theorem State.setRegion_bytePar (s : State) (r : Nat) (g : Region) : (s.setRegion r g).bytePar = s.bytePar := rfl
@[simp] theorem State.setRegion_memUnits (s : State) (r : Nat) (g : Region) : (s.setRegion r g).memUnits = s.memUnits := rfl
@[simp] theorem State.setRegion_pwin (s : State) (r : Nat) (g : Region) : (s.setRegion r g).pwin = s.pwin := rfl
@[simp] theorem State.setRegion_grbSelf (s : State) (r : Nat) (g : Region) : (s.setRegion r g).grbSelf = s.grbSelf := rfl
@[simp] theorem State.setRegion_cores (s : State) (r : Nat) (g : Region) : (s.setRegion r g).cores = s.cores := rfl
@[simp] theorem State.setRegion_prog (s : State) (r : Nat) (g : Region) : (s.setRegion r g).prog = s.prog := rfl
@[simp] theorem State.setRegion_run (s : State) (r : Nat) (g : Region) : (s.setRegion r g).run = s.run := rfl
@[simp] theorem State.setRegion_units (s : State) (r : Nat) (g : Region) : (s.setRegion r g).units = s.units := rfl
@[simp] theorem State.setRegion_gsems (s : State) (r : Nat) (g : Region) : (s.setRegion r g).gsems = s.gsems := rfl
@[simp] theorem State.setRegion_gsemErr (s : State) (r : Nat) (g : Region) : (s.setRegion r g).gsemErr = s.gsemErr := rfl
@[simp] theorem State.setRegion_mesh (s : State) (r : Nat) (g : Region) : (s.setRegion r g).mesh = s.mesh := rfl
@[simp] theorem State.setRegion_meshId (s : State) (r : Nat) (g : Region) : (s.setRegion r g).meshId = s.meshId := rfl
@[simp] theorem State.setRegion_ports (s : State) (r : Nat) (g : Region) : (s.setRegion r g).ports = s.ports := rfl
@[simp] theorem State.setRegion_grbCtl (s : State) (r : Nat) (g : Region) : (s.setRegion r g).grbCtl = s.grbCtl := rfl
@[simp] theorem State.setRegion_grbSelfValid (s : State) (r : Nat) (g : Region) : (s.setRegion r g).grbSelfValid = s.grbSelfValid := rfl
@[simp] theorem State.setRegion_tmoExp (s : State) (r : Nat) (g : Region) : (s.setRegion r g).tmoExp = s.tmoExp := rfl
@[simp] theorem State.setRegion_outbox (s : State) (r : Nat) (g : Region) : (s.setRegion r g).outbox = s.outbox := rfl
@[simp] theorem State.setRegion_remote (s : State) (r : Nat) (g : Region) : (s.setRegion r g).remote = s.remote := rfl
@[simp] theorem State.setRegion_remoteId (s : State) (r : Nat) (g : Region) : (s.setRegion r g).remoteId = s.remoteId := rfl
@[simp] theorem State.setRegion_incarn (s : State) (r : Nat) (g : Region) : (s.setRegion r g).incarn = s.incarn := rfl
@[simp] theorem State.setRegion_peers (s : State) (r : Nat) (g : Region) : (s.setRegion r g).peers = s.peers := rfl
@[simp] theorem State.setRegion_epoch (s : State) (r : Nat) (g : Region) : (s.setRegion r g).epoch = s.epoch := rfl
@[simp] theorem State.setRegion_seed (s : State) (r : Nat) (g : Region) : (s.setRegion r g).seed = s.seed := rfl
@[simp] theorem State.setRegion_hold (s : State) (r : Nat) (g : Region) : (s.setRegion r g).hold = s.hold := rfl
@[simp] theorem State.setRegion_crings (s : State) (r : Nat) (g : Region) : (s.setRegion r g).crings = s.crings := rfl
@[simp] theorem State.setRegion_erings (s : State) (r : Nat) (g : Region) : (s.setRegion r g).erings = s.erings := rfl
@[simp] theorem State.setRegion_seqs (s : State) (r : Nat) (g : Region) : (s.setRegion r g).seqs = s.seqs := rfl
@[simp] theorem State.setRegion_waitRecs (s : State) (r : Nat) (g : Region) : (s.setRegion r g).waitRecs = s.waitRecs := rfl
@[simp] theorem State.setRegion_cmds (s : State) (r : Nat) (g : Region) : (s.setRegion r g).cmds = s.cmds := rfl
@[simp] theorem State.setRegion_cmdId (s : State) (r : Nat) (g : Region) : (s.setRegion r g).cmdId = s.cmdId := rfl
@[simp] theorem State.setRegion_turn (s : State) (r : Nat) (g : Region) : (s.setRegion r g).turn = s.turn := rfl
@[simp] theorem State.setRegion_hostWrites (s : State) (r : Nat) (g : Region) : (s.setRegion r g).hostWrites = s.hostWrites := rfl
@[simp] theorem State.setRegion_linkDown (s : State) (r : Nat) (g : Region) : (s.setRegion r g).linkDown = s.linkDown := rfl
@[simp] theorem State.setRegion_ctx (s : State) (r : Nat) (g : Region) : (s.setRegion r g).ctx = s.ctx := rfl
@[simp] theorem State.setRegion_replacing (s : State) (r : Nat) (g : Region) : (s.setRegion r g).replacing = s.replacing := rfl
@[simp] theorem State.setRegion_memEccCtl (s : State) (r : Nat) (g : Region) : (s.setRegion r g).memEccCtl = s.memEccCtl := rfl
@[simp] theorem State.setRegion_writesOut (s : State) (r : Nat) (g : Region) : (s.setRegion r g).writesOut = s.writesOut := rfl
@[simp] theorem State.setRegion_clk (s : State) (r : Nat) (g : Region) : (s.setRegion r g).clk = s.clk := rfl
@[simp] theorem State.setRegion_boot (s : State) (r : Nat) (g : Region) : (s.setRegion r g).boot = s.boot := rfl
@[simp] theorem State.setRegion_meshRegs (s : State) (r : Nat) (g : Region) : (s.setRegion r g).meshRegs = s.meshRegs := rfl
@[simp] theorem State.setRegion_flash (s : State) (r : Nat) (g : Region) : (s.setRegion r g).flash = s.flash := rfl
@[simp] theorem State.setRegion_press (s : State) (r : Nat) (g : Region) : (s.setRegion r g).press = s.press := rfl
@[simp] theorem State.setRegion_dld (s : State) (r : Nat) (g : Region) : (s.setRegion r g).dld = s.dld := rfl
@[simp] theorem State.setRegion_shard (s : State) (r : Nat) (g : Region) : (s.setRegion r g).shard = s.shard := rfl
@[simp] theorem State.setRegion_lastRun (s : State) (r : Nat) (g : Region) : (s.setRegion r g).lastRun = s.lastRun := rfl
@[simp] theorem State.setRegion_cvs (s : State) (r : Nat) (g : Region) : (s.setRegion r g).cvs = s.cvs := rfl
@[simp] theorem State.setRegion_epochCmd (s : State) (r : Nat) (g : Region) : (s.setRegion r g).epochCmd = s.epochCmd := rfl
@[simp] theorem State.setRegion_epochQueue (s : State) (r : Nat) (g : Region) : (s.setRegion r g).epochQueue = s.epochQueue := rfl
@[simp] theorem State.setRegion_ingestQ (s : State) (r : Nat) (g : Region) : (s.setRegion r g).ingestQ = s.ingestQ := rfl
@[simp] theorem State.setRegion_engines (s : State) (r : Nat) (g : Region) : (s.setRegion r g).engines = s.engines := rfl
@[simp] theorem State.setRegion_crmErr (s : State) (r : Nat) (g : Region) : (s.setRegion r g).crmErr = s.crmErr := rfl
@[simp] theorem State.setRegion_clipsWritten (s : State) (r : Nat) (g : Region) : (s.setRegion r g).clipsWritten = s.clipsWritten := rfl
@[simp] theorem State.setRegion_clipsDropped (s : State) (r : Nat) (g : Region) : (s.setRegion r g).clipsDropped = s.clipsDropped := rfl
@[simp] theorem State.setRegion_noProgress (s : State) (r : Nat) (g : Region) : (s.setRegion r g).noProgress = s.noProgress := rfl
@[simp] theorem State.setRegion_maint (s : State) (r : Nat) (g : Region) : (s.setRegion r g).maint = s.maint := rfl
@[simp] theorem State.setRegion_hardLeft (s : State) (r : Nat) (g : Region) : (s.setRegion r g).hardLeft = s.hardLeft := rfl
@[simp] theorem State.setRegion_softReps (s : State) (r : Nat) (g : Region) : (s.setRegion r g).softReps = s.softReps := rfl
@[simp] theorem State.setRegion_postponed (s : State) (r : Nat) (g : Region) : (s.setRegion r g).postponed = s.postponed := rfl
@[simp] theorem State.setRegion_loopTest (s : State) (r : Nat) (g : Region) : (s.setRegion r g).loopTest = s.loopTest := rfl
@[simp] theorem State.setRegion_lbStatus (s : State) (r : Nat) (g : Region) : (s.setRegion r g).lbStatus = s.lbStatus := rfl
@[simp] theorem State.setRegion_reflect (s : State) (r : Nat) (g : Region) : (s.setRegion r g).reflect = s.reflect := rfl
@[simp] theorem State.setRegion_sec (s : State) (r : Nat) (g : Region) : (s.setRegion r g).sec = s.sec := rfl
@[simp] theorem State.setRegion_mgmt (s : State) (r : Nat) (g : Region) : (s.setRegion r g).mgmt = s.mgmt := rfl
@[simp] theorem State.setRegion_jtag (s : State) (r : Nat) (g : Region) : (s.setRegion r g).jtag = s.jtag := rfl
@[simp] theorem State.setRegion_rsv (s : State) (r : Nat) (g : Region) : (s.setRegion r g).rsv = s.rsv := rfl
@[simp] theorem State.setRegion_gsemNet (s : State) (r : Nat) (g : Region) : (s.setRegion r g).gsemNet = s.gsemNet := rfl
@[simp] theorem State.setRegion_gsemErr0 (s : State) (r : Nat) (g : Region) : (s.setRegion r g).gsemErr0 = s.gsemErr0 := rfl
@[simp] theorem State.setRegion_gsemSent (s : State) (r : Nat) (g : Region) : (s.setRegion r g).gsemSent = s.gsemSent := rfl
@[simp] theorem State.setRegion_hostBanks (s : State) (r : Nat) (g : Region) : (s.setRegion r g).hostBanks = s.hostBanks := rfl
@[simp] theorem State.setRegion_cfgWait (s : State) (r : Nat) (g : Region) : (s.setRegion r g).cfgWait = s.cfgWait := rfl
@[simp] theorem State.setRegion_writesIn (s : State) (r : Nat) (g : Region) : (s.setRegion r g).writesIn = s.writesIn := rfl

/-! ### setUnit -/

@[simp] theorem State.setUnit_pending (s : State) (u : Nat) (m : MemUnit) : (s.setUnit u m).pending = s.pending := rfl
@[simp] theorem State.setUnit_free (s : State) (u : Nat) (m : MemUnit) : (s.setUnit u m).free = s.free := rfl
@[simp] theorem State.setUnit_fuse (s : State) (u : Nat) (m : MemUnit) : (s.setUnit u m).fuse = s.fuse := rfl
@[simp] theorem State.setUnit_mem (s : State) (u : Nat) (m : MemUnit) : (s.setUnit u m).mem = s.mem := rfl
@[simp] theorem State.setUnit_ecc (s : State) (u : Nat) (m : MemUnit) : (s.setUnit u m).ecc = s.ecc := rfl
@[simp] theorem State.setUnit_bytePar (s : State) (u : Nat) (m : MemUnit) : (s.setUnit u m).bytePar = s.bytePar := rfl
@[simp] theorem State.setUnit_pwin (s : State) (u : Nat) (m : MemUnit) : (s.setUnit u m).pwin = s.pwin := rfl
@[simp] theorem State.setUnit_grbSelf (s : State) (u : Nat) (m : MemUnit) : (s.setUnit u m).grbSelf = s.grbSelf := rfl
@[simp] theorem State.setUnit_cores (s : State) (u : Nat) (m : MemUnit) : (s.setUnit u m).cores = s.cores := rfl
@[simp] theorem State.setUnit_prog (s : State) (u : Nat) (m : MemUnit) : (s.setUnit u m).prog = s.prog := rfl
@[simp] theorem State.setUnit_run (s : State) (u : Nat) (m : MemUnit) : (s.setUnit u m).run = s.run := rfl
@[simp] theorem State.setUnit_units (s : State) (u : Nat) (m : MemUnit) : (s.setUnit u m).units = s.units := rfl
@[simp] theorem State.setUnit_gsems (s : State) (u : Nat) (m : MemUnit) : (s.setUnit u m).gsems = s.gsems := rfl
@[simp] theorem State.setUnit_gsemErr (s : State) (u : Nat) (m : MemUnit) : (s.setUnit u m).gsemErr = s.gsemErr := rfl
@[simp] theorem State.setUnit_mesh (s : State) (u : Nat) (m : MemUnit) : (s.setUnit u m).mesh = s.mesh := rfl
@[simp] theorem State.setUnit_meshId (s : State) (u : Nat) (m : MemUnit) : (s.setUnit u m).meshId = s.meshId := rfl
@[simp] theorem State.setUnit_ports (s : State) (u : Nat) (m : MemUnit) : (s.setUnit u m).ports = s.ports := rfl
@[simp] theorem State.setUnit_grbCtl (s : State) (u : Nat) (m : MemUnit) : (s.setUnit u m).grbCtl = s.grbCtl := rfl
@[simp] theorem State.setUnit_grbSelfValid (s : State) (u : Nat) (m : MemUnit) : (s.setUnit u m).grbSelfValid = s.grbSelfValid := rfl
@[simp] theorem State.setUnit_tmoExp (s : State) (u : Nat) (m : MemUnit) : (s.setUnit u m).tmoExp = s.tmoExp := rfl
@[simp] theorem State.setUnit_outbox (s : State) (u : Nat) (m : MemUnit) : (s.setUnit u m).outbox = s.outbox := rfl
@[simp] theorem State.setUnit_remote (s : State) (u : Nat) (m : MemUnit) : (s.setUnit u m).remote = s.remote := rfl
@[simp] theorem State.setUnit_remoteId (s : State) (u : Nat) (m : MemUnit) : (s.setUnit u m).remoteId = s.remoteId := rfl
@[simp] theorem State.setUnit_incarn (s : State) (u : Nat) (m : MemUnit) : (s.setUnit u m).incarn = s.incarn := rfl
@[simp] theorem State.setUnit_peers (s : State) (u : Nat) (m : MemUnit) : (s.setUnit u m).peers = s.peers := rfl
@[simp] theorem State.setUnit_epoch (s : State) (u : Nat) (m : MemUnit) : (s.setUnit u m).epoch = s.epoch := rfl
@[simp] theorem State.setUnit_seed (s : State) (u : Nat) (m : MemUnit) : (s.setUnit u m).seed = s.seed := rfl
@[simp] theorem State.setUnit_hold (s : State) (u : Nat) (m : MemUnit) : (s.setUnit u m).hold = s.hold := rfl
@[simp] theorem State.setUnit_crings (s : State) (u : Nat) (m : MemUnit) : (s.setUnit u m).crings = s.crings := rfl
@[simp] theorem State.setUnit_erings (s : State) (u : Nat) (m : MemUnit) : (s.setUnit u m).erings = s.erings := rfl
@[simp] theorem State.setUnit_seqs (s : State) (u : Nat) (m : MemUnit) : (s.setUnit u m).seqs = s.seqs := rfl
@[simp] theorem State.setUnit_waitRecs (s : State) (u : Nat) (m : MemUnit) : (s.setUnit u m).waitRecs = s.waitRecs := rfl
@[simp] theorem State.setUnit_cmds (s : State) (u : Nat) (m : MemUnit) : (s.setUnit u m).cmds = s.cmds := rfl
@[simp] theorem State.setUnit_cmdId (s : State) (u : Nat) (m : MemUnit) : (s.setUnit u m).cmdId = s.cmdId := rfl
@[simp] theorem State.setUnit_turn (s : State) (u : Nat) (m : MemUnit) : (s.setUnit u m).turn = s.turn := rfl
@[simp] theorem State.setUnit_hostWrites (s : State) (u : Nat) (m : MemUnit) : (s.setUnit u m).hostWrites = s.hostWrites := rfl
@[simp] theorem State.setUnit_linkDown (s : State) (u : Nat) (m : MemUnit) : (s.setUnit u m).linkDown = s.linkDown := rfl
@[simp] theorem State.setUnit_ctx (s : State) (u : Nat) (m : MemUnit) : (s.setUnit u m).ctx = s.ctx := rfl
@[simp] theorem State.setUnit_replacing (s : State) (u : Nat) (m : MemUnit) : (s.setUnit u m).replacing = s.replacing := rfl
@[simp] theorem State.setUnit_memEccCtl (s : State) (u : Nat) (m : MemUnit) : (s.setUnit u m).memEccCtl = s.memEccCtl := rfl
@[simp] theorem State.setUnit_writesOut (s : State) (u : Nat) (m : MemUnit) : (s.setUnit u m).writesOut = s.writesOut := rfl
@[simp] theorem State.setUnit_regions (s : State) (u : Nat) (m : MemUnit) : (s.setUnit u m).regions = s.regions := rfl
@[simp] theorem State.setUnit_clk (s : State) (u : Nat) (m : MemUnit) : (s.setUnit u m).clk = s.clk := rfl
@[simp] theorem State.setUnit_boot (s : State) (u : Nat) (m : MemUnit) : (s.setUnit u m).boot = s.boot := rfl
@[simp] theorem State.setUnit_meshRegs (s : State) (u : Nat) (m : MemUnit) : (s.setUnit u m).meshRegs = s.meshRegs := rfl
@[simp] theorem State.setUnit_flash (s : State) (u : Nat) (m : MemUnit) : (s.setUnit u m).flash = s.flash := rfl
@[simp] theorem State.setUnit_press (s : State) (u : Nat) (m : MemUnit) : (s.setUnit u m).press = s.press := rfl
@[simp] theorem State.setUnit_dld (s : State) (u : Nat) (m : MemUnit) : (s.setUnit u m).dld = s.dld := rfl
@[simp] theorem State.setUnit_shard (s : State) (u : Nat) (m : MemUnit) : (s.setUnit u m).shard = s.shard := rfl
@[simp] theorem State.setUnit_lastRun (s : State) (u : Nat) (m : MemUnit) : (s.setUnit u m).lastRun = s.lastRun := rfl
@[simp] theorem State.setUnit_cvs (s : State) (u : Nat) (m : MemUnit) : (s.setUnit u m).cvs = s.cvs := rfl
@[simp] theorem State.setUnit_epochCmd (s : State) (u : Nat) (m : MemUnit) : (s.setUnit u m).epochCmd = s.epochCmd := rfl
@[simp] theorem State.setUnit_epochQueue (s : State) (u : Nat) (m : MemUnit) : (s.setUnit u m).epochQueue = s.epochQueue := rfl
@[simp] theorem State.setUnit_ingestQ (s : State) (u : Nat) (m : MemUnit) : (s.setUnit u m).ingestQ = s.ingestQ := rfl
@[simp] theorem State.setUnit_engines (s : State) (u : Nat) (m : MemUnit) : (s.setUnit u m).engines = s.engines := rfl
@[simp] theorem State.setUnit_crmErr (s : State) (u : Nat) (m : MemUnit) : (s.setUnit u m).crmErr = s.crmErr := rfl
@[simp] theorem State.setUnit_clipsWritten (s : State) (u : Nat) (m : MemUnit) : (s.setUnit u m).clipsWritten = s.clipsWritten := rfl
@[simp] theorem State.setUnit_clipsDropped (s : State) (u : Nat) (m : MemUnit) : (s.setUnit u m).clipsDropped = s.clipsDropped := rfl
@[simp] theorem State.setUnit_noProgress (s : State) (u : Nat) (m : MemUnit) : (s.setUnit u m).noProgress = s.noProgress := rfl
@[simp] theorem State.setUnit_maint (s : State) (u : Nat) (m : MemUnit) : (s.setUnit u m).maint = s.maint := rfl
@[simp] theorem State.setUnit_hardLeft (s : State) (u : Nat) (m : MemUnit) : (s.setUnit u m).hardLeft = s.hardLeft := rfl
@[simp] theorem State.setUnit_softReps (s : State) (u : Nat) (m : MemUnit) : (s.setUnit u m).softReps = s.softReps := rfl
@[simp] theorem State.setUnit_postponed (s : State) (u : Nat) (m : MemUnit) : (s.setUnit u m).postponed = s.postponed := rfl
@[simp] theorem State.setUnit_loopTest (s : State) (u : Nat) (m : MemUnit) : (s.setUnit u m).loopTest = s.loopTest := rfl
@[simp] theorem State.setUnit_lbStatus (s : State) (u : Nat) (m : MemUnit) : (s.setUnit u m).lbStatus = s.lbStatus := rfl
@[simp] theorem State.setUnit_reflect (s : State) (u : Nat) (m : MemUnit) : (s.setUnit u m).reflect = s.reflect := rfl
@[simp] theorem State.setUnit_sec (s : State) (u : Nat) (m : MemUnit) : (s.setUnit u m).sec = s.sec := rfl
@[simp] theorem State.setUnit_mgmt (s : State) (u : Nat) (m : MemUnit) : (s.setUnit u m).mgmt = s.mgmt := rfl
@[simp] theorem State.setUnit_jtag (s : State) (u : Nat) (m : MemUnit) : (s.setUnit u m).jtag = s.jtag := rfl
@[simp] theorem State.setUnit_rsv (s : State) (u : Nat) (m : MemUnit) : (s.setUnit u m).rsv = s.rsv := rfl
@[simp] theorem State.setUnit_gsemNet (s : State) (u : Nat) (m : MemUnit) : (s.setUnit u m).gsemNet = s.gsemNet := rfl
@[simp] theorem State.setUnit_gsemErr0 (s : State) (u : Nat) (m : MemUnit) : (s.setUnit u m).gsemErr0 = s.gsemErr0 := rfl
@[simp] theorem State.setUnit_gsemSent (s : State) (u : Nat) (m : MemUnit) : (s.setUnit u m).gsemSent = s.gsemSent := rfl
@[simp] theorem State.setUnit_hostBanks (s : State) (u : Nat) (m : MemUnit) : (s.setUnit u m).hostBanks = s.hostBanks := rfl
@[simp] theorem State.setUnit_cfgWait (s : State) (u : Nat) (m : MemUnit) : (s.setUnit u m).cfgWait = s.cfgWait := rfl
@[simp] theorem State.setUnit_writesIn (s : State) (u : Nat) (m : MemUnit) : (s.setUnit u m).writesIn = s.writesIn := rfl

/-! ### setEngine -/

@[simp] theorem State.setEngine_pending (s : State) (e : Nat) (g : Ingest) : (s.setEngine e g).pending = s.pending := rfl
@[simp] theorem State.setEngine_free (s : State) (e : Nat) (g : Ingest) : (s.setEngine e g).free = s.free := rfl
@[simp] theorem State.setEngine_fuse (s : State) (e : Nat) (g : Ingest) : (s.setEngine e g).fuse = s.fuse := rfl
@[simp] theorem State.setEngine_mem (s : State) (e : Nat) (g : Ingest) : (s.setEngine e g).mem = s.mem := rfl
@[simp] theorem State.setEngine_ecc (s : State) (e : Nat) (g : Ingest) : (s.setEngine e g).ecc = s.ecc := rfl
@[simp] theorem State.setEngine_bytePar (s : State) (e : Nat) (g : Ingest) : (s.setEngine e g).bytePar = s.bytePar := rfl
@[simp] theorem State.setEngine_memUnits (s : State) (e : Nat) (g : Ingest) : (s.setEngine e g).memUnits = s.memUnits := rfl
@[simp] theorem State.setEngine_pwin (s : State) (e : Nat) (g : Ingest) : (s.setEngine e g).pwin = s.pwin := rfl
@[simp] theorem State.setEngine_grbSelf (s : State) (e : Nat) (g : Ingest) : (s.setEngine e g).grbSelf = s.grbSelf := rfl
@[simp] theorem State.setEngine_cores (s : State) (e : Nat) (g : Ingest) : (s.setEngine e g).cores = s.cores := rfl
@[simp] theorem State.setEngine_prog (s : State) (e : Nat) (g : Ingest) : (s.setEngine e g).prog = s.prog := rfl
@[simp] theorem State.setEngine_run (s : State) (e : Nat) (g : Ingest) : (s.setEngine e g).run = s.run := rfl
@[simp] theorem State.setEngine_units (s : State) (e : Nat) (g : Ingest) : (s.setEngine e g).units = s.units := rfl
@[simp] theorem State.setEngine_gsems (s : State) (e : Nat) (g : Ingest) : (s.setEngine e g).gsems = s.gsems := rfl
@[simp] theorem State.setEngine_gsemErr (s : State) (e : Nat) (g : Ingest) : (s.setEngine e g).gsemErr = s.gsemErr := rfl
@[simp] theorem State.setEngine_mesh (s : State) (e : Nat) (g : Ingest) : (s.setEngine e g).mesh = s.mesh := rfl
@[simp] theorem State.setEngine_meshId (s : State) (e : Nat) (g : Ingest) : (s.setEngine e g).meshId = s.meshId := rfl
@[simp] theorem State.setEngine_ports (s : State) (e : Nat) (g : Ingest) : (s.setEngine e g).ports = s.ports := rfl
@[simp] theorem State.setEngine_grbCtl (s : State) (e : Nat) (g : Ingest) : (s.setEngine e g).grbCtl = s.grbCtl := rfl
@[simp] theorem State.setEngine_grbSelfValid (s : State) (e : Nat) (g : Ingest) : (s.setEngine e g).grbSelfValid = s.grbSelfValid := rfl
@[simp] theorem State.setEngine_tmoExp (s : State) (e : Nat) (g : Ingest) : (s.setEngine e g).tmoExp = s.tmoExp := rfl
@[simp] theorem State.setEngine_outbox (s : State) (e : Nat) (g : Ingest) : (s.setEngine e g).outbox = s.outbox := rfl
@[simp] theorem State.setEngine_remote (s : State) (e : Nat) (g : Ingest) : (s.setEngine e g).remote = s.remote := rfl
@[simp] theorem State.setEngine_remoteId (s : State) (e : Nat) (g : Ingest) : (s.setEngine e g).remoteId = s.remoteId := rfl
@[simp] theorem State.setEngine_incarn (s : State) (e : Nat) (g : Ingest) : (s.setEngine e g).incarn = s.incarn := rfl
@[simp] theorem State.setEngine_peers (s : State) (e : Nat) (g : Ingest) : (s.setEngine e g).peers = s.peers := rfl
@[simp] theorem State.setEngine_epoch (s : State) (e : Nat) (g : Ingest) : (s.setEngine e g).epoch = s.epoch := rfl
@[simp] theorem State.setEngine_seed (s : State) (e : Nat) (g : Ingest) : (s.setEngine e g).seed = s.seed := rfl
@[simp] theorem State.setEngine_hold (s : State) (e : Nat) (g : Ingest) : (s.setEngine e g).hold = s.hold := rfl
@[simp] theorem State.setEngine_crings (s : State) (e : Nat) (g : Ingest) : (s.setEngine e g).crings = s.crings := rfl
@[simp] theorem State.setEngine_erings (s : State) (e : Nat) (g : Ingest) : (s.setEngine e g).erings = s.erings := rfl
@[simp] theorem State.setEngine_seqs (s : State) (e : Nat) (g : Ingest) : (s.setEngine e g).seqs = s.seqs := rfl
@[simp] theorem State.setEngine_waitRecs (s : State) (e : Nat) (g : Ingest) : (s.setEngine e g).waitRecs = s.waitRecs := rfl
@[simp] theorem State.setEngine_cmds (s : State) (e : Nat) (g : Ingest) : (s.setEngine e g).cmds = s.cmds := rfl
@[simp] theorem State.setEngine_cmdId (s : State) (e : Nat) (g : Ingest) : (s.setEngine e g).cmdId = s.cmdId := rfl
@[simp] theorem State.setEngine_turn (s : State) (e : Nat) (g : Ingest) : (s.setEngine e g).turn = s.turn := rfl
@[simp] theorem State.setEngine_hostWrites (s : State) (e : Nat) (g : Ingest) : (s.setEngine e g).hostWrites = s.hostWrites := rfl
@[simp] theorem State.setEngine_linkDown (s : State) (e : Nat) (g : Ingest) : (s.setEngine e g).linkDown = s.linkDown := rfl
@[simp] theorem State.setEngine_ctx (s : State) (e : Nat) (g : Ingest) : (s.setEngine e g).ctx = s.ctx := rfl
@[simp] theorem State.setEngine_replacing (s : State) (e : Nat) (g : Ingest) : (s.setEngine e g).replacing = s.replacing := rfl
@[simp] theorem State.setEngine_memEccCtl (s : State) (e : Nat) (g : Ingest) : (s.setEngine e g).memEccCtl = s.memEccCtl := rfl
@[simp] theorem State.setEngine_writesOut (s : State) (e : Nat) (g : Ingest) : (s.setEngine e g).writesOut = s.writesOut := rfl
@[simp] theorem State.setEngine_regions (s : State) (e : Nat) (g : Ingest) : (s.setEngine e g).regions = s.regions := rfl
@[simp] theorem State.setEngine_clk (s : State) (e : Nat) (g : Ingest) : (s.setEngine e g).clk = s.clk := rfl
@[simp] theorem State.setEngine_boot (s : State) (e : Nat) (g : Ingest) : (s.setEngine e g).boot = s.boot := rfl
@[simp] theorem State.setEngine_meshRegs (s : State) (e : Nat) (g : Ingest) : (s.setEngine e g).meshRegs = s.meshRegs := rfl
@[simp] theorem State.setEngine_flash (s : State) (e : Nat) (g : Ingest) : (s.setEngine e g).flash = s.flash := rfl
@[simp] theorem State.setEngine_press (s : State) (e : Nat) (g : Ingest) : (s.setEngine e g).press = s.press := rfl
@[simp] theorem State.setEngine_dld (s : State) (e : Nat) (g : Ingest) : (s.setEngine e g).dld = s.dld := rfl
@[simp] theorem State.setEngine_shard (s : State) (e : Nat) (g : Ingest) : (s.setEngine e g).shard = s.shard := rfl
@[simp] theorem State.setEngine_lastRun (s : State) (e : Nat) (g : Ingest) : (s.setEngine e g).lastRun = s.lastRun := rfl
@[simp] theorem State.setEngine_cvs (s : State) (e : Nat) (g : Ingest) : (s.setEngine e g).cvs = s.cvs := rfl
@[simp] theorem State.setEngine_epochCmd (s : State) (e : Nat) (g : Ingest) : (s.setEngine e g).epochCmd = s.epochCmd := rfl
@[simp] theorem State.setEngine_epochQueue (s : State) (e : Nat) (g : Ingest) : (s.setEngine e g).epochQueue = s.epochQueue := rfl
@[simp] theorem State.setEngine_ingestQ (s : State) (e : Nat) (g : Ingest) : (s.setEngine e g).ingestQ = s.ingestQ := rfl
@[simp] theorem State.setEngine_crmErr (s : State) (e : Nat) (g : Ingest) : (s.setEngine e g).crmErr = s.crmErr := rfl
@[simp] theorem State.setEngine_clipsWritten (s : State) (e : Nat) (g : Ingest) : (s.setEngine e g).clipsWritten = s.clipsWritten := rfl
@[simp] theorem State.setEngine_clipsDropped (s : State) (e : Nat) (g : Ingest) : (s.setEngine e g).clipsDropped = s.clipsDropped := rfl
@[simp] theorem State.setEngine_noProgress (s : State) (e : Nat) (g : Ingest) : (s.setEngine e g).noProgress = s.noProgress := rfl
@[simp] theorem State.setEngine_maint (s : State) (e : Nat) (g : Ingest) : (s.setEngine e g).maint = s.maint := rfl
@[simp] theorem State.setEngine_hardLeft (s : State) (e : Nat) (g : Ingest) : (s.setEngine e g).hardLeft = s.hardLeft := rfl
@[simp] theorem State.setEngine_softReps (s : State) (e : Nat) (g : Ingest) : (s.setEngine e g).softReps = s.softReps := rfl
@[simp] theorem State.setEngine_postponed (s : State) (e : Nat) (g : Ingest) : (s.setEngine e g).postponed = s.postponed := rfl
@[simp] theorem State.setEngine_loopTest (s : State) (e : Nat) (g : Ingest) : (s.setEngine e g).loopTest = s.loopTest := rfl
@[simp] theorem State.setEngine_lbStatus (s : State) (e : Nat) (g : Ingest) : (s.setEngine e g).lbStatus = s.lbStatus := rfl
@[simp] theorem State.setEngine_reflect (s : State) (e : Nat) (g : Ingest) : (s.setEngine e g).reflect = s.reflect := rfl
@[simp] theorem State.setEngine_sec (s : State) (e : Nat) (g : Ingest) : (s.setEngine e g).sec = s.sec := rfl
@[simp] theorem State.setEngine_mgmt (s : State) (e : Nat) (g : Ingest) : (s.setEngine e g).mgmt = s.mgmt := rfl
@[simp] theorem State.setEngine_jtag (s : State) (e : Nat) (g : Ingest) : (s.setEngine e g).jtag = s.jtag := rfl
@[simp] theorem State.setEngine_rsv (s : State) (e : Nat) (g : Ingest) : (s.setEngine e g).rsv = s.rsv := rfl
@[simp] theorem State.setEngine_gsemNet (s : State) (e : Nat) (g : Ingest) : (s.setEngine e g).gsemNet = s.gsemNet := rfl
@[simp] theorem State.setEngine_gsemErr0 (s : State) (e : Nat) (g : Ingest) : (s.setEngine e g).gsemErr0 = s.gsemErr0 := rfl
@[simp] theorem State.setEngine_gsemSent (s : State) (e : Nat) (g : Ingest) : (s.setEngine e g).gsemSent = s.gsemSent := rfl
@[simp] theorem State.setEngine_hostBanks (s : State) (e : Nat) (g : Ingest) : (s.setEngine e g).hostBanks = s.hostBanks := rfl
@[simp] theorem State.setEngine_cfgWait (s : State) (e : Nat) (g : Ingest) : (s.setEngine e g).cfgWait = s.cfgWait := rfl
@[simp] theorem State.setEngine_writesIn (s : State) (e : Nat) (g : Ingest) : (s.setEngine e g).writesIn = s.writesIn := rfl

/-! ### setCv -/

@[simp] theorem State.setCv_pending (s : State) (n : Nat) (v : Cv) : (s.setCv n v).pending = s.pending := rfl
@[simp] theorem State.setCv_free (s : State) (n : Nat) (v : Cv) : (s.setCv n v).free = s.free := rfl
@[simp] theorem State.setCv_fuse (s : State) (n : Nat) (v : Cv) : (s.setCv n v).fuse = s.fuse := rfl
@[simp] theorem State.setCv_mem (s : State) (n : Nat) (v : Cv) : (s.setCv n v).mem = s.mem := rfl
@[simp] theorem State.setCv_ecc (s : State) (n : Nat) (v : Cv) : (s.setCv n v).ecc = s.ecc := rfl
@[simp] theorem State.setCv_bytePar (s : State) (n : Nat) (v : Cv) : (s.setCv n v).bytePar = s.bytePar := rfl
@[simp] theorem State.setCv_memUnits (s : State) (n : Nat) (v : Cv) : (s.setCv n v).memUnits = s.memUnits := rfl
@[simp] theorem State.setCv_pwin (s : State) (n : Nat) (v : Cv) : (s.setCv n v).pwin = s.pwin := rfl
@[simp] theorem State.setCv_grbSelf (s : State) (n : Nat) (v : Cv) : (s.setCv n v).grbSelf = s.grbSelf := rfl
@[simp] theorem State.setCv_cores (s : State) (n : Nat) (v : Cv) : (s.setCv n v).cores = s.cores := rfl
@[simp] theorem State.setCv_prog (s : State) (n : Nat) (v : Cv) : (s.setCv n v).prog = s.prog := rfl
@[simp] theorem State.setCv_run (s : State) (n : Nat) (v : Cv) : (s.setCv n v).run = s.run := rfl
@[simp] theorem State.setCv_units (s : State) (n : Nat) (v : Cv) : (s.setCv n v).units = s.units := rfl
@[simp] theorem State.setCv_gsems (s : State) (n : Nat) (v : Cv) : (s.setCv n v).gsems = s.gsems := rfl
@[simp] theorem State.setCv_gsemErr (s : State) (n : Nat) (v : Cv) : (s.setCv n v).gsemErr = s.gsemErr := rfl
@[simp] theorem State.setCv_mesh (s : State) (n : Nat) (v : Cv) : (s.setCv n v).mesh = s.mesh := rfl
@[simp] theorem State.setCv_meshId (s : State) (n : Nat) (v : Cv) : (s.setCv n v).meshId = s.meshId := rfl
@[simp] theorem State.setCv_ports (s : State) (n : Nat) (v : Cv) : (s.setCv n v).ports = s.ports := rfl
@[simp] theorem State.setCv_grbCtl (s : State) (n : Nat) (v : Cv) : (s.setCv n v).grbCtl = s.grbCtl := rfl
@[simp] theorem State.setCv_grbSelfValid (s : State) (n : Nat) (v : Cv) : (s.setCv n v).grbSelfValid = s.grbSelfValid := rfl
@[simp] theorem State.setCv_tmoExp (s : State) (n : Nat) (v : Cv) : (s.setCv n v).tmoExp = s.tmoExp := rfl
@[simp] theorem State.setCv_outbox (s : State) (n : Nat) (v : Cv) : (s.setCv n v).outbox = s.outbox := rfl
@[simp] theorem State.setCv_remote (s : State) (n : Nat) (v : Cv) : (s.setCv n v).remote = s.remote := rfl
@[simp] theorem State.setCv_remoteId (s : State) (n : Nat) (v : Cv) : (s.setCv n v).remoteId = s.remoteId := rfl
@[simp] theorem State.setCv_incarn (s : State) (n : Nat) (v : Cv) : (s.setCv n v).incarn = s.incarn := rfl
@[simp] theorem State.setCv_peers (s : State) (n : Nat) (v : Cv) : (s.setCv n v).peers = s.peers := rfl
@[simp] theorem State.setCv_epoch (s : State) (n : Nat) (v : Cv) : (s.setCv n v).epoch = s.epoch := rfl
@[simp] theorem State.setCv_seed (s : State) (n : Nat) (v : Cv) : (s.setCv n v).seed = s.seed := rfl
@[simp] theorem State.setCv_hold (s : State) (n : Nat) (v : Cv) : (s.setCv n v).hold = s.hold := rfl
@[simp] theorem State.setCv_crings (s : State) (n : Nat) (v : Cv) : (s.setCv n v).crings = s.crings := rfl
@[simp] theorem State.setCv_erings (s : State) (n : Nat) (v : Cv) : (s.setCv n v).erings = s.erings := rfl
@[simp] theorem State.setCv_seqs (s : State) (n : Nat) (v : Cv) : (s.setCv n v).seqs = s.seqs := rfl
@[simp] theorem State.setCv_waitRecs (s : State) (n : Nat) (v : Cv) : (s.setCv n v).waitRecs = s.waitRecs := rfl
@[simp] theorem State.setCv_cmds (s : State) (n : Nat) (v : Cv) : (s.setCv n v).cmds = s.cmds := rfl
@[simp] theorem State.setCv_cmdId (s : State) (n : Nat) (v : Cv) : (s.setCv n v).cmdId = s.cmdId := rfl
@[simp] theorem State.setCv_turn (s : State) (n : Nat) (v : Cv) : (s.setCv n v).turn = s.turn := rfl
@[simp] theorem State.setCv_hostWrites (s : State) (n : Nat) (v : Cv) : (s.setCv n v).hostWrites = s.hostWrites := rfl
@[simp] theorem State.setCv_linkDown (s : State) (n : Nat) (v : Cv) : (s.setCv n v).linkDown = s.linkDown := rfl
@[simp] theorem State.setCv_ctx (s : State) (n : Nat) (v : Cv) : (s.setCv n v).ctx = s.ctx := rfl
@[simp] theorem State.setCv_replacing (s : State) (n : Nat) (v : Cv) : (s.setCv n v).replacing = s.replacing := rfl
@[simp] theorem State.setCv_memEccCtl (s : State) (n : Nat) (v : Cv) : (s.setCv n v).memEccCtl = s.memEccCtl := rfl
@[simp] theorem State.setCv_writesOut (s : State) (n : Nat) (v : Cv) : (s.setCv n v).writesOut = s.writesOut := rfl
@[simp] theorem State.setCv_regions (s : State) (n : Nat) (v : Cv) : (s.setCv n v).regions = s.regions := rfl
@[simp] theorem State.setCv_clk (s : State) (n : Nat) (v : Cv) : (s.setCv n v).clk = s.clk := rfl
@[simp] theorem State.setCv_boot (s : State) (n : Nat) (v : Cv) : (s.setCv n v).boot = s.boot := rfl
@[simp] theorem State.setCv_meshRegs (s : State) (n : Nat) (v : Cv) : (s.setCv n v).meshRegs = s.meshRegs := rfl
@[simp] theorem State.setCv_flash (s : State) (n : Nat) (v : Cv) : (s.setCv n v).flash = s.flash := rfl
@[simp] theorem State.setCv_press (s : State) (n : Nat) (v : Cv) : (s.setCv n v).press = s.press := rfl
@[simp] theorem State.setCv_dld (s : State) (n : Nat) (v : Cv) : (s.setCv n v).dld = s.dld := rfl
@[simp] theorem State.setCv_shard (s : State) (n : Nat) (v : Cv) : (s.setCv n v).shard = s.shard := rfl
@[simp] theorem State.setCv_lastRun (s : State) (n : Nat) (v : Cv) : (s.setCv n v).lastRun = s.lastRun := rfl
@[simp] theorem State.setCv_epochCmd (s : State) (n : Nat) (v : Cv) : (s.setCv n v).epochCmd = s.epochCmd := rfl
@[simp] theorem State.setCv_epochQueue (s : State) (n : Nat) (v : Cv) : (s.setCv n v).epochQueue = s.epochQueue := rfl
@[simp] theorem State.setCv_ingestQ (s : State) (n : Nat) (v : Cv) : (s.setCv n v).ingestQ = s.ingestQ := rfl
@[simp] theorem State.setCv_engines (s : State) (n : Nat) (v : Cv) : (s.setCv n v).engines = s.engines := rfl
@[simp] theorem State.setCv_crmErr (s : State) (n : Nat) (v : Cv) : (s.setCv n v).crmErr = s.crmErr := rfl
@[simp] theorem State.setCv_clipsWritten (s : State) (n : Nat) (v : Cv) : (s.setCv n v).clipsWritten = s.clipsWritten := rfl
@[simp] theorem State.setCv_clipsDropped (s : State) (n : Nat) (v : Cv) : (s.setCv n v).clipsDropped = s.clipsDropped := rfl
@[simp] theorem State.setCv_noProgress (s : State) (n : Nat) (v : Cv) : (s.setCv n v).noProgress = s.noProgress := rfl
@[simp] theorem State.setCv_maint (s : State) (n : Nat) (v : Cv) : (s.setCv n v).maint = s.maint := rfl
@[simp] theorem State.setCv_hardLeft (s : State) (n : Nat) (v : Cv) : (s.setCv n v).hardLeft = s.hardLeft := rfl
@[simp] theorem State.setCv_softReps (s : State) (n : Nat) (v : Cv) : (s.setCv n v).softReps = s.softReps := rfl
@[simp] theorem State.setCv_postponed (s : State) (n : Nat) (v : Cv) : (s.setCv n v).postponed = s.postponed := rfl
@[simp] theorem State.setCv_loopTest (s : State) (n : Nat) (v : Cv) : (s.setCv n v).loopTest = s.loopTest := rfl
@[simp] theorem State.setCv_lbStatus (s : State) (n : Nat) (v : Cv) : (s.setCv n v).lbStatus = s.lbStatus := rfl
@[simp] theorem State.setCv_reflect (s : State) (n : Nat) (v : Cv) : (s.setCv n v).reflect = s.reflect := rfl
@[simp] theorem State.setCv_sec (s : State) (n : Nat) (v : Cv) : (s.setCv n v).sec = s.sec := rfl
@[simp] theorem State.setCv_mgmt (s : State) (n : Nat) (v : Cv) : (s.setCv n v).mgmt = s.mgmt := rfl
@[simp] theorem State.setCv_jtag (s : State) (n : Nat) (v : Cv) : (s.setCv n v).jtag = s.jtag := rfl
@[simp] theorem State.setCv_rsv (s : State) (n : Nat) (v : Cv) : (s.setCv n v).rsv = s.rsv := rfl
@[simp] theorem State.setCv_gsemNet (s : State) (n : Nat) (v : Cv) : (s.setCv n v).gsemNet = s.gsemNet := rfl
@[simp] theorem State.setCv_gsemErr0 (s : State) (n : Nat) (v : Cv) : (s.setCv n v).gsemErr0 = s.gsemErr0 := rfl
@[simp] theorem State.setCv_gsemSent (s : State) (n : Nat) (v : Cv) : (s.setCv n v).gsemSent = s.gsemSent := rfl
@[simp] theorem State.setCv_hostBanks (s : State) (n : Nat) (v : Cv) : (s.setCv n v).hostBanks = s.hostBanks := rfl
@[simp] theorem State.setCv_cfgWait (s : State) (n : Nat) (v : Cv) : (s.setCv n v).cfgWait = s.cfgWait := rfl
@[simp] theorem State.setCv_writesIn (s : State) (n : Nat) (v : Cv) : (s.setCv n v).writesIn = s.writesIn := rfl

/-! ### Reads after updates -/

@[simp] theorem State.core_setCore (s : State) (c : Nat) (k : Core) (j : Nat) :
    (s.setCore c k).core j = if j = c then k else s.core j := Sparse.get_set _ _ _ _ _

@[simp] theorem State.cring_setCring (s : State) (r : Nat) (k : CRing) (j : Nat) :
    (s.setCring r k).cring j = if j = r then k else s.cring j := Sparse.get_set _ _ _ _ _

@[simp] theorem State.ering_setEring (s : State) (r : Nat) (k : ERing) (j : Nat) :
    (s.setEring r k).ering j = if j = r then k else s.ering j := Sparse.get_set _ _ _ _ _

@[simp] theorem State.port_setPort (s : State) (n : Nat) (p : Port) (j : Nat) :
    (s.setPort n p).port j = if j = n then p else s.port j := Sparse.get_set _ _ _ _ _

@[simp] theorem State.region_setRegion (s : State) (r : Nat) (g : Region) (j : Nat) :
    (s.setRegion r g).region j = if j = r then g else s.region j := Sparse.get_set _ _ _ _ _

@[simp] theorem State.unit_setUnit (s : State) (u : Nat) (m : MemUnit) (j : Nat) :
    (s.setUnit u m).unit j = if j = u then m else s.unit j := Sparse.get_set _ _ _ _ _

@[simp] theorem State.engine_setEngine (s : State) (e : Nat) (g : Ingest) (j : Nat) :
    (s.setEngine e g).engine j = if j = e then g else s.engine j := Sparse.get_set _ _ _ _ _

@[simp] theorem State.cv_setCv (s : State) (n : Nat) (v : Cv) (j : Nat) :
    (s.setCv n v).cv j = if j = n then v else s.cv j := Sparse.get_set _ _ _ _ _

/-- Every active core changed by a function reads as changed. -/
theorem State.core_mapCores (s : State) (f : Nat → Core → Core) (c : Nat) :
    (s.mapCores f).core c = if c < 160 then (if s.fuse.active c then f c (s.core c) else s.core c) else {} :=
  Sparse.get_ofFn _ _ _ _

/-- The cores after an issue. -/
theorem State.core_issue (s : State) (n : Nat) (f : State → Nat → Core → Core) (c : Nat) :
    (s.issue n f).core c = if c < 160 then (if s.issues n c then f s c (s.core c) else s.core c) else {} :=
  Sparse.get_ofFn _ _ _ _

/-- Every region changed by a function reads as changed. -/
theorem State.region_mapRegions (s : State) (f : Nat → Region → Region) (r : Nat) :
    (s.mapRegions f).region r = if r < 16 then f r (s.region r) else {} := Sparse.get_ofFn _ _ _ _

/-- Every command is the same but the one that changes. -/
@[simp] theorem State.cmds_modCmd (s : State) (i : Nat) (f : Cmd → Cmd) :
    (s.modCmd i f).cmds = s.cmds.map (fun c => if c.id = i then f c else c) := rfl

@[simp] theorem State.emit_outbox (s : State) (o : Out) : (s.emit o).outbox = s.outbox ++ [o] := rfl

end Sys2Proof.Machine
end

