-- ==== Sys2Proof/Laws/Slots.lean ====
section
/-! SUPPORT. What the command of a slot does where its bundle holds it, and what the delivery of a command does. -/

namespace Sys2Proof.Machine

theorem live_of (s : State) (o : Host.Outcome State Fault Refusal) (h : s.clk.lost = false) : live s o = o := by simp [live, h]

theorem fetched_of {s : State} {n : Nat} {w : SlotWord} (h : SlotRuns s n w) (o : Host.Outcome State Fault Refusal) :
    fetched s n w o = o := by simp [fetched, h.1, h.2.1]

theorem slot_false {s : State} {n : Nat} {w : SlotWord} (h : SlotRuns s n w) (f : State → Nat → Core → Core) :
    s.slot n false f = s.issue n f := by simp [State.slot, h.2.2]

theorem slot_true {s : State} {n : Nat} {w : SlotWord} (h : SlotRuns s n w) (f : State → Nat → Core → Core) :
    s.slot n true f = (s.issue n f).endBundle n := by simp [State.slot, h.2.2]

theorem issue_frame (s : State) (n : Nat) (f : State → Nat → Core → Core) : SlotFrame s (s.issue n f) n := by
  refine ⟨rfl, fun _ => rfl, ?_⟩
  intro c hc h
  simp [State.core_issue, hc, h]

/-- One slot command whose outcome is the issue of f gives what f does to every issuing core. -/
theorem slot_gives {mk : Bool → Sys2Proof.Instr} {w : SlotWord} {s : State} {n : Nat} {P : Nat → Core → Core → Prop}
    (f : State → Nat → Core → Core) (hm : ∀ l, exec (mk l) s = fetched s n w (.next (s.slot n l f)))
    (hP : ∀ c, c < 160 → P c (s.core c) (f s c (s.core c))) : SlotGives mk w s n P := by
  intro h
  refine ⟨s.issue n f, ?_, ?_, issue_frame s n f, ?_⟩
  · rw [hm, fetched_of h, slot_false h]
  · rw [hm, fetched_of h, slot_true h]
  · intro c hc hi
    rw [State.core_issue, if_pos hc, if_pos hi]
    exact hP c hc

/-! ### Cores -/

theorem CoreKept.refl (k : Core) : CoreKept k k := rfl

theorem CoreKept.trans {a b c : Core} (h : CoreKept a b) (h' : CoreKept b c) : CoreKept a c := by
  unfold CoreKept at *; rw [h'] ; rw [h]

theorem hazardAt_kept (k : Core) (debug : Bool) (n kind detail : Nat) : CoreKept k (k.hazardAt debug n kind detail) := by
  unfold Core.hazardAt Core.hazardOf; split <;> rfl

@[simp] theorem hazardAt_queue (k : Core) (debug : Bool) (n kind detail : Nat) : (k.hazardAt debug n kind detail).queue = k.queue := by
  unfold Core.hazardAt Core.hazardOf; split <;> rfl

@[simp] theorem hazardAt_stallDue (k : Core) (debug : Bool) (n kind detail : Nat) :
    (k.hazardAt debug n kind detail).stallDue = k.stallDue := by
  unfold Core.hazardAt Core.hazardOf; split <;> rfl

theorem checkRead_kept (debug : Bool) (n cls num : Nat) (k : Core) : CoreKept k (Core.checkRead debug n cls num k) := by
  have key : ∀ b : Bool, CoreKept k (if b then k.hazardAt debug n 3 (cls * 2 ^ 12 + num) else k) := by
    intro b
    cases b
    · exact CoreKept.refl k
    · exact hazardAt_kept _ _ _ _ _
  exact key _

@[simp] theorem checkRead_queue (debug : Bool) (n cls num : Nat) (k : Core) : (Core.checkRead debug n cls num k).queue = k.queue := by
  have key : ∀ b : Bool, (if b then k.hazardAt debug n 3 (cls * 2 ^ 12 + num) else k).queue = k.queue := by
    intro b
    cases b
    · rfl
    · exact hazardAt_queue _ _ _ _ _
  exact key _

@[simp] theorem checkRead_stallDue (debug : Bool) (n cls num : Nat) (k : Core) : (Core.checkRead debug n cls num k).stallDue = k.stallDue := by
  have key : ∀ b : Bool, (if b then k.hazardAt debug n 3 (cls * 2 ^ 12 + num) else k).stallDue = k.stallDue := by
    intro b
    cases b
    · rfl
    · exact hazardAt_stallDue _ _ _ _ _
  exact key _

/-- A fold of changes that keep a core but for P keeps it. -/
theorem fold_kept {α : Type} (f : Core → α → Core) (hf : ∀ k x, CoreKept k (f k x) ∧ (f k x).queue = k.queue ∧ (f k x).stallDue = k.stallDue)
    (l : List α) (k : Core) : CoreKept k (l.foldl f k) ∧ (l.foldl f k).queue = k.queue ∧ (l.foldl f k).stallDue = k.stallDue := by
  induction l generalizing k with
  | nil => exact ⟨rfl, rfl, rfl⟩
  | cons a t ih =>
    obtain ⟨h1, h2, h3⟩ := ih (f k a)
    obtain ⟨g1, g2, g3⟩ := hf k a
    exact ⟨g1.trans h1, h2.trans g2, h3.trans g3⟩

theorem checkReads_all (k : Core) (debug : Bool) (n : Nat) (l : List (Nat × Nat)) :
    CoreKept k (k.checkReads debug n l) ∧ (k.checkReads debug n l).queue = k.queue ∧ (k.checkReads debug n l).stallDue = k.stallDue :=
  fold_kept (fun k (p : Nat × Nat) => Core.checkRead debug n p.1 p.2 k)
    (fun k p => ⟨checkRead_kept debug n p.1 p.2 k, checkRead_queue debug n p.1 p.2 k, checkRead_stallDue debug n p.1 p.2 k⟩) l k

theorem checkReads_kept (k : Core) (debug : Bool) (n : Nat) (l : List (Nat × Nat)) : CoreKept k (k.checkReads debug n l) :=
  (checkReads_all k debug n l).1

@[simp] theorem checkReads_queue (k : Core) (debug : Bool) (n : Nat) (l : List (Nat × Nat)) : (k.checkReads debug n l).queue = k.queue :=
  (checkReads_all k debug n l).2.1

@[simp] theorem checkReads_stallDue (k : Core) (debug : Bool) (n : Nat) (l : List (Nat × Nat)) :
    (k.checkReads debug n l).stallDue = k.stallDue := (checkReads_all k debug n l).2.2

theorem checkLane_kept (debug : Bool) (n : Nat) (k : Core) (x : Nat × Option Nat) : CoreKept k (Core.checkLane debug n k x) := by
  unfold Core.checkLane
  split
  · exact hazardAt_kept _ _ _ _ _
  · exact CoreKept.refl k

@[simp] theorem checkLane_queue (debug : Bool) (n : Nat) (k : Core) (x : Nat × Option Nat) : (Core.checkLane debug n k x).queue = k.queue := by
  unfold Core.checkLane
  split
  · exact hazardAt_queue _ _ _ _ _
  · rfl

@[simp] theorem checkLane_stallDue (debug : Bool) (n : Nat) (k : Core) (x : Nat × Option Nat) :
    (Core.checkLane debug n k x).stallDue = k.stallDue := by
  unfold Core.checkLane
  split
  · exact hazardAt_stallDue _ _ _ _ _
  · rfl

theorem noteVec_kept (k : Core) (slots masks : List Nat) :
    CoreKept k (k.noteVec slots masks) ∧ (k.noteVec slots masks).queue = k.queue ∧ (k.noteVec slots masks).stallDue = k.stallDue := by
  have h := fold_kept Core.slotParity (fun _ _ => ⟨rfl, rfl, rfl⟩) (slots.filter k.slotPoison) k
  have key : ∀ (b : Bool) (k' : Core), CoreKept k k' ∧ k'.queue = k.queue ∧ k'.stallDue = k.stallDue →
      CoreKept k (if b then { k' with vecErr := setBit k'.vecErr 1, cond := setBit k'.cond 0 } else k') ∧
      (if b then { k' with vecErr := setBit k'.vecErr 1, cond := setBit k'.cond 0 } else k').queue = k.queue ∧
      (if b then { k' with vecErr := setBit k'.vecErr 1, cond := setBit k'.cond 0 } else k').stallDue = k.stallDue := by
    intro b k' h
    cases b
    · exact h
    · exact ⟨h.1.trans rfl, h.2.1, h.2.2⟩
  exact key _ _ h

theorem vecReads_all (k : Core) (debug : Bool) (n : Nat) (lanes : List (Nat × Option Nat)) (masks : List Nat) :
    CoreKept k (k.vecReads debug n lanes masks) ∧ (k.vecReads debug n lanes masks).queue = k.queue ∧
      (k.vecReads debug n lanes masks).stallDue = k.stallDue := by
  have h1 := fold_kept (Core.checkLane debug n) (fun k x => ⟨checkLane_kept debug n k x, checkLane_queue debug n k x, checkLane_stallDue debug n k x⟩) lanes k
  have h2 := checkReads_all (lanes.foldl (Core.checkLane debug n) k) debug n (masks.map (fun m => (2, m)))
  have h3 := noteVec_kept ((lanes.foldl (Core.checkLane debug n) k).checkReads debug n (masks.map (fun m => (2, m)))) (lanes.map Prod.fst) masks
  exact ⟨(h1.1.trans h2.1).trans h3.1, h3.2.1.trans (h2.2.1.trans h1.2.1), h3.2.2.trans (h2.2.2.trans h1.2.2)⟩

theorem vecReads_kept (k : Core) (debug : Bool) (n : Nat) (lanes : List (Nat × Option Nat)) (masks : List Nat) :
    CoreKept k (k.vecReads debug n lanes masks) := (vecReads_all k debug n lanes masks).1

@[simp] theorem vecReads_queue (k : Core) (debug : Bool) (n : Nat) (lanes : List (Nat × Option Nat)) (masks : List Nat) :
    (k.vecReads debug n lanes masks).queue = k.queue := (vecReads_all k debug n lanes masks).2.1

@[simp] theorem vecReads_stallDue (k : Core) (debug : Bool) (n : Nat) (lanes : List (Nat × Option Nat)) (masks : List Nat) :
    (k.vecReads debug n lanes masks).stallDue = k.stallDue := (vecReads_all k debug n lanes masks).2.2

/-- An event pushed on a core that only its reads have been noted on. -/
theorem due_push {a b : Core} (at_ n : Nat) (w : Micro) (h : CoreKept a b) (hq : b.queue = a.queue) (hs : b.stallDue = a.stallDue) :
    CoreDue a (b.push at_ n w) at_ n w := by
  refine ⟨?_, ?_, [], ?_⟩
  · unfold CoreKept at *; unfold Core.push; rw [h]
  · simp [Core.push, hq]
  · simp [Core.push, hs]

/-- The same with the contract of an item. -/
theorem due_contract {a b : Core} {at_ n : Nat} {w : Micro} (f : Fuse) (i m x : Nat) (h : CoreDue a b at_ n w) :
    CoreDue a (b.contract f i m x) at_ n w := by
  unfold Core.contract
  split
  · exact h
  · obtain ⟨hk, hq, l, hl⟩ := h
    refine ⟨?_, hq, l ++ [(m + contractOf i + x, b.stall + f.excessOf i)], ?_⟩
    · unfold CoreKept at *; rw [hk]
    · simp [hl]

/-- A result that lands lat counts after issue, with its item's contract. -/
theorem due_land {a b : Core} (f : Fuse) (n lat i x : Nat) (e : Landed) (h : CoreKept a b) (hq : b.queue = a.queue)
    (hs : b.stallDue = a.stallDue) :
    CoreDue a ((b.land n lat e).contract f i n x) (n + lat - 1) n (.land e) := due_contract f i n x (due_push _ _ _ h hq hs)

/-! ### Delivery -/

theorem refuseReserved_of {s : State} {r : Nat} {row : Row} {d : Desc} (h : Offered s r row d) (k : Nat) : refuseReserved k s = s := by
  cases k with
  | zero => rfl
  | succ k =>
    unfold refuseReserved
    obtain ⟨l, hl⟩ : ∃ l, s.served = r :: l := List.head?_eq_some_iff.1 h.2.1
    rw [hl]
    simp [h.2.2.1, h.2.2.2]

/-- The next command to be delivered is delivered, and its row's meaning runs with its number (R541). -/
theorem deliver_of {s : State} {r : Nat} {row : Row} {d : Desc} (h : Offered s r row d) (f : State → Desc → Nat → State) :
    s.deliver r row f = f (delivered s r d) d s.cmdId := by
  unfold State.deliver
  simp only [refuseReserved_of h, h.2.1, h.2.2.1, h.2.2.2, and_self, if_true]
  rfl

end Sys2Proof.Machine
end

