-- ==== Sys2Proof/WellFormed.lean ====
section
/-! DEFINITION. Which commands are well formed: every operand in the range that the spec gives its field. -/

namespace Sys2Proof

/-- A source: 9, 1 and 7 bits; LANE_SEL is 0 where LANE_STRIDE is 1 (R244). -/
def VSrc.wf (v : VSrc) : Bool := decide (v.slot < 512) && decide (v.sel < 128) && (!v.ls || v.sel == 0)

/-- The fields of a vector instruction (R244). -/
def VFields.wf (v : VFields) : Bool := decide (v.vd < 512) && decide (v.mask < 8) && v.va.wf && v.vb.wf && v.vc.wf

/-- A core, and the place in its storage, exist. -/
def hitOk : Hit → Bool
  | .bundle => true
  | .fwd c | .ret c => decide (c < 160)
  | .inj c _ => decide (c < 160)
  | .wbuf c a => decide (c < 160) && decide (a < 4)
  | .acc c a row => decide (c < 160) && decide (a < 4) && decide (row < 2048)
  | .slot c v => decide (c < 160) && decide (v < 512)
  | .mask c m => decide (c < 160) && decide (0 < m) && decide (m < 8)

/-- The port and the slot number exist. -/
def Rx.wf (x : Rx) : Bool := decide (x.port < 24) && decide (x.seq < 256)

/-- Every operand in range. -/
def wellFormed : Instr → Bool
  | .bindProgram r => decide (r < 64)
  | .rePlacement r => decide (r < 64)
  | .placementAtBoundary => true
  | .run r => decide (r < 64)
  | .runCompletion => true
  | .ladleCopy r => decide (r < 64)
  | .ingestJob r => decide (r < 64)
  | .stirrerEpoch r => decide (r < 64)
  | .pressJob x => decide (x.ring < 64)
  | .pressGroupTableLoad r => decide (r < 64)
  | .shardGroupTableLoad r => decide (r < 64)
  | .semaphoreWait r => decide (r < 64)
  | .semaphoreAdd r => decide (r < 64)
  | .semaphoreSubtract r => decide (r < 64)
  | .contextSwitch r => decide (r < 64)
  | .contextStart => true
  | .calRead r => decide (r < 64)
  | .calWrite r => decide (r < 64)
  | .loopback r => decide (r < 64)
  | .loopbackByteTimeout _ => true
  | .gaugeSample r => decide (r < 64)
  | .fence r => decide (r < 64)
  | .fenceRelease r => decide (r < 64)
  | .doorbell r value host => decide (r < 64) && decide (value < 2 ^ 64) && host.all (fun c => decide (2 ^ 47 ≤ c.1) && decide (c.1 < 2 ^ 48))
  | .descriptorRead r _ => decide (r < 64)
  | .commandRingEnable r value => decide (r < 64) && decide (value < 2 ^ 32)
  | .commandRingDisable r value => decide (r < 64) && decide (value < 2 ^ 32)
  | .eventRingEnable e value => decide (e < 8) && decide (value < 2 ^ 32)
  | .eventRingHeadWrite e value => decide (e < 8) && decide (value < 2 ^ 32)
  | .armed e value => decide (e < 8) && decide (value < 2 ^ 32)
  | .deviceReset => true
  | .deviceResetRequest value => decide (value < 2 ^ 32)
  | .startUp modules _ _ _ _ _ fails strap => decide (modules < 16) && fails.all (fun f => decide (f.1 < 512) && decide (f.2 < 3)) && decide (strap < 4)
  | .serviceRequest value => decide (value < 2 ^ 32)
  | .referenceSwitch value => decide (value < 2 ^ 32)
  | .referenceSwitchComplete => true
  | .referenceLoss => true
  | .cfgBusChange value => decide (value < 2 ^ 32)
  | .synchronisedChangeRequest value => decide (value < 2 ^ 32)
  | .standbyPllLock r => decide (r < 16)
  | .lockCheck => true
  | .changeHold => true
  | .clockSwitch => true
  | .stoppedChangeRequest value => decide (value < 2 ^ 32)
  | .stoppedChangeRestart => true
  | .clkEnCrm value => decide (value < 2 ^ 32)
  | .clkEnGrb value => decide (value < 2 ^ 32)
  | .clkEnMisc value => decide (value < 2 ^ 32)
  | .bulkTankReady fitted => fitted.length == 16
  | .holdCounterClear value => decide (value < 2 ^ 32)
  | .quiesce k value => decide (k < 8) && decide (value < 2 ^ 32)
  | .stackQuiesced k => decide (k < 8)
  | .sppr value => decide (value < 2 ^ 32)
  | .hppr value => decide (value < 2 ^ 32)
  | .spares value => decide (value < 2 ^ 32)
  | .ieee1500 value => decide (value < 2 ^ 32)
  | .maintenanceOperationEnd _ _ _ => true
  | .checkValueBlockStart n value => decide (n < 4) && decide (value < 2 ^ 32)
  | .feedb n x => decide (n < 4) && decide (x.value < 2 ^ 8)
  | .feedh n x => decide (n < 4) && decide (x.value < 2 ^ 16)
  | .feedw n x => decide (n < 4) && decide (x.value < 2 ^ 32)
  | .portUpRequest n value => decide (n < 24) && decide (value < 2 ^ 32)
  | .portDownRequest n value => decide (n < 24) && decide (value < 2 ^ 32)
  | .linkUp n _ => decide (n < 24)
  | .linkFailure n cause => decide (n < 24) && decide (0 < cause) && decide (cause < 5)
  | .reflect value => decide (value < 2 ^ 32)
  | .attestationRequest value => decide (value < 2 ^ 32)
  | .attestationDone _ => true
  | .bootCheckRequest value => decide (value < 2 ^ 32)
  | .bootCheckEnd _ => true
  | .registerWrite off w x => decide (off < 2 ^ 26) && (w == 4 || w == 8) && decide (x.value < 2 ^ (8 * w)) && decide (x.raced < 2 ^ (8 * w))
  | .memoryRead a n _ => decide (a < 2 ^ 48) && decide (31 < n) && decide (n < 257)
  | .memoryWrite a data _ => decide (a < 2 ^ 48) && decide (0 < data.bytes.length) && decide (data.bytes.length < 257)
  | .writeAcknowledgement _ => true
  | .flitReplay _ => true
  | .privateWrite addr _ => decide (addr < 128)
  | .privateRead addr _ => decide (addr < 128)
  | .setdasa static dyn => decide (static < 128) && decide (dyn < 128)
  | .entdaa dyn => decide (dyn < 128)
  | .jtagBypass _ => true
  | .jtagIdcode => true
  | .samplePreload _ _ => true
  | .jtagExtest _ _ => true
  | .jtagClamp _ => true
  | .jtagHighz _ => true
  | .throttleRaise => true
  | .throttleClear => true
  | .nop _ _ hits => hits.all hitOk
  | .mop _ _ mode arrays _ rows as bs ut stride su => decide (mode < 3) && decide (0 < arrays) && decide (arrays < 16) && decide (0 < rows) && decide (rows < 4096) && decide (as < 16) && decide (bs < 16) && decide (ut < 16) && decide (stride < 2048) && decide (su < 32) && (if mode = 2 then rows % 64 == 0 && stride == 0 else bs == 0 && su == 0)
  | .mopQueueStart _ => true
  | .fadd _ _ v => v.wf
  | .fsub _ _ v => v.wf
  | .fmul _ _ v => v.wf
  | .fma _ _ v => v.wf
  | .fmin _ _ v => v.wf
  | .fmax _ _ v => v.wf
  | .fabs _ _ v => v.wf
  | .fneg _ _ v => v.wf
  | .fcmpeq _ _ v => v.wf
  | .fcmpne _ _ v => v.wf
  | .fcmplt _ _ v => v.wf
  | .fcmple _ _ v => v.wf
  | .sel _ _ v => v.wf
  | .fdiv _ _ v => v.wf
  | .fsqrt _ _ v => v.wf
  | .exp2 _ _ v => v.wf
  | .exp _ _ v => v.wf
  | .log2 _ _ v => v.wf
  | .ln _ _ v => v.wf
  | .rsqrt _ _ v => v.wf
  | .sinpi _ _ v => v.wf
  | .cospi _ _ v => v.wf
  | .tanh _ _ v => v.wf
  | .sigm _ _ v => v.wf
  | .erf _ _ v => v.wf
  | .f2i _ _ v => v.wf
  | .f2iz _ _ v => v.wf
  | .i2f _ _ v => v.wf
  | .frnd _ _ v => v.wf
  | .iadd _ _ v => v.wf
  | .isub _ _ v => v.wf
  | .imul _ _ v => v.wf
  | .imin _ _ v => v.wf
  | .imax _ _ v => v.wf
  | .iabs _ _ v => v.wf
  | .icmpeq _ _ v => v.wf
  | .icmpne _ _ v => v.wf
  | .icmplt _ _ v => v.wf
  | .icmple _ _ v => v.wf
  | .vand _ _ v => v.wf
  | .vor _ _ v => v.wf
  | .vxor _ _ v => v.wf
  | .vnot _ _ v => v.wf
  | .vshl _ _ v => v.wf
  | .vshr _ _ v => v.wf
  | .vsar _ _ v => v.wf
  | .rol _ _ v => v.wf
  | .madd _ _ v => v.wf
  | .mullo _ _ v => v.wf
  | .mulhi _ _ v => v.wf
  | .ucmplt _ _ v => v.wf
  | .ucmple _ _ v => v.wf
  | .laneidx _ _ v => v.wf
  | .perm _ _ v => v.wf
  | .genrd _ _ v => v.wf
  | .rfsum _ _ v => v.wf
  | .risum _ _ v => v.wf
  | .rfmax _ _ v => v.wf
  | .rfmin _ _ v => v.wf
  | .rimax _ _ v => v.wf
  | .rimin _ _ v => v.wf
  | .ridxmax _ _ v => v.wf
  | .mand _ _ md ma mb => decide (md < 8) && decide (ma < 8) && decide (mb < 8)
  | .mor _ _ md ma mb => decide (md < 8) && decide (ma < 8) && decide (mb < 8)
  | .mxor _ _ md ma mb => decide (md < 8) && decide (ma < 8) && decide (mb < 8)
  | .mandn _ _ md ma mb => decide (md < 8) && decide (ma < 8) && decide (mb < 8)
  | .mrange _ _ md sa => decide (md < 8) && decide (sa < 32)
  | .setvl _ _ sa => decide (sa < 32)
  | .add _ _ sd sa sb => decide (sd < 32) && decide (sa < 32) && decide (sb < 32)
  | .sub _ _ sd sa sb => decide (sd < 32) && decide (sa < 32) && decide (sb < 32)
  | .mul _ _ sd sa sb => decide (sd < 32) && decide (sa < 32) && decide (sb < 32)
  | .and _ _ sd sa sb => decide (sd < 32) && decide (sa < 32) && decide (sb < 32)
  | .or _ _ sd sa sb => decide (sd < 32) && decide (sa < 32) && decide (sb < 32)
  | .xor _ _ sd sa sb => decide (sd < 32) && decide (sa < 32) && decide (sb < 32)
  | .shl _ _ sd sa sb => decide (sd < 32) && decide (sa < 32) && decide (sb < 32)
  | .shr _ _ sd sa sb => decide (sd < 32) && decide (sa < 32) && decide (sb < 32)
  | .sar _ _ sd sa sb => decide (sd < 32) && decide (sa < 32) && decide (sb < 32)
  | .min _ _ sd sa sb => decide (sd < 32) && decide (sa < 32) && decide (sb < 32)
  | .max _ _ sd sa sb => decide (sd < 32) && decide (sa < 32) && decide (sb < 32)
  | .slt _ _ sd sa sb => decide (sd < 32) && decide (sa < 32) && decide (sb < 32)
  | .sltu _ _ sd sa sb => decide (sd < 32) && decide (sa < 32) && decide (sb < 32)
  | .seq _ _ sd sa sb => decide (sd < 32) && decide (sa < 32) && decide (sb < 32)
  | .li _ _ sd _ => decide (sd < 32)
  | .addi _ _ sd sa _ => decide (sd < 32) && decide (sa < 32)
  | .andi _ _ sd sa _ => decide (sd < 32) && decide (sa < 32)
  | .ori _ _ sd sa _ => decide (sd < 32) && decide (sa < 32)
  | .xori _ _ sd sa _ => decide (sd < 32) && decide (sa < 32)
  | .shli _ _ sd sa imm => decide (imm.toNat < 64) && decide (sd < 32) && decide (sa < 32)
  | .shri _ _ sd sa imm => decide (imm.toNat < 64) && decide (sd < 32) && decide (sa < 32)
  | .sari _ _ sd sa imm => decide (imm.toNat < 64) && decide (sd < 32) && decide (sa < 32)
  | .lui _ _ sd sa _ => decide (sd < 32) && decide (sa < 32)
  | .ld _ _ size sd sa _ => decide (size < 4) && decide (sd < 32) && decide (sa < 32)
  | .lds _ _ size sd sa _ => decide (size < 3) && decide (sd < 32) && decide (sa < 32)
  | .st _ _ size sd sa _ => decide (size < 4) && decide (sd < 32) && decide (sa < 32)
  | .rdsr _ _ sd num => (decide (num < 7) || (decide (7 < num) && decide (num < 12))) && decide (sd < 32)
  | .idle _ _ count => decide (count < 65536)
  | .idleEnd _ => true
  | .br _ _ target => decide (target < 16384)
  | .beq _ _ sa sb target => decide (sa < 32) && decide (sb < 32) && decide (target < 16384)
  | .bne _ _ sa sb target => decide (sa < 32) && decide (sb < 32) && decide (target < 16384)
  | .blt _ _ sa sb target => decide (sa < 32) && decide (sb < 32) && decide (target < 16384)
  | .bge _ _ sa sb target => decide (sa < 32) && decide (sb < 32) && decide (target < 16384)
  | .loop _ _ sa target => decide (sa < 32) && decide (target < 16384)
  | .loopCountExpiry _ => true
  | .endProg _ _ => true
  | .fill _ _ slot laneBase c128 fmt sa => !(laneBase && c128) && decide (fmt < 13) && fmt != 11 && decide (slot < 512) && decide (sa < 32)
  | .store _ _ tmpl sa src sb _ sem sig => decide (tmpl < 64) && decide (src < 512) && decide (sem < 256) && (sig || sem == 0) && decide (sa < 32) && decide (sb < 32)
  | .storeSignal core _ => decide (core < 160)
  | .movsv _ _ slot lane sa => decide (slot < 512) && decide (lane < 128) && decide (sa < 32)
  | .movvs _ _ slot lane sd => decide (slot < 512) && decide (lane < 128) && decide (sd < 32)
  | .setas _ _ as sa sb sc fmt => decide (as < 16) && decide (fmt < 32) && decide (sa < 32) && decide (sb < 32) && decide (sc < 32)
  | .mpop _ _ mask sd => decide (mask < 8) && decide (sd < 32)
  | .semwait _ _ glob idx sa _ => decide (idx < if glob then 1024 else 256) && decide (sa < 32)
  | .semWaitMet core => decide (core < 160)
  | .semadd _ _ glob idx sa _ => decide (idx < if glob then 1024 else 256) && decide (sa < 32)
  | .semsub _ _ glob idx sa _ => decide (idx < if glob then 1024 else 256) && decide (sa < 32)
  | .rsemadd _ _ glob idx sa sb => decide (idx < if glob then 1024 else 256) && decide (sa < 32) && decide (sb < 32)
  | .rsemsub _ _ glob idx sa sb => decide (idx < if glob then 1024 else 256) && decide (sa < 32) && decide (sb < 32)
  | .semrd _ _ glob idx sd => decide (idx < if glob then 1024 else 256) && decide (sd < 32)
  | .stepChurn _ _ retStart rt late hits => hits.all hitOk && decide (rt < 16) && (retStart || rt == 0) && decide (late < 3)
  | .ldi _ _ q sa hits => hits.all hitOk && decide (q < 8) && decide (sa < 32)
  | .injectedUnitLanded core _ _ _ => decide (core < 160)
  | .deliverySignal core _ => decide (core < 160)
  | .ladleTransferStart core q => decide (core < 160) && decide (q < 8)
  | .ladleSignal core q _ => decide (core < 160) && decide (q < 8)
  | .globalSemaphoreUpdate core idx => decide (core < 160) && decide (idx < 1024)
  | .triggerFire => true
  | .remoteOperationTimeout _ => true
  | .deadlockDetectorFire => true
  | .holdStop core => decide (core < 160)
  | .holdRelease => true
  | .holdResume core => decide (core < 160)
  | .stretch r _ => decide (r < 16)
  | .readRequest core q _ _ _ => decide (core < 160) && decide (q < 8)
  | .readResponse _ _ _ _ => true
  | .writePacket _ _ _ _ => true
  | .refresh unit channel bank _ => decide (unit < 9) && decide (channel < 64) && decide (bank < 32)
  | .temperatureRead k _ => decide (k < 9)
  | .scrub _ _ => true
  | .hourlyGaugeSample _ _ => true
  | .railTelemetryUpdate rails => rails.length == 8
  | .writeMsg x _ => x.wf
  | .semMsg x hops dst src incarn tag _ => x.wf && decide (hops < 16) && decide (dst < 2 ^ 14) && decide (src < 2 ^ 14) && decide (incarn < 2 ^ 16) && decide (tag < 2 ^ 32)
  | .ackMsg x hops dst src incarn tag _ => x.wf && decide (hops < 16) && decide (dst < 2 ^ 14) && decide (src < 2 ^ 14) && decide (incarn < 2 ^ 16) && decide (tag < 2 ^ 32)
  | .scaleLapMessage x _ _ _ => x.wf
  | .sumLapRecord x _ _ _ => x.wf
  | .resultLapRecord x _ _ _ => x.wf
  | .grantMsg x hops dst src incarn tag _ _ => x.wf && decide (hops < 16) && decide (dst < 2 ^ 14) && decide (src < 2 ^ 14) && decide (incarn < 2 ^ 16) && decide (tag < 2 ^ 32)
  | .abortMsg x hops dst src incarn tag _ _ => x.wf && decide (hops < 16) && decide (dst < 2 ^ 14) && decide (src < 2 ^ 14) && decide (incarn < 2 ^ 16) && decide (tag < 2 ^ 32)
  | .returnMsg x hops dst src incarn tag _ _ _ => x.wf && decide (hops < 16) && decide (dst < 2 ^ 14) && decide (src < 2 ^ 14) && decide (incarn < 2 ^ 16) && decide (tag < 2 ^ 32)
  | .skimMsg x hops dst src incarn tag _ _ _ => x.wf && decide (hops < 16) && decide (dst < 2 ^ 14) && decide (src < 2 ^ 14) && decide (incarn < 2 ^ 16) && decide (tag < 2 ^ 32)
  | .pressResend _ => true
  | .pressTimeout _ => true
  | .pressJobComplete _ => true
  | .creditItem x _ count => x.wf && decide (count < 2048)
  | .laneAck x seq => x.wf && decide (seq < 256)
  | .nakItem x seq => x.wf && decide (seq < 256)
  | .headerItem x kind hops dst src incarn len tag addr arg => x.wf && decide (kind < 256) && decide (hops < 16) && decide (dst < 2 ^ 14) && decide (src < 2 ^ 14) && decide (incarn < 2 ^ 16) && decide (len < 2 ^ 32) && decide (tag < 2 ^ 32) && decide (addr < 2 ^ 64) && decide (arg < 2 ^ 64)
  | .identityItem x self incarn port => x.wf && decide (self < 2 ^ 14) && decide (incarn < 2 ^ 16) && decide (port < 32)
  | .uncorrectableCodeword x => x.wf
  | .ingestJobAssign _ _ => true
  | .clipSignal e => decide (e < 32)
  | .ingestJobComplete e => decide (e < 32)
  | .stirrerCredit _ => true
  | .stirrerBatchFull _ => true
  | .remoteSemaphorePacket _ => true
  | .semaphoreAcknowledgement _ => true
  | .calibrationTestOperationEnd _ _ _ _ _ => true

end Sys2Proof
end

