-- ==== Sys2Proof/Tests/Slice0.lean ====
section
/-! SUPPORT. The author's own tests: an ill-formed term for each check of wellFormed, one-step tests of commands with results from the
spec, and for each statement concrete states and operands that meet its hypotheses. -/

namespace Sys2Proof.Tests

set_option Elab.async false

open Sys2Proof.Machine Sys2Proof.Claims

/-! ### Small states -/

/-- A part with the one active core 0. -/
def oneCore : Fuse := { resetFuse with fusedOff := BitVec.ofNat 160 (2 ^ 160 - 2) }

/-- The block after a good start-up in service mode, with every stack and the Bulk tank ready. -/
def up : State :=
  { State.ofReset oneCore 0 with
    boot := { started := true, done := true, phase := 7, modules := 15 }, meshRegs := { service := true }
    memUnits := (List.range 9).map (fun k => (k, { ready := true })) }

/-- A program of one bundle. -/
def progOf (bundle : Nat) : Prog :=
  { bundles := [(0, BitVec.ofNat 256 bundle)], nBundles := 8, entries := [0], templates := [], tables := [], tensors := [], check := 0
    digest := [], debug := false, tb := 1 }

/-- A run of that program whose core k is about to issue it at count 0. -/
def runs (bundle : Nat) (k : Core) : State :=
  { up with prog := some (progOf bundle), run := some { cmd := 1, entry := 0, args := [], inj := none }, cores := [(0, k)] }

/-- The core that issues, with S1 = 5 and S2 = 7. -/
def issuer : Core := { issuing := true, sregs := [(1, 5), (2, 7)] }

/-- The same state where a bundle holds one slot's word. -/
def inScalar (w : Nat) : State := runs (w * 2 ^ 128) issuer
/-- A vector slot's word. -/
def inVector (w : Nat) : State := runs (w * 2 ^ 56) issuer
/-- A move slot's word. -/
def inMove (w : Nat) : State := runs (w * 2 ^ 176) issuer
/-- A sync slot's word. -/
def inSync (w : Nat) : State := runs (w * 2 ^ 216) issuer

/-- The slot runs, as a test. -/
def slotRuns (s : State) (n : Nat) (w : SlotWord) : Bool := !s.clk.lost && s.fetches n w && !s.badFetch n

theorem slotRuns_iff (s : State) (n : Nat) (w : SlotWord) : slotRuns s n w = true ↔ SlotRuns s n w := by
  simp [slotRuns, SlotRuns, and_assoc]

/-- What a test reads of a command's outcome. -/
def result {α : Type} (o : Host.Outcome State Fault Refusal) (f : State → α) : Option α := match o with
  | .next t => some (f t)
  | _ => none

/-- A vector instruction's fields: VD 3, no mask, sources slots 1, 2, 4. -/
def v0 : VFields := { vd := 3, mask := 0, zero := false, va := ⟨1, false, 0⟩, vb := ⟨2, false, 0⟩, vc := ⟨4, false, 0⟩ }

/-- The number of a slot's word. -/
def wordOf : SlotWord → Nat
  | .vector w | .maskOp w | .scalar w | .move w | .sync w | .matrix w => w
  | .nop _ => 0

/-- What comes on port n as slot 0, not of a replay. -/
def rx (n : Nat) : Rx := ⟨n, 0, false⟩

/-! ### Ill-formed terms, each refused by one check -/

theorem test_ill_formed_a : [
    .bindProgram 64, .rePlacement 64, .run 64, .ladleCopy 64,
    .ingestJob 64, .stirrerEpoch 64, .pressJob ⟨64, []⟩, .pressGroupTableLoad 64,
    .shardGroupTableLoad 64, .semaphoreWait 64, .semaphoreAdd 64, .semaphoreSubtract 64,
    .contextSwitch 64, .calRead 64, .calWrite 64, .loopback 64,
    .gaugeSample 64, .fence 64, .fenceRelease 64, .doorbell 64 0 [],
    .doorbell 0 (2 ^ 64) [], .doorbell 0 0 [(2 ^ 47 - 1, 0)], .doorbell 0 0 [(2 ^ 48, 0)], .descriptorRead 64 false,
    .commandRingEnable 64 0, .commandRingEnable 0 (2 ^ 32), .commandRingDisable 64 0, .commandRingDisable 0 (2 ^ 32),
    .eventRingEnable 8 0, .eventRingEnable 0 (2 ^ 32), .eventRingHeadWrite 8 0, .eventRingHeadWrite 0 (2 ^ 32),
    .armed 8 0, .armed 0 (2 ^ 32), .deviceResetRequest (2 ^ 32), .startUp 16 false 0 [] [] [] [] 0,
    .startUp 0 false 0 [] [] [] [] 4, .serviceRequest (2 ^ 32), .referenceSwitch (2 ^ 32), .cfgBusChange (2 ^ 32),
    .synchronisedChangeRequest (2 ^ 32), .standbyPllLock 16, .stoppedChangeRequest (2 ^ 32), .clkEnCrm (2 ^ 32),
    .clkEnGrb (2 ^ 32), .clkEnMisc (2 ^ 32), .bulkTankReady [], .holdCounterClear (2 ^ 32),
    .quiesce 8 0, .quiesce 0 (2 ^ 32), .stackQuiesced 8, .sppr (2 ^ 32),
    .hppr (2 ^ 32), .spares (2 ^ 32), .ieee1500 (2 ^ 32), .checkValueBlockStart 4 0,
    .checkValueBlockStart 0 (2 ^ 32), .feedb 4 ⟨0, false⟩, .feedb 0 ⟨(2 ^ 8), false⟩, .feedh 4 ⟨0, false⟩].all (fun i : Instr => !wellFormed i) = true := by decide +kernel

theorem test_ill_formed_b : [
    .feedh 0 ⟨(2 ^ 16), false⟩, .feedw 4 ⟨0, false⟩, .feedw 0 ⟨(2 ^ 32), false⟩, .portUpRequest 24 0,
    .portUpRequest 0 (2 ^ 32), .portDownRequest 24 0, .portDownRequest 0 (2 ^ 32), .linkUp 24 0,
    .linkFailure 24 1, .linkFailure 0 5, .linkFailure 0 0, .reflect (2 ^ 32),
    .attestationRequest (2 ^ 32), .bootCheckRequest (2 ^ 32), .registerWrite (2 ^ 26) 4 ⟨0, 0⟩, .registerWrite 0 2 ⟨0, 0⟩,
    .registerWrite 0 4 ⟨(2 ^ 32), 0⟩, .registerWrite 0 8 ⟨(2 ^ 64), 0⟩, .memoryRead (2 ^ 48) 32 ⟨⟨[], 0, false⟩, []⟩, .memoryRead 0 257 ⟨⟨[], 0, false⟩, []⟩,
    .memoryRead 0 31 ⟨⟨[], 0, false⟩, []⟩, .memoryWrite (2 ^ 48) ⟨[none], false⟩ ⟨[], 0, false⟩, .memoryWrite 0 ⟨[], false⟩ ⟨[], 0, false⟩, .memoryWrite 0 ⟨(List.replicate 257 none), false⟩ ⟨[], 0, false⟩,
    .privateWrite 128 [], .privateRead 128 0, .setdasa 128 0, .setdasa 0 128,
    .entdaa 128, .mop 0 false 3 1 false 64 0 0 0 0 0, .mop 0 false 0 16 false 64 0 0 0 0 0, .mop 0 false 0 1 false 4096 0 0 0 0 0,
    .mop 0 false 0 1 false 64 16 0 0 0 0, .mop 0 false 0 1 false 64 0 16 0 0 0, .mop 0 false 0 1 false 64 0 0 16 0 0, .mop 0 false 0 1 false 64 0 0 0 2048 0,
    .mop 0 false 0 1 false 64 0 0 0 0 32, .mop 0 false 0 0 false 64 0 0 0 0 0, .mop 0 false 0 1 false 0 0 0 0 0 0, .mop 0 false 2 1 false 63 0 0 0 0 0,
    .mop 0 false 2 1 false 64 0 0 0 1 0, .mop 0 false 0 1 false 64 0 1 0 0 0, .mop 0 false 0 1 false 64 0 0 0 0 1, .fadd 0 false { v0 with vd := 512 },
    .fadd 0 false { v0 with mask := 8 }, .fadd 0 false { v0 with va := ⟨512, false, 0⟩ }, .fadd 0 false { v0 with vb := ⟨0, false, 128⟩ }, .fadd 0 false { v0 with vc := ⟨0, true, 1⟩ },
    .fsub 0 false { v0 with vd := 512 }, .fmul 0 false { v0 with vd := 512 }, .fma 0 false { v0 with vd := 512 }, .fmin 0 false { v0 with vd := 512 },
    .fmax 0 false { v0 with vd := 512 }, .fabs 0 false { v0 with vd := 512 }, .fneg 0 false { v0 with vd := 512 }, .fcmpeq 0 false { v0 with vd := 512 },
    .fcmpne 0 false { v0 with vd := 512 }, .fcmplt 0 false { v0 with vd := 512 }, .fcmple 0 false { v0 with vd := 512 }, .sel 0 false { v0 with vd := 512 }].all (fun i : Instr => !wellFormed i) = true := by decide +kernel

theorem test_ill_formed_c : [
    .fdiv 0 false { v0 with vd := 512 }, .fsqrt 0 false { v0 with vd := 512 }, .exp2 0 false { v0 with vd := 512 }, .exp 0 false { v0 with vd := 512 },
    .log2 0 false { v0 with vd := 512 }, .ln 0 false { v0 with vd := 512 }, .rsqrt 0 false { v0 with vd := 512 }, .sinpi 0 false { v0 with vd := 512 },
    .cospi 0 false { v0 with vd := 512 }, .tanh 0 false { v0 with vd := 512 }, .sigm 0 false { v0 with vd := 512 }, .erf 0 false { v0 with vd := 512 },
    .f2i 0 false { v0 with vd := 512 }, .f2iz 0 false { v0 with vd := 512 }, .i2f 0 false { v0 with vd := 512 }, .frnd 0 false { v0 with vd := 512 },
    .iadd 0 false { v0 with vd := 512 }, .isub 0 false { v0 with vd := 512 }, .imul 0 false { v0 with vd := 512 }, .imin 0 false { v0 with vd := 512 },
    .imax 0 false { v0 with vd := 512 }, .iabs 0 false { v0 with vd := 512 }, .icmpeq 0 false { v0 with vd := 512 }, .icmpne 0 false { v0 with vd := 512 },
    .icmplt 0 false { v0 with vd := 512 }, .icmple 0 false { v0 with vd := 512 }, .vand 0 false { v0 with vd := 512 }, .vor 0 false { v0 with vd := 512 },
    .vxor 0 false { v0 with vd := 512 }, .vnot 0 false { v0 with vd := 512 }, .vshl 0 false { v0 with vd := 512 }, .vshr 0 false { v0 with vd := 512 },
    .vsar 0 false { v0 with vd := 512 }, .rol 0 false { v0 with vd := 512 }, .madd 0 false { v0 with vd := 512 }, .mullo 0 false { v0 with vd := 512 },
    .mulhi 0 false { v0 with vd := 512 }, .ucmplt 0 false { v0 with vd := 512 }, .ucmple 0 false { v0 with vd := 512 }, .laneidx 0 false { v0 with vd := 512 },
    .perm 0 false { v0 with vd := 512 }, .genrd 0 false { v0 with vd := 512 }, .rfsum 0 false { v0 with vd := 512 }, .risum 0 false { v0 with vd := 512 },
    .rfmax 0 false { v0 with vd := 512 }, .rfmin 0 false { v0 with vd := 512 }, .rimax 0 false { v0 with vd := 512 }, .rimin 0 false { v0 with vd := 512 },
    .ridxmax 0 false { v0 with vd := 512 }, .mand 0 false 8 0 0, .mand 0 false 0 8 0, .mand 0 false 0 0 8,
    .mor 0 false 8 0 0, .mor 0 false 0 8 0, .mor 0 false 0 0 8, .mxor 0 false 8 0 0,
    .mxor 0 false 0 8 0, .mxor 0 false 0 0 8, .mandn 0 false 8 0 0, .mandn 0 false 0 8 0].all (fun i : Instr => !wellFormed i) = true := by decide +kernel

theorem test_ill_formed_d : [
    .mandn 0 false 0 0 8, .mrange 0 false 8 0, .mrange 0 false 0 32, .setvl 0 false 32,
    .add 0 false 32 0 0, .add 0 false 0 32 0, .add 0 false 0 0 32, .sub 0 false 32 0 0,
    .sub 0 false 0 32 0, .sub 0 false 0 0 32, .mul 0 false 32 0 0, .mul 0 false 0 32 0,
    .mul 0 false 0 0 32, .and 0 false 32 0 0, .and 0 false 0 32 0, .and 0 false 0 0 32,
    .or 0 false 32 0 0, .or 0 false 0 32 0, .or 0 false 0 0 32, .xor 0 false 32 0 0,
    .xor 0 false 0 32 0, .xor 0 false 0 0 32, .shl 0 false 32 0 0, .shl 0 false 0 32 0,
    .shl 0 false 0 0 32, .shr 0 false 32 0 0, .shr 0 false 0 32 0, .shr 0 false 0 0 32,
    .sar 0 false 32 0 0, .sar 0 false 0 32 0, .sar 0 false 0 0 32, .min 0 false 32 0 0,
    .min 0 false 0 32 0, .min 0 false 0 0 32, .max 0 false 32 0 0, .max 0 false 0 32 0,
    .max 0 false 0 0 32, .slt 0 false 32 0 0, .slt 0 false 0 32 0, .slt 0 false 0 0 32,
    .sltu 0 false 32 0 0, .sltu 0 false 0 32 0, .sltu 0 false 0 0 32, .seq 0 false 32 0 0,
    .seq 0 false 0 32 0, .seq 0 false 0 0 32, .li 0 false 32 0, .addi 0 false 32 0 0,
    .addi 0 false 0 32 0, .andi 0 false 32 0 0, .andi 0 false 0 32 0, .ori 0 false 32 0 0,
    .ori 0 false 0 32 0, .xori 0 false 32 0 0, .xori 0 false 0 32 0, .shli 0 false 32 0 0,
    .shli 0 false 0 32 0, .shli 0 false 0 0 64, .shri 0 false 32 0 0, .shri 0 false 0 32 0].all (fun i : Instr => !wellFormed i) = true := by decide +kernel

theorem test_ill_formed_e : [
    .shri 0 false 0 0 64, .sari 0 false 32 0 0, .sari 0 false 0 32 0, .sari 0 false 0 0 64,
    .lui 0 false 32 0 0, .lui 0 false 0 32 0, .ld 0 false 4 0 0 0, .ld 0 false 0 32 0 0,
    .ld 0 false 0 0 32 0, .lds 0 false 3 0 0 0, .lds 0 false 0 32 0 0, .lds 0 false 0 0 32 0,
    .st 0 false 4 0 0 0, .st 0 false 0 32 0 0, .st 0 false 0 0 32 0, .rdsr 0 false 0 12,
    .rdsr 0 false 32 0, .rdsr 0 false 0 7, .idle 0 false 65536, .br 0 false 16384,
    .beq 0 false 32 0 0, .beq 0 false 0 32 0, .beq 0 false 0 0 16384, .bne 0 false 32 0 0,
    .bne 0 false 0 32 0, .bne 0 false 0 0 16384, .blt 0 false 32 0 0, .blt 0 false 0 32 0,
    .blt 0 false 0 0 16384, .bge 0 false 32 0 0, .bge 0 false 0 32 0, .bge 0 false 0 0 16384,
    .loop 0 false 32 0, .loop 0 false 0 16384, .fill 0 false 0 false false 13 0, .fill 0 false 512 false false 0 0,
    .fill 0 false 0 false false 0 32, .fill 0 false 0 true true 0 0, .fill 0 false 0 false false 11 0, .store 0 false 64 0 0 0 false 0 false,
    .store 0 false 0 0 512 0 false 0 false, .store 0 false 0 0 0 0 false 256 false, .store 0 false 0 32 0 0 false 0 false, .store 0 false 0 0 0 32 false 0 false,
    .store 0 false 0 0 0 0 false 1 false, .storeSignal 160 0, .movsv 0 false 512 0 0, .movsv 0 false 0 128 0,
    .movsv 0 false 0 0 32, .movvs 0 false 512 0 0, .movvs 0 false 0 128 0, .movvs 0 false 0 0 32,
    .setas 0 false 16 0 0 0 0, .setas 0 false 0 0 0 0 32, .setas 0 false 0 32 0 0 0, .setas 0 false 0 0 32 0 0,
    .setas 0 false 0 0 0 32 0, .mpop 0 false 8 0, .mpop 0 false 0 32, .semwait 0 false false 0 32 0].all (fun i : Instr => !wellFormed i) = true := by decide +kernel

theorem test_ill_formed_f : [
    .semwait 0 false true 1024 0 0, .semwait 0 false false 256 0 0, .semWaitMet 160, .semadd 0 false false 0 32 0,
    .semadd 0 false true 1024 0 0, .semadd 0 false false 256 0 0, .semsub 0 false false 0 32 0, .semsub 0 false true 1024 0 0,
    .semsub 0 false false 256 0 0, .rsemadd 0 false false 0 32 0, .rsemadd 0 false false 0 0 32, .rsemadd 0 false true 1024 0 0,
    .rsemadd 0 false false 256 0 0, .rsemsub 0 false false 0 32 0, .rsemsub 0 false false 0 0 32, .rsemsub 0 false true 1024 0 0,
    .rsemsub 0 false false 256 0 0, .semrd 0 false false 0 32, .semrd 0 false true 1024 0, .semrd 0 false false 256 0,
    .stepChurn 0 false false 16 0 [], .stepChurn 0 false false 1 0 [], .ldi 0 false 8 0 [], .ldi 0 false 0 32 [],
    .injectedUnitLanded 160 0 false ⟨[], 0, false⟩, .deliverySignal 160 0, .ladleTransferStart 160 0, .ladleTransferStart 0 8,
    .ladleSignal 160 0 0, .ladleSignal 0 8 0, .globalSemaphoreUpdate 160 0, .globalSemaphoreUpdate 0 1024,
    .holdStop 160, .holdResume 160, .stretch 16 false, .readRequest 160 0 0 [] none,
    .readRequest 0 8 0 [] none, .refresh 9 0 0 false, .refresh 0 64 0 false, .refresh 0 0 32 false,
    .temperatureRead 9 0, .railTelemetryUpdate [], .writeMsg (rx 24) [], .semMsg (rx 24) 0 0 0 0 0 0,
    .semMsg (rx 0) 16 0 0 0 0 0, .semMsg (rx 0) 0 (2 ^ 14) 0 0 0 0, .semMsg (rx 0) 0 0 (2 ^ 14) 0 0 0, .semMsg (rx 0) 0 0 0 (2 ^ 16) 0 0,
    .semMsg (rx 0) 0 0 0 0 (2 ^ 32) 0, .ackMsg (rx 24) 0 0 0 0 0 0, .ackMsg (rx 0) 16 0 0 0 0 0, .ackMsg (rx 0) 0 (2 ^ 14) 0 0 0 0,
    .ackMsg (rx 0) 0 0 (2 ^ 14) 0 0 0, .ackMsg (rx 0) 0 0 0 (2 ^ 16) 0 0, .ackMsg (rx 0) 0 0 0 0 (2 ^ 32) 0, .scaleLapMessage (rx 24) 0 [] false,
    .sumLapRecord (rx 24) 0 [] false, .resultLapRecord (rx 24) 0 [] false, .grantMsg (rx 24) 0 0 0 0 0 0 0, .grantMsg (rx 0) 16 0 0 0 0 0 0].all (fun i : Instr => !wellFormed i) = true := by decide +kernel

theorem test_ill_formed_g : [
    .grantMsg (rx 0) 0 (2 ^ 14) 0 0 0 0 0, .grantMsg (rx 0) 0 0 (2 ^ 14) 0 0 0 0, .grantMsg (rx 0) 0 0 0 (2 ^ 16) 0 0 0, .grantMsg (rx 0) 0 0 0 0 (2 ^ 32) 0 0,
    .abortMsg (rx 24) 0 0 0 0 0 0 0, .abortMsg (rx 0) 16 0 0 0 0 0 0, .abortMsg (rx 0) 0 (2 ^ 14) 0 0 0 0 0, .abortMsg (rx 0) 0 0 (2 ^ 14) 0 0 0 0,
    .abortMsg (rx 0) 0 0 0 (2 ^ 16) 0 0 0, .abortMsg (rx 0) 0 0 0 0 (2 ^ 32) 0 0, .returnMsg (rx 24) 0 0 0 0 0 0 0 [], .returnMsg (rx 0) 16 0 0 0 0 0 0 [],
    .returnMsg (rx 0) 0 (2 ^ 14) 0 0 0 0 0 [], .returnMsg (rx 0) 0 0 (2 ^ 14) 0 0 0 0 [], .returnMsg (rx 0) 0 0 0 (2 ^ 16) 0 0 0 [], .returnMsg (rx 0) 0 0 0 0 (2 ^ 32) 0 0 [],
    .skimMsg (rx 24) 0 0 0 0 0 0 0 [], .skimMsg (rx 0) 16 0 0 0 0 0 0 [], .skimMsg (rx 0) 0 (2 ^ 14) 0 0 0 0 0 [], .skimMsg (rx 0) 0 0 (2 ^ 14) 0 0 0 0 [],
    .skimMsg (rx 0) 0 0 0 (2 ^ 16) 0 0 0 [], .skimMsg (rx 0) 0 0 0 0 (2 ^ 32) 0 0 [], .creditItem (rx 24) false 0, .creditItem (rx 0) false 2048,
    .laneAck (rx 24) 0, .laneAck (rx 0) 256, .nakItem (rx 24) 0, .nakItem (rx 0) 256,
    .headerItem (rx 24) 0 0 0 0 0 0 0 0 0, .headerItem (rx 0) 256 0 0 0 0 0 0 0 0, .headerItem (rx 0) 0 16 0 0 0 0 0 0 0, .headerItem (rx 0) 0 0 (2 ^ 14) 0 0 0 0 0 0,
    .headerItem (rx 0) 0 0 0 (2 ^ 14) 0 0 0 0 0, .headerItem (rx 0) 0 0 0 0 (2 ^ 16) 0 0 0 0, .headerItem (rx 0) 0 0 0 0 0 (2 ^ 32) 0 0 0, .headerItem (rx 0) 0 0 0 0 0 0 (2 ^ 32) 0 0,
    .headerItem (rx 0) 0 0 0 0 0 0 0 (2 ^ 64) 0, .headerItem (rx 0) 0 0 0 0 0 0 0 0 (2 ^ 64), .identityItem (rx 24) 0 0 0, .identityItem (rx 0) (2 ^ 14) 0 0,
    .writeMsg ⟨0, 256, false⟩ [], .creditItem ⟨0, 256, true⟩ false 0, .registerWrite 0 4 ⟨0, (2 ^ 32)⟩, .startUp 0 false 0 [] [] [] [(512, 0)] 0,
    .startUp 0 false 0 [] [] [] [(0, 3)] 0, .stepChurn 0 false false 0 3 [], .stepChurn 0 false false 0 0 [.fwd 160], .nop 0 false [.ret 160],
    .nop 0 false [.inj 160 0], .nop 0 false [.wbuf 0 4], .nop 0 false [.acc 0 0 2048], .nop 0 false [.slot 0 512], .nop 0 false [.mask 0 0],
    .identityItem (rx 0) 0 (2 ^ 16) 0, .identityItem (rx 0) 0 0 32, .uncorrectableCodeword (rx 24), .clipSignal 32,
    .ingestJobComplete 32].all (fun i : Instr => !wellFormed i) = true := by decide +kernel

theorem test_well_formed_a : [
    .bindProgram 0, .rePlacement 0, .run 0, .ladleCopy 0,
    .ingestJob 0, .stirrerEpoch 0, .pressJob ⟨0, []⟩, .pressGroupTableLoad 0,
    .shardGroupTableLoad 0, .semaphoreWait 0, .semaphoreAdd 0, .semaphoreSubtract 0,
    .contextSwitch 0, .calRead 0, .calWrite 0, .loopback 0,
    .gaugeSample 0, .fence 0, .fenceRelease 0, .doorbell 0 0 [],
    .descriptorRead 0 false, .commandRingEnable 0 0, .commandRingDisable 0 0, .eventRingEnable 0 0,
    .eventRingHeadWrite 0 0, .armed 0 0, .deviceResetRequest 0, .startUp 0 false 0 [] [] [] [] 0,
    .serviceRequest 0, .referenceSwitch 0, .cfgBusChange 0, .synchronisedChangeRequest 0,
    .standbyPllLock 0, .stoppedChangeRequest 0, .clkEnCrm 0, .clkEnGrb 0,
    .clkEnMisc 0, .bulkTankReady (List.replicate 16 0), .holdCounterClear 0, .quiesce 0 0,
    .stackQuiesced 0, .sppr 0, .hppr 0, .spares 0,
    .ieee1500 0, .checkValueBlockStart 0 0, .feedb 0 ⟨0, false⟩, .feedh 0 ⟨0, false⟩,
    .feedw 0 ⟨0, false⟩, .portUpRequest 0 0, .portDownRequest 0 0, .linkUp 0 0,
    .linkFailure 0 1, .reflect 0, .attestationRequest 0, .bootCheckRequest 0,
    .registerWrite 0 4 ⟨0, 0⟩, .memoryRead 0 32 ⟨⟨[], 0, false⟩, []⟩, .memoryWrite 0 ⟨[none], false⟩ ⟨[], 0, false⟩, .privateWrite 0 [],
    .privateRead 0 0, .setdasa 0 0, .entdaa 0, .mop 0 false 0 1 false 64 0 0 0 0 0,
    .fadd 0 false v0, .fsub 0 false v0, .fmul 0 false v0, .fma 0 false v0,
    .fmin 0 false v0, .fmax 0 false v0, .fabs 0 false v0, .fneg 0 false v0,
    .fcmpeq 0 false v0, .fcmpne 0 false v0, .fcmplt 0 false v0, .fcmple 0 false v0,
    .sel 0 false v0, .fdiv 0 false v0, .fsqrt 0 false v0, .exp2 0 false v0].all wellFormed = true := by decide +kernel

theorem test_well_formed_b : [
    .exp 0 false v0, .log2 0 false v0, .ln 0 false v0, .rsqrt 0 false v0,
    .sinpi 0 false v0, .cospi 0 false v0, .tanh 0 false v0, .sigm 0 false v0,
    .erf 0 false v0, .f2i 0 false v0, .f2iz 0 false v0, .i2f 0 false v0,
    .frnd 0 false v0, .iadd 0 false v0, .isub 0 false v0, .imul 0 false v0,
    .imin 0 false v0, .imax 0 false v0, .iabs 0 false v0, .icmpeq 0 false v0,
    .icmpne 0 false v0, .icmplt 0 false v0, .icmple 0 false v0, .vand 0 false v0,
    .vor 0 false v0, .vxor 0 false v0, .vnot 0 false v0, .vshl 0 false v0,
    .vshr 0 false v0, .vsar 0 false v0, .rol 0 false v0, .madd 0 false v0,
    .mullo 0 false v0, .mulhi 0 false v0, .ucmplt 0 false v0, .ucmple 0 false v0,
    .laneidx 0 false v0, .perm 0 false v0, .genrd 0 false v0, .rfsum 0 false v0,
    .risum 0 false v0, .rfmax 0 false v0, .rfmin 0 false v0, .rimax 0 false v0,
    .rimin 0 false v0, .ridxmax 0 false v0, .mand 0 false 0 0 0, .mor 0 false 0 0 0,
    .mxor 0 false 0 0 0, .mandn 0 false 0 0 0, .mrange 0 false 0 0, .setvl 0 false 0,
    .add 0 false 0 0 0, .sub 0 false 0 0 0, .mul 0 false 0 0 0, .and 0 false 0 0 0,
    .or 0 false 0 0 0, .xor 0 false 0 0 0, .shl 0 false 0 0 0, .shr 0 false 0 0 0,
    .sar 0 false 0 0 0, .min 0 false 0 0 0, .max 0 false 0 0 0, .slt 0 false 0 0 0,
    .sltu 0 false 0 0 0, .seq 0 false 0 0 0, .li 0 false 0 0, .addi 0 false 0 0 0,
    .andi 0 false 0 0 0, .ori 0 false 0 0 0, .xori 0 false 0 0 0, .shli 0 false 0 0 0,
    .shri 0 false 0 0 0, .sari 0 false 0 0 0, .lui 0 false 0 0 0, .ld 0 false 0 0 0 0,
    .lds 0 false 0 0 0 0, .st 0 false 0 0 0 0, .rdsr 0 false 0 0, .idle 0 false 0].all wellFormed = true := by decide +kernel

theorem test_well_formed_c : [
    .br 0 false 0, .beq 0 false 0 0 0, .bne 0 false 0 0 0, .blt 0 false 0 0 0,
    .bge 0 false 0 0 0, .loop 0 false 0 0, .fill 0 false 0 false false 0 0, .store 0 false 0 0 0 0 false 0 false,
    .storeSignal 0 0, .movsv 0 false 0 0 0, .movvs 0 false 0 0 0, .setas 0 false 0 0 0 0 0,
    .mpop 0 false 0 0, .semwait 0 false false 0 0 0, .semWaitMet 0, .semadd 0 false false 0 0 0,
    .semsub 0 false false 0 0 0, .rsemadd 0 false false 0 0 0, .rsemsub 0 false false 0 0 0, .semrd 0 false false 0 0,
    .stepChurn 0 false false 0 0 [], .ldi 0 false 0 0 [], .injectedUnitLanded 0 0 false ⟨[], 0, false⟩, .deliverySignal 0 0,
    .ladleTransferStart 0 0, .ladleSignal 0 0 0, .globalSemaphoreUpdate 0 0, .holdStop 0,
    .holdResume 0, .stretch 0 false, .readRequest 0 0 0 [] none, .refresh 0 0 0 false,
    .temperatureRead 0 0, .railTelemetryUpdate (List.replicate 8 (0, 0, 0)), .writeMsg (rx 0) [], .semMsg (rx 0) 0 0 0 0 0 0,
    .ackMsg (rx 0) 0 0 0 0 0 0, .scaleLapMessage (rx 0) 0 [] false, .sumLapRecord (rx 0) 0 [] false, .resultLapRecord (rx 0) 0 [] false,
    .grantMsg (rx 0) 0 0 0 0 0 0 0, .abortMsg (rx 0) 0 0 0 0 0 0 0, .returnMsg (rx 0) 0 0 0 0 0 0 0 [], .skimMsg (rx 0) 0 0 0 0 0 0 0 [],
    .creditItem (rx 0) false 0, .laneAck (rx 0) 0, .nakItem (rx 0) 0, .headerItem (rx 0) 0 0 0 0 0 0 0 0 0,
    .identityItem (rx 0) 0 0 0, .uncorrectableCodeword (rx 0), .clipSignal 0, .ingestJobComplete 0].all wellFormed = true := by decide +kernel

/-! ### Results that the spec states: its worked examples and the corners of its rules -/

/-- Core 87 lies in quarter 2 and region 11, core 71 in quarter 0 and region 3 (the example "locating core 87"). -/
theorem test_locating_cores : quarterOf 87 = 2 ∧ regionOf 87 = 11 ∧ quarterOf 71 = 0 ∧ regionOf 71 = 3 := by decide
/-- The example "one element into SSI32 at 4,096 participants": local codes 127 and 129, then 0x326 and 203,162 under code 129. -/
theorem test_ssi32_example : headroom 4096 = 12 ∧ localCode [f32 0x3F400000, f32 0x3C4985F0] = 127 ∧ localCode [f32 0x40466666] = 129 ∧
    toSSI 129 12 (f32 0x3C4985F0) = (0x326, false) ∧ toSSI 129 12 (f32 0x40466666) = (203162, false) := by decide +kernel
/-- The example "a block to MXFP4": scale 0x7B and the five E2M1 codes. -/
theorem test_mxfp4_example : quantiseBlock 7 ([0x3ED1EB85, 0x3DCCCCCD, 0xBE4CCCCD, 0x3CA3D70A, 0x3C800000].map f32) = (0x7B, [7, 3, 0xD, 1, 0]) := by decide +kernel
/-- The tree over 1 and 127 lanes of 2^-24 gives 0x3F80003F, the sum in lane order 1 (the example "the tree against a sequential sum"). -/
theorem test_tree_example : laneTree fadd (0x3F800000 :: List.replicate 127 0x33800000) = 0x3F80003F ∧
    (List.replicate 127 (0x33800000 : W32)).foldl fadd 0x3F800000 = 0x3F800000 := by decide +kernel
/-- Core 5's semaphore view 248 lies at 0x2057E0: a bus error on this part, where core 5 is fused off; core 0's reads its value ("decoding
    two offsets"). -/
theorem test_offset_example : up.reg 0x2057E0 4 = none ∧ oneCore.active 5 = false := by decide +kernel
theorem test_offset_example_core0 : ({ up with cores := [(0, { sems := [(248, 77)] })] } : State).reg 0x2007E0 4 = some (4, 77) := by decide +kernel
/-- The peer table's entry 1,347 is the register at 0x522A18 (the same example). -/
theorem test_peer_example : result (exec (.registerWrite 0x522A18 8 ⟨0x1234, 0⟩) up) (fun t => (Sparse.get 0 t.peers 1347).toNat) = some 0x1234 := by decide +kernel
/-- CRC-32C of "123456789" is E3069283 (its published check value). -/
theorem test_crc32c : crc32c [0x31, 0x32, 0x33, 0x34, 0x35, 0x36, 0x37, 0x38, 0x39] = 0xE3069283 := by decide +kernel
/-- SHA-256 of "abc" begins BA7816BF (FIPS 180-4). -/
theorem test_sha256 : (sha256 [0x61, 0x62, 0x63]).take 4 = [0xBA, 0x78, 0x16, 0xBF] := by decide +kernel

/-- A part whose quarters have 34 active cores each. -/
def grade136 : Fuse := { resetFuse with grade := 136, fusedOff := BitVec.ofNat 160 ((63 + 63 * 2 ^ 8) * (1 + 2 ^ 144)) }
/-- Injection positions and the units at ring position 50 (the example "threading and fill on a WSV9-136"). -/
theorem test_fill_example : grade136.g = 136 ∧ (List.range 4).map grade136.injPos = [0, 36, 104, 68] ∧
    [16, 17, 18, 20, 21, 50].map (grade136.unitAt 1000 50) = [none, some 3, none, none, some 7, some 0] := by decide +kernel

/-! Commands: one step each on core 0. -/

/-- What a register of core 0 holds after the one bundle of a program. -/
def scalarOf (r : Nat) (o : Host.Outcome State Fault Refusal) : Option W64 := result o (fun t => Sparse.get 0 (t.core 0).sregs r)
/-- What a vector instruction of core 0 lands in lane 0 of a slot. -/
def laneOf (o : Host.Outcome State Fault Refusal) : Option (List (Nat × W32)) := result o (fun t => (t.core 0).queue.filterMap (fun d =>
  match d.what with
  | .land (.slot v _ ws _) => some (v, ws.headD 0)
  | _ => none))
/-- Core 0 that issues the scalar slot's word, with S1 and S2 as given. -/
def with12 (a b : W64) (w : SlotWord) : State := runs (wordOf w * 2 ^ 128) { issuer with sregs := [(1, a), (2, b)] }
/-- Core 0 that issues the vector slot's word, with lane 0 of slots 1 and 2 as given. -/
def lanes12 (a b : W32) (w : SlotWord) : State := runs (wordOf w * 2 ^ 56) { issuer with pail := [(128, a), (256, b)] }

theorem test_add_wraps : scalarOf 3 (exec (.add 0 true 3 1 2) (with12 (-1) 2 (rWord 0x01 3 1 2))) = some (1) := by decide +kernel
theorem test_sub_order : scalarOf 3 (exec (.sub 0 true 3 1 2) (with12 5 7 (rWord 0x02 3 1 2))) = some (-2) := by decide +kernel
theorem test_sar_sign : scalarOf 3 (exec (.sar 0 true 3 1 2) (with12 (-8) 65 (rWord 0x09 3 1 2))) = some (-4) := by decide +kernel
theorem test_sltu_unsigned : scalarOf 3 (exec (.sltu 0 true 3 1 2) (with12 1 (-1) (rWord 0x0D 3 1 2))) = some (1) := by decide +kernel
theorem test_slt_signed : scalarOf 3 (exec (.slt 0 true 3 1 2) (with12 1 (-1) (rWord 0x0C 3 1 2))) = some (0) := by decide +kernel
theorem test_addi_sign_extends : scalarOf 1 (exec (.addi 0 true 1 1 0xFFFFFFFF) (with12 5 0 (iWord 0x11 1 1 0xFFFFFFFF))) = some (4) := by decide +kernel
theorem test_lui_keeps_low : scalarOf 3 (exec (.lui 0 true 3 1 0x80000000) (with12 0x1234567890ABCDEF 0 (iWord 0x1F 3 1 0x80000000))) = some (0x8000000090ABCDEF) := by
  decide +kernel
theorem test_fadd : laneOf (exec (.fadd 0 true v0) (lanes12 0x3F800000 0x33800000 (vWord 0x01 v0))) = some [(3, 0x3F800000)] := by decide +kernel
theorem test_fsub : laneOf (exec (.fsub 0 true v0) (lanes12 0x3F800000 0x40400000 (vWord 0x02 v0))) = some [(3, 0xC0000000)] := by decide +kernel
theorem test_isub_saturates : laneOf (exec (.isub 0 true v0) (lanes12 0x80000000 1 (vWord 0x29 v0))) = some [(3, 0x80000000)] := by decide +kernel
theorem test_vsar : laneOf (exec (.vsar 0 true v0) (lanes12 0x80000000 33 (vWord 0x3E v0))) = some [(3, 0xC0000000)] := by decide +kernel
theorem test_fdiv_rounds : laneOf (exec (.fdiv 0 true v0) (lanes12 0x3F800000 0x40400000 (vWord 0x0E v0))) = some [(3, 0x3EAAAAAB)] := by decide +kernel

/-! Commands of the rings, the registers and the links. -/

/-- A command ring's base keeps bits 46 to 12 of what the host writes. -/
theorem test_ring_base_aligned : result (exec (.registerWrite 0x1120 8 ⟨0x804120000FFF, 0⟩) up) (fun t => (t.cring 9).base) = some 0x4120000000 := by decide +kernel
theorem test_reset_epoch : result (exec .deviceReset { up with epoch := 5, seed := 9 }) (fun t => (t.epoch, t.seed, t.boot.done)) = some (0, 0, false) := by decide +kernel
theorem test_idcode : result (exec .jtagIdcode up) (fun t => t.outbox) = some [.jtag 0x0530956B] := by decide +kernel
theorem test_host_write_then_read : result (exec (.memoryWrite 0x1FE ⟨[some 7, none], false⟩ ⟨[], 0, false⟩) up) (fun t => (t.byteAt 0x1FE, t.byteAt 0x1FF, t.memWf)) = some (7, 0, true) := by
  decide +kernel
theorem test_step_takes_the_front : result (step { up with pending := [.jtagIdcode, .throttleRaise] }) (fun t => t.pending) = some [.throttleRaise] := by decide +kernel
theorem test_step_idles : result (step up) (fun t => (t.pending, t.epoch)) = some ([], 1) := by decide +kernel

/-- CORE_HAZARD names the bundle whose issue revealed the hazard, not the one that issues when it shows (R305): a SEMSUB of bundle 46,
    two writes of a slot of which bundle 55 issued the last. -/
theorem test_hazard_bundle_underflow :
    (Core.subHazards true [] { pc := 48, trail := [(4, 47), (3, 46)], semSubs := [(9, 3, false, 12)], semNet := [⟨12, 0, -1⟩] }).hazard =
    BitVec.ofNat 64 (9 * 2 ^ 32 + 2 ^ 31 + 5 * 2 ^ 24 + 46) := by decide +kernel
/-- A SEMSUB of a period in which a signal adds as much is no underflow (R311), in either order. -/
theorem test_net_of_a_period : ∀ l ∈ [[(-1 : Int), 1], [1, -1]],
    let k := l.foldl (fun (k : Core) d => k.semChange 12 d) {}
    (Sparse.get 0 k.sems 12, k.semErr, (Core.subHazards true [] { k with semSubs := [(9, 3, false, 12)] }).hazard) = (0, 0, 0) := by decide +kernel
theorem test_hazard_bundle_collide :
    (Core.landAll true 9 [(5, .slot 20 0 [] false), (7, .fill 20 0 [] false)] { pc := 57, trail := [(7, 55), (6, 54), (5, 53)] }).hazard =
    BitVec.ofNat 64 (9 * 2 ^ 32 + 2 ^ 31 + 6 * 2 ^ 24 + 55) := by decide +kernel
/-- A read ahead of a store that an earlier bundle issued is early; one that a bundle before the store issued is not (R237, R286). -/
theorem test_store_ahead : ∀ e ∈ [(3, false), (4, true)],
    Core.storeAhead { stores := [{ id := 3, tmpl := ⟨0, false, false, false, false, 0, 1, 256, []⟩, src := 0, base := 0x1000, loc := true, sem := 0, sig := false, refused := false }] }
      e.1 0x1000 8 = e.2 := by decide +kernel
/-- Two rows that an array takes in one period are one user of their bank (R114, R204, R205). -/
theorem test_rows_of_one_period_share_a_user :
    let op : MopOp := { mode := 2, arrays := 1, acc := true, rows := 64, as := { base := 0x500000, rowPitch := 64, fmt := 4 },
                        bs := { base := 0x700000, rowPitch := 32, fmt := 7 }, ut := 7, stride := 0, tile := 0 }
    (up.arrayBanks 5 { arrays := [(0, { run := some { op := op, start := 5, live := true } })] } 0).eraseDups.map Prod.fst = [5, 7] := by decide +kernel
/-! ### The queue and the core program: each statement's hypotheses are met -/

theorem meets_StepRunsTheFrontCommand : ({ up with pending := [.throttleRaise, .holdRelease] } : State).pending = .throttleRaise :: [.holdRelease] := rfl

/-- The one-slot state that mk makes of a word runs that slot at count 0. -/
def runsAt (mk : Nat → State) (w : SlotWord) : Bool := slotRuns (mk (wordOf w)) 0 w

theorem meets_RegisterFormResults : ∀ op ∈ registerForms.map (fun e => e.2.1), runsAt inScalar (rWord op 3 1 2) = true := by decide +kernel
theorem meets_ImmediateFormResults : (∀ op ∈ immediateForms.map (fun e => e.2.1), runsAt inScalar (iWord op 3 1 0xFFFFFFFF) = true) ∧
    runsAt inScalar (iWord 0x10 3 0 9) = true ∧ runsAt inScalar (iWord 0x30 3 0 11) = true := by decide +kernel
theorem meets_LaneOperationResults : (∀ op ∈ laneUnary.map (fun e => e.2.1) ++ laneBinary.map (fun e => e.2.1) ++ [0x04],
    runsAt inVector (vWord op v0) = true) := by decide +kernel
theorem meets_TranscendentalResults : (∀ op ∈ laneTranscendental.map (fun e => e.2.1), runsAt inVector (vWord op v0) = true) ∧
    (transExact .exp2 (f32 0)).isSome = true ∧ (transExact .ln (f32 0x80000001)).isSome = true := by decide +kernel
theorem meets_LaneMovementResults : ∀ op ∈ [0x0D, 0x49, 0x48, 0x4A, 0x23], runsAt inVector (vWord op v0) = true := by decide +kernel
theorem meets_NumberRulesAtTheCorners :
    (0 < (1 : W32).toNat % 2 ^ 31 ∧ (0x7F7FFFFF : W32).toNat % 2 ^ 31 < 0x7F800000 ∧ (0x80000000 : W32).toNat % 2 ^ 31 = 0) ∧
    0x7F800000 < (0x7F800001 : W32).toNat % 2 ^ 31 ∧ 0x7F800000 < (0xFFFFFFFF : W32).toNat % 2 ^ 31 ∧
    ¬ 0x7F800000 < (0xFF800000 : W32).toNat % 2 ^ 31 := by decide
theorem meets_CompareResults : ∀ op ∈ compares.map (fun e => e.2.1), runsAt inVector (vWord op v0) = true := by decide +kernel
theorem meets_ReductionResults : ∀ op ∈ reductions.map (fun e => e.2.1) ++ [0x56], runsAt inVector (vWord op v0) = true := by decide +kernel

/-- RIDXMAX under mask 1, with no active lane or with the active lanes 0 and 127, of which slot 1's words are a NaN and 1.0. -/
def idxMax (m : BitVec 128) : State :=
  runs (wordOf (vWord 0x56 { v0 with mask := 1 }) * 2 ^ 56) { issuer with masks := [(1, m)], pail := [(128, 0x7FC00000), (255, 0x3F800000)] }

theorem meets_ReductionResults_noLane : slotRuns (idxMax 0) 0 (vWord 0x56 { v0 with mask := 1 }) = true ∧
    ∀ i, i < 128 → ((idxMax 0).core 0).active 0 0 0 1 i = false := by decide +kernel
theorem meets_ReductionResults_nan : slotRuns (idxMax (2 ^ 127 + 1)) 0 (vWord 0x56 { v0 with mask := 1 }) = true ∧
    ((idxMax (2 ^ 127 + 1)).core 0).active 0 0 0 1 0 = true ∧ f32 (((idxMax (2 ^ 127 + 1)).core 0).src 0 0 0 ⟨1, false, 0⟩ 0) = .nan := by decide +kernel
theorem meets_MaskAndLengthResults : (∀ op ∈ maskForms.map (fun e => e.2.1) ++ [0x64], runsAt inVector (mWord op 3 1 2) = true) ∧
    runsAt inVector (.vector (0x68 + 1 * 2 ^ 20)) = true ∧ 1 ≤ ((inVector (0x68 + 1 * 2 ^ 20)).core 0).readS 0 0 0 1 ∧
    ∀ v ∈ [1, 128], slotRuns (runs ((0x68 + 1 * 2 ^ 20) * 2 ^ 56) { issuer with sregs := [(1, BitVec.ofNat 64 v)] }) 0 (.vector (0x68 + 1 * 2 ^ 20)) = true ∧
      (({ issuer with sregs := [(1, BitVec.ofNat 64 v)] } : Core).readS 0 0 0 1).toNat = v := by decide +kernel
theorem meets_ResultsLandInTheirRegisters : (0 < 128 ∧ 127 < 128 ∧ (511 : Nat) ≠ 0) ∧ ((0 : Nat) = 0 ∧ (7 : Nat) ≠ 0 ∧ (31 : Nat) ≠ 30) := by decide
theorem meets_NarrowAccessesLoadAndStore : (∀ w ∈ [iWord 0x23 3 1 8, iWord 0x26 3 1 8, iWord 0x2B 3 1 8], runsAt inScalar w = true) ∧
    (∀ size ∈ [1, 2, 4, 8], (inScalar 0).outsideUse 0 (bankOf (64 / size * size)) = false ∧ (inScalar 0).tableBank (bankOf (64 / size * size)) = false ∧
      ((inScalar 0).core 0).storeAhead 0 (64 / size * size) size = false) := by decide +kernel
theorem meets_BundleEndAdvancesTheCount : (inScalar 0).issues 0 0 = true := by decide +kernel
theorem meets_RegisterResultIsReadableNextCount : runsAt inScalar (rWord 0x01 31 1 2) = true ∧ (inScalar 0).debug = false ∧ oneCore.excess = [] ∧
    (inScalar 0).issues 0 0 = true ∧ ((inScalar 0).core 0).queue = [] ∧ ((inScalar 0).core 0).arrays = [] := by decide +kernel
theorem meets_ProgramCounterAfterABundle : (issuer.branch = none ∧ issuer.loops = []) ∧
    (({ issuer with branch := some (9, 3) } : Core).branch = some (9, 3) ∧ ({ issuer with branch := some (9, 3) } : Core).loops = []) ∧
    (∀ r ∈ [1, 2], ({ issuer with pc := 4, loops := [⟨3, 4, r⟩] } : Core).loops = [⟨3, 4, r⟩] ∧ issuer.branch = none) ∧ (4 : Nat) ≠ 3 ∧ (1 : Nat) ≤ 1 ∧ 1 < 2 := by
  decide

/-- A forward operation for array 0. -/
def op0 : MopOp := { mode := 0, arrays := 1, acc := false, rows := 64, as := {}, bs := {}, ut := 0, stride := 0, tile := 0 }
/-- The core with an array whose operation has ended, or has not, and one that is queued. -/
def queued (r : Option ArrayOp) : State := runs 0 { issuer with arrays := [(0, { run := r, queue := some (op0, false) })] }

theorem meets_MatrixOperationsIssue : slotRuns (runs (wordOf (mopWord 2 15 true 64 1 2 3 0 4)) issuer) 0 (mopWord 2 15 true 64 1 2 3 0 4) = true ∧
    slotRuns (runs (wordOf (mopWord 0 1 false 4095 15 0 15 2047 0)) issuer) 0 (mopWord 0 1 false 4095 15 0 15 2047 0) = true := by decide +kernel
theorem meets_MatrixOperationsIssue_queue : (queued none).clk.lost = false ∧ (queued none).fuse.active 0 = true ∧ ((queued none).core 0).sched = 0 ∧
    ((queued none).core 0).stopped = none ∧ (Sparse.get {} ((queued none).core 0).arrays 0).run = none ∧
    (Sparse.get {} ((queued none).core 0).arrays 0).queue = some (op0, false) ∧ (Sparse.get {} ((queued none).core 0).arrays 3).queue = none ∧
    (Sparse.get {} ((queued (some { op := op0, start := 0, live := true })).core 0).arrays 0).run.isSome = true := by decide +kernel
theorem meets_MatrixOperationsIssue_start : bitOf op0.arrays 0 = true ∧ bitOf op0.arrays 3 = false ∧ (Sparse.get ({} : Arr) issuer.arrays 0).queue = none ∧
    (Sparse.get ({} : Arr) issuer.arrays 0).run = none := by decide +kernel
theorem meets_PlainControlAndIdle : runsAt inScalar (iWord 0x36 0 0 0xFFFF) = true ∧ runsAt inScalar (bWord 0x38 0 0 0) = true ∧
    runsAt inScalar (.scalar 0x3F) = true ∧ slotRuns (inScalar 0x3F) 0 (.nop false) = true := by decide +kernel

/-- The core past an IDLE, with counts left, running or held. -/
def idling (st : Option Nat) : State := runs 0 { issuer with idle := 3, stopped := st }

theorem meets_PlainControlAndIdle_idle : ∀ st ∈ [none, some 0], (idling st).clk.lost = false ∧ Quiet (idling st) ∧
    (∀ j, j < 3 → (State.passes j (idling st)).mayPass = true) ∧ ((idling st).core 0).issuing = true ∧
    ((idling st).core 0).ended = false ∧ ((idling st).core 0).stopped = st := by unfold Quiet; decide +kernel
theorem meets_BranchesAndLoops : (∀ op ∈ [0x39, 0x3A, 0x3B, 0x3C], runsAt inScalar (bWord op 1 2 16383) = true) ∧ runsAt inScalar (bWord 0x3E 1 0 2) = true ∧
    (inScalar 0).run.map (fun r => r.outcomes) = some [] := by decide +kernel

/-- The core at the end of a loop's last pass, in a second loop with another end. -/
def expired : State := runs 0 { issuer with loopDone := true, pc := 2, loops := [⟨1, 2, 1⟩, ⟨0, 5, 3⟩] }

theorem meets_BranchesAndLoops_expiry : expired.clk.lost = false ∧ expired.fuse.active 0 = true ∧ (expired.core 0).loopDone = true ∧ (expired.core 0).sched = 0 ∧
    (expired.core 0).stopped = none ∧ (expired.core 0).branch = none ∧ (expired.core 0).loops = [⟨1, 2, 1⟩, ⟨0, 5, 3⟩] ∧ (5 : Nat) ≠ (expired.core 0).pc ∧ (0 : Nat) ≠ (expired.core 0).pc + 1 := by
  decide +kernel
theorem meets_InstructionParityStopsIssue : (inScalar 0).clk.lost = false ∧ (inScalar 0).fetches 0 (.nop true) = true ∧ (inScalar 0).prog.isSome = true ∧
    (inScalar 0).issues 0 0 = true := by decide +kernel
theorem meets_RegisterMoveResults : ∀ w ∈ [movWord 3 511 127 1, movWord 4 1 0 3, setasWord 15 1 2 1 31, mpopWord 7 3], runsAt inMove w = true := by decide +kernel

/-- A program with one template, stored from the Pail to the stacks. -/
def tmpl0 : Template := { fmt := 0, srcVec := true, accInt := false, sat := false, across := false, xch := 0, lines := 1, run := 1, levels := [] }
/-- The state of one move slot where the program has that template. -/
def inMoveT (w : Nat) : State := { inMove w with prog := some { progOf (w * 2 ^ 176) with templates := [tmpl0] } }
/-- A store whose writes are all acknowledged. -/
def stored : State := { runs 0 { issuer with stores := [{ id := 4, tmpl := tmpl0, src := 0, base := 0, loc := false, sem := 255, sig := true, refused := false, sent := true }] } with epoch := 1 }

theorem meets_FillAndStore : runsAt inMove (fillWord 511 true false 0 1) = true ∧ runsAt inMove (fillWord 0 false true 12 1) = true ∧
    runsAt inMoveT (storeWord 0 0 1 0 false 255 true) = true ∧ (inMoveT 0).storeRefused 0 tmpl0 false 0 = false ∧
    (inMoveT 0).storeRefused 0 tmpl0 false (2 ^ 52 - 4) = true ∧ runsAt inMoveT (storeWord 0 0 1 0 true 0 false) = true := by decide +kernel
theorem meets_FillAndStore_signal : stored.clk.lost = false ∧ ((stored.core 0).getStore 4).map (fun st => (st.sent, st.outst, st.sig, decide (st.doneAt < stored.epoch))) = some (true, 0, true, true) ∧
    (stored.core 0).semNet = [] := by
  decide +kernel
theorem meets_SemaphoreSlots : (∀ w ∈ [semWord 1 false 255 1 0xFFFF, semWord 1 true 1023 1 0, semWord 2 false 0 1 1, semWord 2 false 0 0 0, semWord 3 true 9 1 1,
    semWord 3 true 9 0 0, semWord 6 false 255 3 0, semWord 6 true 1023 3 0], runsAt inSync w = true) ∧
    (inSync 0).run.map (fun r => r.semrd) = some [] := by decide +kernel
/-- The block with region 0 stopped for a stopped change. -/
def stopped0 : State := { up with regions := [(0, { stopped := true })] }

/-- A store of core 0 to stack 0 crosses region 0: it waits while that is stopped (R453, R462, R518). -/
theorem meets_FrequencyChangesRun_route : let s : State := { stopped0 with mesh := [(5, .write (.store 0 4) 0x100 [(7, false)] false)] }
    s.clk.lost = false ∧ s.mesh.find? (fun p => p.1 == 5) = some (5, .write (.store 0 4) 0x100 [(7, false)] false) ∧
    s.routeStopped (Owner.store 0 4).port (portOf 0x100) = true ∧ s.routeFrom 2 160 0 true = [0, 1, 2] := by decide +kernel

theorem meets_SemaphoresClampAndWaitsEnd : (0 ≤ ((0 : Nat) : Int) + 5 ∧ ((2 ^ 32 - 2 : Nat) : Int) + 1 < 2 ^ 32) ∧ ((0 : Nat) : Int) + -1 < 0 ∧
    2 ^ 32 ≤ ((2 ^ 32 - 1 : Nat) : Int) + 1 ∧ up.clk.lost = false ∧ up.fuse.active 0 = true ∧ up.clocked 0 = true ∧ up.semStopped 255 = false ∧
    stopped0.semStopped 255 = true := by decide +kernel

/-- The core about to send to a target word: S1 the amount, S2 the target. -/
def sends (w amount target : Nat) : State := runs (w * 2 ^ 216) { issuer with sregs := [(1, BitVec.ofNat 64 amount), (2, BitVec.ofNat 64 target)] }

theorem meets_RemoteSemaphoreSlots : ∀ e ∈ [(4, 5, 2 ^ 22), (5, 1, 2 ^ 22 + 159), (4, 0, 2 ^ 22), (5, 5, 2 ^ 63)],
    slotRuns (sends (wordOf (rsemWord e.1 false 9 1 2)) e.2.1 e.2.2) 0 (rsemWord e.1 false 9 1 2) = true ∧
    (sends (wordOf (rsemWord e.1 false 9 1 2)) e.2.1 e.2.2).issues 0 0 = true ∧
    (∀ x, x < 160 → (sends (wordOf (rsemWord e.1 false 9 1 2)) e.2.1 e.2.2).issues 0 x = true → x = 0) ∧
    targetRefused (BitVec.ofNat 64 e.2.2) false = decide (e.2.2 = 2 ^ 63) := by decide +kernel

/-- The core before a STEP of a run of n units, whose unit 0 has been requested and not landed. -/
def stepping (n : Nat) : State :=
  { runs (wordOf (stepWord false 0) * 2 ^ 216) { issuer with injq := [{ unit := 0 }] } with
    run := some { cmd := 1, entry := 0, args := [], inj := some 0, units := n } }

theorem meets_StepSwapsAndSends : slotRuns (stepping 0) 0 (stepWord false 0) = true ∧ (stepping 0).issues 0 0 = true ∧
    (stepping 0).dueUnit 0 ((stepping 0).core 0).stepNo = none ∧ ((stepping 0).core 0).round = none := by decide +kernel
theorem meets_StepSwapsAndSends_late : slotRuns (stepping 1) 0 (stepWord false 0) = true ∧ (stepping 1).issues 0 0 = true ∧
    (stepping 1).dueUnit 0 ((stepping 1).core 0).stepNo = some 0 ∧ ((stepping 1).core 0).hasUnit 0 = false := by decide +kernel

/-- A transfer that a queue holds. -/
def xfer (id : Nat) : Transfer :=
  { id := id, by_ := .program
    desc := { src := 0, dst := 4096, run := 256, semKind := 1, semCore := 0, semIdx := 3, semAdd := 2, levels := [], tag := 7, rsvOk := true } }
/-- The core before an LDI on queue q at the offset in S1, queue 0 holding n transfers. -/
def loads (q off n : Nat) : State :=
  runs (wordOf (ldiWord q 1) * 2 ^ 216) { issuer with sregs := [(1, BitVec.ofNat 64 off)], ladle := [(0, { waiting := (List.range n).map xfer })] }

theorem meets_LdiOffersATransfer : ∀ e ∈ [(0, 128, 0), (0, 0, 63), (0, 128, 64), (0, 64, 0), (7, 33554304, 0)],
    slotRuns (loads e.1 e.2.1 e.2.2) 0 (ldiWord e.1 1) = true ∧ (loads e.1 e.2.1 e.2.2).issues 0 0 = true ∧ (loads e.1 e.2.1 e.2.2).spadBad 0 e.2.1 128 = false ∧
    (Sparse.get {} ((loads e.1 e.2.1 e.2.2).core 0).ladle 0).waiting.length = e.2.2 := by decide +kernel
theorem meets_LdiOffersATransfer_owner : (loads 0 128 0).queueOwner 0 0 = 0 ∧ (loads 7 128 0).queueOwner 0 7 ≠ 0 := by decide +kernel

/-! ### Transfers, packets, remote operations, the hold -/

/-- A state with queue 0 of core 0 as given. -/
def withQueue (w o : List Transfer) : State := { up with cores := [(0, { ladle := [(0, { waiting := w, out := o })] })] }
/-- A transfer whose next pieces, requests and writes stand as given. -/
def moving (next reading outst : Nat) (by_ : LadleOwner) : Transfer := { xfer 3 with next := next, reading := reading, outst := outst, by_ := by_ }

theorem meets_TransfersStartAndEnd_start : ∀ x ∈ [xfer 0, { xfer 0 with desc := { (xfer 0).desc with run := 33 } }, { xfer 0 with desc := { (xfer 0).desc with src := 2 ^ 51 } }],
    (withQueue [x] []).clk.lost = false ∧ ((withQueue [x] []).queue 0 0).waiting = x :: [] ∧ (withQueue [x] []).fuse.active 0 = true ∧
    (withQueue [x] []).clocked 0 = true ∧ (withQueue [x] []).switching = false ∧ (withQueue [x] []).restarting = false ∧
    ((withQueue [x] []).queue 0 0).out.length < (withQueue [x] []).queueLimit 0 0 ∧
    (x.desc.ok, (withQueue [x] []).ladleRanges 0 x.desc) = (x.desc.run == 256, x.desc.src == 0) := by decide +kernel
theorem meets_TransferPiecesTravel_request : let x : Transfer := moving 0 0 0 .host
    let x2 : Transfer := { x with desc := { x.desc with run := 512, src := 0x203FC000000, dst := 0x203FC001000 } }
    let s := withQueue [] [x2]
    s.clk.lost = false ∧ s.transfer 0 0 3 = some x2 ∧ s.injReady 0 = false ∧ s.ladleGrant 0 = some 0 ∧ s.pieceReady 0 x2 = true ∧
    s.clocked 0 = true ∧ s.meshRegs.service = true ∧
    (∀ i, i < (x2.desc.piece 0).2.2 → s.byteBad (resolveSelf 0 (x2.desc.piece 0).1 + i) = false) ∧ inWordMem (resolveSelf 0 (x2.desc.piece 0).1) = false := by
  decide +kernel

/-- A state with one packet on the mesh. -/
def carries (x : Transfer) (p : Packet) : State := { withQueue [] [x] with mesh := [(5, p)], meshId := 6 }

theorem meets_TransferPiecesTravel_response : let s := carries (moving 1 1 0 .program) (.data (.transfer 0 0 3) 0 0 4096 [(7, false)])
    s.clk.lost = false ∧ s.mesh.find? (fun p => p.1 == 5) = some (5, .data (.transfer 0 0 3) 0 0 4096 [(7, false)]) ∧
    s.transfer 0 0 3 = some (moving 1 1 0 .program) ∧ (moving 1 1 0 .program).peer = none ∧
    s.heldBack 5 (.data (.transfer 0 0 3) 0 0 4096 [(7, false)]) = false ∧ s.cvPending 0 0 3 = false ∧ anyMarked [((7 : Byte), false)] = false := by decide +kernel
theorem meets_WritesLandAndAcknowledge : ∀ a ∈ [0, 0xBFFFFFFFFF, 0x10000000000, 0x20000000000], let s := carries (xfer 3) (.write .none a [(7, false)] false)
    s.clk.lost = false ∧ s.mesh.find? (fun p => p.1 == 5) = some (5, .write .none a [(7, false)] false) ∧
    s.heldBack 5 (.write .none a [(7, false)] false) = false ∧ s.busyAt a 1 = false ∧ s.hasRoom (portOf a) 3 = true ∧ inHost a = false ∧ inPeer a = false ∧
    inSpad a = decide (a = 0x20000000000) := by decide +kernel
theorem meets_WritesLandAndAcknowledge_ack : let s := carries (moving 1 0 1 .program) (.ack (.transfer 0 0 3) 4096)
    s.clk.lost = false ∧ s.mesh.find? (fun p => p.1 == 5) = some (5, .ack (.transfer 0 0 3) 4096) ∧ s.heldBack 5 (.ack (.transfer 0 0 3) 4096) = false ∧ s.transfer 0 0 3 = some (moving 1 0 1 .program) := by decide +kernel
theorem meets_WritesLandAndAcknowledge_host : let h : HostWrite := { id := 4, addr := hostBase, bytes := [(9, false)], owner := .none }
    let s : State := { up with hostWrites := [h] }
    s.clk.lost = false ∧ (∀ p ∈ s.mesh, p.1 ≠ 4) ∧ s.hostWrites.find? (fun h => h.id == 4) = some h ∧ s.linkDown = false ∧ h.owner = .none := by decide +kernel
theorem meets_TransfersStartAndEnd_signal : ∀ k ∈ [1, 2, 3],
    let x : Transfer := { moving 16 0 0 .program with desc := { (xfer 3).desc with semKind := k, semIdx := 255 } }
    let s := { withQueue [] [x] with epoch := 1 }
    s.clk.lost = false ∧ s.transfer 0 0 3 = some x ∧ x.desc.total ≤ x.next ∧ x.reading = 0 ∧ x.outst = 0 ∧ x.msg = none ∧ x.signalled = false ∧
    x.doneAt < s.epoch ∧ s.cvPending 0 0 3 = false ∧ s.clocked 0 = true ∧ (s.core 0).semNet = [] ∧ s.gsemNet = [] ∧ s.semStopped 255 = false ∧ x.dropped = false ∧ s.restarting = false ∧
    x.by_ = .program ∧ x.desc.ok = true ∧ x.desc.semAdd ≠ 0 ∧
    ((s.queue 0 0).out.filter (fun y => y.desc.semKind != 0 && !y.dropped)).head? = some x := by decide +kernel

/-- A core with one delivered unit whose writes are acknowledged. -/
def delivering : State := { up with epoch := 1, cores := [(0, { deliveries := [⟨4, some 1023, 0, 0⟩] })] }
/-- A run that injects table 0, of one unit, which core 0 has requested. -/
def injecting (par : Sparse Bool) (asked : Bool) : State :=
  let p := progOf 0
  { up with
    prog := some { p with tables := [{ ut := 0, op := false, handle := 1, act := 1, base := 0x1F00000, base2 := 0x1F00100, count := 1
                                       plan := ⟨0, false, false, 0, 0, 0, 0, 0, 0, 0, 0, 0, true⟩ }] }
    run := some { cmd := 1, entry := 0, args := [], inj := some 0, units := 1 }
    bytePar := par
    cores := [(0, { injq := [{ unit := 0, asked := asked }] })] }

theorem meets_UnitsDeliverAndLand : delivering.clk.lost = false ∧ delivering.gsemNet = [] ∧
    ((delivering.core 0).deliveries.find? (fun d => d.id == 4)).map (fun d => (d.outst, d.done, decide (d.doneAt < delivering.epoch))) = some (0, some 1023, true) := by
  decide +kernel
theorem meets_UnitsDeliverAndLand_injected : ∀ e ∈ [([], false, false), ([], false, true), ([(0x20001F00100, true)], true, false)], let s := injecting e.1 e.2.2
    s.clk.lost = false ∧ (s.injTable false).map (fun t => t.base2) = some 0x1F00100 ∧ s.clocked 0 = true ∧ s.meshRegs.service = true ∧
    (e.2.1 = false → (s.injReady 0, (s.core 0).nextAsk.map (fun i => (i.unit, i.forNext))) = if e.2.2 then (false, none) else (true, some (0, false))) ∧
    ((s.core 0).injq.find? (fun i => i.unit == 0 && i.forNext == false && !i.landed)).map (fun i => (i.asked, i.lost)) = some (e.2.2, false) ∧
    s.spadBad 0 0x1F00100 16 = e.2.1 ∧
    (s.injTable false).all (fun tb => ((injParts tb (s.tableFmt tb.ut) (s.spadBytes 0 0x1F00100 16)).1
      ++ (injParts tb (s.tableFmt tb.ut) (s.spadBytes 0 0x1F00100 16)).2).all (fun p => s.rangeOk false 0 p.1 (p.1 + p.2 - 1))) = true := by decide +kernel
theorem meets_UnitsDeliverAndLand_clean (a n : Nat) : (injecting [] false).anyBad a n = false := State.anyBad_clean rfl rfl a n

/-- A state with one remote operation of core 0 that has, or has not, its outcome. -/
def operating (o : Option Nat) : State :=
  { up with epoch := 1, remote := [{ id := 7, by_ := .core 0, key := (0, 0), self := true, peer := 0, core := 0, idx := 255, amount := -1, incarn := 0, since := 0, outcome := o }], remoteId := 8
            run := some { cmd := 1, entry := 0, args := [], inj := none } }

theorem meets_RemoteOperationsEnd : ∀ o ∈ [none, some 0], (operating o).clk.lost = false ∧
    ((operating o).remote.find? (fun x => x.id == 7)).map (fun x => (x.self, x.outcome, x.core, x.by_)) = some (true, o, 0, .core 0) ∧
    (operating o).remote.takeWhile (fun x => x.id != 7) = [] ∧ (operating o).semStopped 0 = false ∧ (operating o).routeStopped 0 0 = false ∧ (operating o).fuse.active 0 = true ∧
    (operating o).switching = false ∧ (operating o).restarting = false ∧ ((operating o).core 0).semNet = [] ∧
    (∀ x ∈ (operating o).remote, x.lost = false) ∧ (operating o).periods0 < 0 + 2 ^ (operating o).tmoExp := by decide +kernel
/-- The same operation with the time over. -/
theorem meets_RemoteOperationsEnd_late : let s : State := { operating none with epoch := 2 ^ 24 }
    s.clk.lost = false ∧ 0 + 2 ^ s.tmoExp ≤ s.periods0 ∧ ((s.remote.find? (fun x => x.id == 7)).map (fun x => x.since)) = some 0 := by decide +kernel

/-- The core with a wait of its own, or held at a count. -/
def held (stopped : Option Nat) (h : HoldState) : State := { up with cores := [(0, { issuing := true, stopped := stopped })], hold := h }

theorem meets_HoldStopsAndReleases : let s := held none { throttle := true, raising := true }
    s.clk.lost = false ∧ s.fuse.active 0 = true ∧ s.hold.raising = true ∧ (s.core 0).stopped = none ∧
    (∀ age ∈ [0, 11, 12], ({ s.core 0 with raiseAge := age } : Core).stopped = none) := by decide +kernel
theorem meets_HoldStopsAndReleases_release : let s := held (some 4) { episode := true }
    s.clk.lost = false ∧ s.hold.episode = true ∧ s.hold.release = none ∧ s.allStopped = true ∧ s.keepsHold = false := by decide +kernel
theorem meets_HoldStopsAndReleases_resume : ∀ now ∈ [7, 8], let s : State := { held (some 4) { episode := true, sMin := 4, sMax := 4, release := some 8 } with epoch := now }
    s.clk.lost = false ∧ s.fuse.active 0 = true ∧ s.hold.release = some 8 ∧ (s.core 0).stopped = some 4 ∧ (s.region (regionOf 0)).stopped = false ∧
    (s.region (regionOf 0)).half ≠ 2 ∧ (s.epoch < 8 + (4 - s.hold.sMin) ↔ now = 7) ∧ (∀ c ∈ s.fuse.ring, c ≠ 0 → (s.core c).stopped = none) := by
  decide +kernel
theorem meets_HoldStopsAndReleases_again : ∀ h ∈ [({ episode := true, release := some 8, throttle := true } : HoldState), { episode := true, release := some 8, crossing := [3] }],
    (held (some 4) h).hold.release.isSome = true ∧ ((held (some 4) h).keepsHold = true ∨ (held (some 4) h).hold.crossing ≠ []) := by decide +kernel
theorem meets_ThrottleCountersAndStretch : up.clk.lost = false ∧ up.boot.done = true ∧ ({ up with boot := {} } : State).boot.done = false ∧ up.regAlive = true ∧ 3 % 2 = 1 ∧
    up.fuse.active 0 = true ∧ (up.region 15).stopped = false ∧ ({ trip := true } : Region).stopped = false ∧ ({ half := 1 } : Region).half = 1 := by
  decide +kernel

/-- The state whose region 0 has stretched in k of its last 64 periods. -/
def stretchedIn (k : Nat) : State := { up with epoch := 63, regions := [(0, { window := List.range k })] }

theorem meets_ThrottleCountersAndStretch_budget : ∀ k ∈ [3, 4], ((stretchedIn k).region 0).trip = false ∧ (stretchedIn k).clk.lost = false ∧ ((stretchedIn k).region 0).stopped = false ∧
    (((stretchedIn k).region 0).window.filter (fun p => (stretchedIn k).epoch - ((stretchedIn k).region 0).lost < p + 64)).length = k ∧
    (stretchedIn k).hold.freeze = false := by decide +kernel

/-! ### Clocks, start-up, memory -/

theorem meets_ReferenceSwitches : up.regAlive = true ∧ up.clk.switching = false ∧ (256 + 23) / 256 % 2 = 1 ∧ (256 + 23) % 32 ≤ 23 ∧
    (up.clk.refSrc ≠ decide ((256 + 23) / 256 % 2 = 1) ∨ up.clk.refPort ≠ (256 + 23) % 32) ∧ (5 / 256 % 2 = 1 → 5 % 32 ≤ 23) ∧ up.clk.refPort ≠ 5 % 32 := by decide +kernel

/-- A switch of the reference to port 23, which is up. -/
def switchingRef : State := { up with clk := { refSrc := true, refPort := 23, switching := true }, ports := [(23, { state := 2 })] }

theorem meets_ReferenceSwitches_complete : switchingRef.clk.lost = false ∧ switchingRef.clk.switching = true ∧
    switchingRef.sourceRuns true 23 = true ∧ up.sourceRuns true 23 = false ∧ up.sourceRuns up.clk.useSrc up.clk.usePort = true := by decide +kernel

/-- The reference is lost. -/
def lostRef : State := { up with clk := { lost := true } }

theorem meets_LostReferenceStopsEverything : lostRef.clk.lost = true ∧ (Instr.throttleRaise ≠ .deviceReset ∧ Instr.throttleRaise ≠ .jtagIdcode) ∧
    (∀ d, Instr.throttleRaise ≠ .jtagBypass d) := ⟨rfl, ⟨nofun, nofun⟩, nofun⟩
theorem meets_LostReferenceStopsEverything_test : (∀ p d, Instr.throttleRaise ≠ .samplePreload p d) ∧ (∀ p d, Instr.throttleRaise ≠ .jtagExtest p d) ∧
    (∀ d, Instr.throttleRaise ≠ .jtagClamp d) ∧ ∀ d, Instr.throttleRaise ≠ .jtagHighz d := ⟨nofun, nofun, nofun, nofun⟩

/-- A state with a frequency change at a stage, every region's lock as given, and regions that may run at STEP top and slower. -/
def changing (c : Option Change) (n top : Nat) (locked : Bool) : State :=
  { up with clk := { change := c, fchgN := n }, epoch := 100, regions := (List.range 16).map (fun r => (r, { top := top, locked := locked })) }

theorem meets_FrequencyChangesRun_request : ∀ e ∈ [(6, 0, 0), (5, 5, 0), (2, 4, 3), (3, 4, 3)],
    let value := 2 ^ 31 + e.1 + 16 * e.2.1
    let s := changing none (100 + 65536 - (if e.1 = 3 then 0 else 1)) e.2.2 false
    s.regAlive = true ∧ value / 2 ^ 31 % 2 = 1 ∧ s.clk.change = none ∧ s.clk.ecfPend = none ∧ s.mixed = false ∧ value % 8 = e.1 ∧ value / 16 % 8 = e.2.1 ∧
    s.dieTop = e.2.2 ∧ (s.clk.fchgN < s.epoch + 65536 ↔ e.1 ≠ 3) := by decide +kernel
theorem meets_FrequencyChangesRun_late : let s := changing none (100 + 65535) 3 false
    s.regAlive = true ∧ s.clk.change = none ∧ s.clk.ecfPend = none ∧ s.mixed = false ∧ s.dieTop ≤ 3 ∧ s.clk.fchgN < s.epoch + 65536 := by decide +kernel
theorem meets_FrequencyChangesRun_busy : (changing (some ⟨5, 0, 200, false, 0⟩) 0 0 false).clk.change.isSome = true ∧ (2 ^ 31 + 5) / 2 ^ 31 % 2 = 1 := by decide +kernel
theorem meets_FrequencyChangesRun_lock : ∀ locked ∈ [true, false], ∀ n ∈ [164, 165], let s := changing (some ⟨5, 0, n, false, 0⟩) 0 0 locked
    s.clk.lost = false ∧ s.clk.change = some ⟨5, 0, n, false, 0⟩ ∧ (n ≤ s.epoch + 64 ↔ n = 164) ∧ (∀ r, r < 16 → (s.region r).locked = locked) := by decide +kernel
theorem meets_FrequencyChangesRun_hold : ∀ n ∈ [132, 133], let s := changing (some ⟨5, 0, n, false, 1⟩) 0 0 true
    s.clk.lost = false ∧ s.clk.change = some ⟨5, 0, n, false, 1⟩ ∧ (n ≤ s.epoch + 32 ↔ n = 132) := by decide +kernel
theorem meets_FrequencyChangesRun_switch : ∀ n ∈ [100, 101], let s := { changing (some ⟨5, 0, n, false, 2⟩) 0 0 true with cores := [(0, { stopped := some 4 })] }
    s.clk.lost = false ∧ s.clk.change = some ⟨5, 0, n, false, 2⟩ ∧ (n ≤ s.epoch ↔ n = 100) ∧ s.dieTop ≤ 5 ∧ s.allStopped = true ∧
    ({ s with hold := { s.hold with change := false } } : State).keepsHold = false := by decide +kernel
theorem meets_FrequencyChangesRun_stopped : ∀ step ∈ [6, 2, 3, 5],
    let value := 2 ^ 31 + 256 * step + 15
    let s := changing none 0 3 false
    s.regAlive = true ∧ value / 2 ^ 31 % 2 = 1 ∧ s.run = none ∧ s.clk.change = none ∧ s.clk.ecfPend = none ∧ value / 256 % 8 = step ∧ value % 16 = 15 ∧
    (s.region 15).top = 3 ∧ s.debug = false := by decide +kernel
theorem meets_FrequencyChangesRun_debug : let s : State := { changing none 0 0 false with prog := some { progOf 0 with debug := true } }
    s.regAlive = true ∧ s.run = none ∧ s.clk.change = none ∧ s.clk.ecfPend = none ∧ s.debug = true ∧ (2 ^ 31 + 256) / 256 % 8 = 1 ∧ (2 ^ 31) / 256 % 8 = 0 := by
  decide +kernel
theorem meets_FrequencyChangesRun_running : (inScalar 0).regAlive = true ∧ (inScalar 0).run.isSome = true := by decide +kernel
theorem meets_FrequencyChangesRun_restart : let s : State := { up with clk := { ecfPend := some (15, 4), ecfBusy := true }, regions := [(15, { stopped := true, locked := true })] }
    s.clk.lost = false ∧ s.clk.ecfPend = some (15, 4) ∧ (s.region 15).locked = true ∧ s.clk.wanted = none ∧ (s.region 15).top ≤ 4 ∧ s.cfgWait = [] ∧
    (∀ off ∈ [0x200000 + 0x1000 * 15], ({ s with regions := [], cfgWait := [(off, 4, 1)] } : State).regWaits off = false) := by decide +kernel
theorem meets_FrequencyChangesRun_bus : up.regAlive = true ∧ 12 % 8 ≤ 4 ∧ up.clk.change = none := by decide +kernel
theorem meets_ClockEnables : up.regAlive = true ∧ 0 < (2 ^ 31) % 2 ^ 32 ∧ bitOf (2 ^ 23) 23 = true ∧ bitOf (2 ^ 23) 0 = false ∧ (up.port 0).state = 0 ∧
    up.testOn 0 0 = false ∧ up.clk.refSrc = false ∧ up.clk.useSrc = false ∧ up.boot.done = true ∧ (2 ^ 16 - 1) % 2 ^ 16 = 2 ^ 16 - 1 ∧
    up.clk.enMisc % 2 ^ 16 ≠ 2 ^ 16 - 1 := by decide +kernel

/-- The Bulk tank trains for channels of the fitted kind 0. -/
def training : State := { up with clk := { btTraining := true } }

theorem meets_ClockEnables_tank : training.clk.lost = false ∧ training.clk.btTraining = true ∧
    (∀ c, c < 16 → (List.replicate 16 0).getD c 4 = (training.unit 8).cfg % 4) ∧ (∃ c, c < 16 ∧ (List.replicate 15 0).getD c 4 ≠ (training.unit 8).cfg % 4) := by
  refine ⟨rfl, rfl, by decide +kernel, ⟨15, by decide, by decide +kernel⟩⟩
theorem meets_DeviceResetClearsTheDevice : up.regAlive = true ∧ 0x5EB90001 % 2 ^ 32 = 0x5EB90001 ∧ (∀ c ∈ up.cmds, rowOf c.desc ≠ some .calWrite) := by
  refine ⟨by decide +kernel, by decide, ?_⟩; intro c h; cases h
theorem meets_StartUpAndService : State.reset.clk.lost = false ∧ State.reset.boot.started = false ∧ oneCore.mapOk = false ∧ crossFails [] = false ∧
    crossFails [(5, 9)] = true ∧ (∀ k, k < 8 → ∃ r, r < 3 ∧ ∀ f ∈ [(0, 0), (511, 0), (448, 1)], f.1 / 64 = k → f.2 ≠ r) ∧
    (∃ k, k < 8 ∧ ∀ r, r < 3 → ¬ ∀ f ∈ [(448, 0), (511, 1), (500, 2)], f.1 / 64 = k → f.2 ≠ r) := by
  refine ⟨rfl, rfl, by decide +kernel, by decide +kernel, by decide +kernel, by decide, ⟨7, by decide, by decide⟩⟩
theorem meets_StartUpAndService_map : State.reset.fuse.mapOk = true := by decide +kernel

/-- After phase 6, with declared routers: none, an active core's, or one at an attachment. -/
def phaseSix (decl : BitVec 160) : State := { up with boot := { started := true, phase := 6, modules := 12 }, meshRegs := { decl := decl } }

theorem meets_StartUpAndService_service : (phaseSix 1).regAlive = true ∧ (phaseSix 1).meshRegs.service = false ∧ (phaseSix 1).meshRegs.refuse = 0 ∧
    (phaseSix 1).boot.failed = false ∧ (phaseSix 1).boot.phase = 6 := ⟨rfl, rfl, rfl, rfl, rfl⟩
theorem meets_StartUpAndService_served : (phaseSix 0).serviceRefusal = 0 := by decide +kernel
theorem meets_StartUpAndService_refused : (phaseSix 1).serviceRefusal ≠ 0 := by decide +kernel
theorem meets_StartUpAndService_replay : ∀ f ∈ [14, 15], let s : State := { up with boot := { up.boot with flitFails := f } }
    s.clk.lost = false ∧ s.boot.modules ≠ 0 ∧ s.linkDown = false ∧ s.boot.flitFails = f := by decide +kernel
theorem meets_MemoryUnitsServe : up.clk.lost = false ∧ up.regAlive = true ∧ up.boot.done = true ∧ up.testOn 2 7 = false ∧
    (({ up with memUnits := [(7, { quiesce := true })] } : State).unit 7).quiesce = true ∧ Sparse.get 0 up.postponed ((8 * 64 + 15) * 32 + 31) < 7 ∧
    ¬ Sparse.get 0 ({ up with postponed := [(0, 7)] } : State).postponed 0 < 7 ∧ up.press.jobs = [] ∧ up.epochQueue = [] := by decide +kernel
theorem meets_MemoryUnitsServe_scrub : ∀ e ∈ [0, 1, 2, 3], let s : State := { up with ecc := if e = 0 then [] else [(16, e)] }
    s.clk.lost = false ∧ s.memEccCtl / 2 % 2 = 1 ∧ inWordMem (8 * 16) = true ∧ (s.span false (8 * 16)).isSome = true ∧ (s.unit (unitOf (8 * 16))).ready = true ∧
    Sparse.get 0 s.ecc 16 = e := by decide +kernel

/-- A stack that is, or is not, quiesced, and a pseudo-channel in the window. -/
def maintained (q : Bool) (pc cmd : Nat) (busy : Bool) (left : Nat) : State :=
  { up with memUnits := [(7, { quiesced := q })], maint := { stack := 7, pc := pc, cmd := cmd, busy := busy }, hardLeft := [((7 * 64 + pc) * 32, left)] }

theorem meets_MaintenanceOperations : ∀ e ∈ [(true, 63), (true, 64), (false, 0)], ∀ cmd ∈ [1, 2, 3, 4],
    let value := 1 + 2 * cmd + 32 * 7
    let s := maintained e.1 e.2 0 false 2
    s.regAlive = true ∧ s.boot.done = true ∧ s.maint.busy = false ∧ value % 2 = 1 ∧ value / 2 % 8 = cmd ∧ (s.unit (value / 32 % 8)).quiesced = e.1 ∧ s.maint.pc = e.2 := by
  decide +kernel
theorem meets_MaintenanceOperations_end : ∀ e ∈ [(1, 0), (1, 1), (2, 0), (2, 1), (3, 2), (4, 2)], let s := maintained true 0 e.1 true e.2
    s.clk.lost = false ∧ s.maint.busy = true ∧ s.maint.cmd = e.1 ∧ Sparse.get 2 s.hardLeft s.maint.bankKey = e.2 ∧
    (s.softReps.filter (fun p => p.1 == s.maint.bankKey)).length = 0 := by decide +kernel

/-! ### Rings and the host's commands -/

/-- Value v at byte o of a descriptor. -/
def putAt (o v : Nat) : Nat := v * 2 ^ (8 * o)
/-- Ring r of a state holds descriptor d, read and not delivered. -/
def offer (s : State) (r : Nat) (d : Nat) : State := { s with crings := [(r, { en := true, state := 1, tail := 1, descs := [BitVec.ofNat 512 d] })] }
/-- Ring r's head is descriptor d of that row and is the next to be delivered, as a test. -/
def offered (s : State) (r : Nat) (row : Row) (d : Nat) : Bool :=
  !s.clk.lost && s.served.head? == some r && (s.cring r).headOk == some (BitVec.ofNat 512 d) && rowOf (BitVec.ofNat 512 d) == some row

theorem offered_iff (s : State) (r : Nat) (row : Row) (d : Nat) : offered s r row d = true ↔ Offered s r row (BitVec.ofNat 512 d) := by
  simp [offered, Offered, and_assoc]

/-- A state whose ring r, and event ring e, are as given. -/
def withRing (r : Nat) (k : CRing) : State := { up with crings := [(r, k)] }
/-- The same for event ring e. -/
def withEvents (e : Nat) (k : ERing) : State := { up with erings := [(e, k)] }

theorem meets_RingsAct : up.regAlive = true ∧ (2 ^ 31 + 4) / 2 ^ 31 % 2 = 1 ∧ (up.cring 63).en = false ∧ 4 ≤ (2 ^ 31 + 4) % 32 ∧ (2 ^ 31 + 16) % 32 ≤ 16 ∧
    5 / 2 ^ 31 % 2 = 0 ∧ ((withRing 63 { en := true, state := 1 }).cring 63).en = true := by decide +kernel
theorem meets_RingsAct_doorbell : ∀ e ∈ [(0, 0, 16), (0, 0, 17), (5, 9, 8), (0, 16, 16 + 2 ^ 31 - 1)],
    let s := withRing 63 { en := true, state := 1, log2 := 4, head := e.1, tail := e.2.1 }
    s.regAlive = true ∧ s.boot.done = true ∧ e.2.2 < 2 ^ 32 ∧ (s.cring 63).en = true ∧ (s.cring 63).state ≠ 2 ∧ (e.2.1 = 16 ∨ e.2.2 ≠ (s.cring 63).tail) ∧
    ((e.2.2 + 2 ^ 32 - e.1) % 2 ^ 32 ≤ 2 ^ 4 ↔ e.2.2 = 16 ∨ e.2.2 = 8) ∧ (2 ^ 31 ≤ (e.2.2 + 2 ^ 32 - e.2.1) % 2 ^ 32 ↔ e.2.2 = 8) := by decide +kernel
/-- Ring 63 with 7 descriptors read of 8, the eighth a fence in host memory; blocked, so that nothing is delivered. -/
def reading : State :=
  { withRing 63 { en := true, state := 1, tail := 8, blocked := some 1, descs := List.replicate 7 (BitVec.ofNat 512 11) } with mem := [(hostBase + 64 * 7, 11)] }

theorem meets_RingsAct_read : reading.clk.lost = false ∧ reading.boot.done = true ∧ reading.linkDown = false ∧ (reading.cring 63).en = true ∧
    (reading.cring 63).state = 1 ∧ (reading.cring 63).descs.length < 8 ∧
    (reading.cring 63).descs.length < ((reading.cring 63).tail + 2 ^ 32 - (reading.cring 63).head) % 2 ^ 32 ∧
    rowOf (BitVec.ofNat 512 (leNat (reading.bytesAt (hostBase + 64 * 7) 64))) = some .fence := by decide +kernel
theorem meets_RingsAct_read_heads : ∀ q x, (reading.cring q).headOk = some x → rowOf x ≠ none := by
  intro q x h
  have e : (reading.cring q).headOk = none := by
    simp only [State.cring, reading, withRing, Sparse.get, CRing.headOk]
    by_cases hq : q = 63 <;> simp [hq, eq_comm]
  rw [e] at h; cases h
theorem meets_RingsAct_events : up.regAlive = true ∧ (up.ering 7).en = false ∧ (up.ering 7).buf = [] ∧ up.waitRecs = [] ∧
    ((withEvents 7 { en := true }).ering 7).en = true := by decide +kernel
theorem meets_RingsAct_head : ∀ v ∈ [9, 10], let s := withEvents 7 { en := true, head := 4, tail := 9 }
    s.regAlive = true ∧ (s.ering 7).buf = [] ∧ s.waitRecs = [] ∧ ((v + 2 ^ 32 - (s.ering 7).head) % 2 ^ 32 ≤ ((s.ering 7).tail + 2 ^ 32 - (s.ering 7).head) % 2 ^ 32 ↔ v = 9) := by
  decide +kernel
theorem meets_RingsAct_armed : ∀ v ∈ [2 ^ 30, 2 ^ 31 + 2 ^ 30], v / 2 ^ 30 % 2 = 1 ∧ ((withEvents 7 { en := true, head := 4, tail := 4 }).ering 7).tail = 4 ∧
    ((withEvents 7 { en := true, head := 4, tail := 5 }).ering 7).tail ≠ ((withEvents 7 { en := true, head := 4, tail := 5 }).ering 7).head := by decide +kernel

/-- A command of ring 5 whose records go to event ring 2, the second slot of which is free. -/
def finishing : State :=
  { up with
    crings := [(5, { en := true, state := 1, evt := 2, seq := 2 ^ 32 - 1 })], erings := [(2, { en := true, head := 1, tail := 16 })]
    cmds := [{ id := 3, ring := 5, count := 70000, desc := BitVec.ofNat 512 (11 + putAt 4 0xDDCCBBAA), found := [5] }] }

theorem meets_CompletionMakesOneRecord : (finishing.cmd 3).map (fun c => (c.outst, c.posting, c.ring)) = some (0, false, 5) ∧ finishing.waitRecs = [] ∧
    (finishing.ering (finishing.cring 5).evt).buf = [] ∧ (finishing.ering (finishing.cring 5).evt).room = true := by decide +kernel

/-- A semaphore command: operation, GLOBAL, index, amount, target word. -/
def semDesc (op glob idx amount target : Nat) : Nat := 8 + putAt 8 op + putAt 9 glob + putAt 10 idx + putAt 12 amount + putAt 16 target

theorem meets_CommandSemaphoresAndFences : ∀ op ∈ [1, 2], ∀ e ∈ [(1, 1023, 2 ^ 22 + 255, none, true), (0, 255, 2 ^ 22, none, true), (0, 256, 2 ^ 22, some 1, true),
      (0, 0, 2 ^ 22 + 1, some 2, true), (0, 5, 16 * 2 ^ 8, none, false)],
    let d := semDesc op e.1 e.2.1 (if e.2.1 = 5 then op - 1 else 2 ^ 32 - 1) e.2.2.1
    let s := offer up 0 d
    offered s 0 (if op = 1 then .semAdd else .semSub) d = true ∧
    (delivered s 0 (BitVec.ofNat 512 d)).semRefusal (BitVec.ofNat 512 d) false = e.2.2.2.1 ∧ bitOf (fieldAt (BitVec.ofNat 512 d) 16 8) 22 = e.2.2.2.2 ∧
    Sparse.get 0 s.gsems e.2.1 < 2 ^ 32 ∧ s.gsemNet = [] ∧ (s.core 0).semNet = [] ∧ Sparse.get 0 (s.core 0).sems e.2.1 < 2 ^ 32 ∧
    fieldAt (BitVec.ofNat 512 d) 9 1 = e.1 ∧ s.semHeld (BitVec.ofNat 512 d) = false := by decide +kernel
theorem meets_CommandSemaphoresAndFences_held : let d := semDesc 1 1 0 1 (2 ^ 22 + 255)
    offered (offer stopped0 0 d) 0 .semAdd d = true ∧ (offer stopped0 0 d).semHeld (BitVec.ofNat 512 d) = true := by decide +kernel
theorem meets_CommandSemaphoresAndFences_wait : ∀ e ∈ [(0, none), (1, none), (1, some 1)],
    let d := semDesc 0 1 (if e.2 = none then 1023 else 1024) e.1 (2 ^ 22 + 255)
    let s := offer up 0 d
    offered s 0 .semWait d = true ∧ s.cmds = [] ∧ (delivered s 0 (BitVec.ofNat 512 d)).semRefusal (BitVec.ofNat 512 d) true = e.2 ∧
    (s.namedSem (BitVec.ofNat 512 d) < fieldAt (BitVec.ofNat 512 d) 12 4 ↔ e.1 = 1) ∧ s.semStopped (fieldAt (BitVec.ofNat 512 d) 16 1) = false := by decide +kernel
theorem meets_CommandSemaphoresAndFences_fence : ∀ x ∈ [0, 1], let d := 11 + putAt 8 1 + putAt 63 x
    let s := offer up 0 d
    offered s 0 .fence d = true ∧ s.cmds = [] ∧ (zeroAt (BitVec.ofNat 512 d) 1 3 && zeroAt (BitVec.ofNat 512 d) 16 48) = decide (x = 0) := by decide +kernel

/-- A fence of ring 0 that waits for command 1, which is, or is not, still there. -/
def fenced (there : Bool) : State :=
  { withRing 0 { en := true, state := 1, blocked := some 9 } with
    cmds := [{ id := 9, ring := 0, count := 0, desc := 11, fence := [1] }] ++ if there then [{ id := 1, ring := 1, count := 0, desc := 11 }] else [] }

theorem meets_CommandSemaphoresAndFences_release : ∀ t ∈ [false, true], (fenced t).clk.lost = false ∧ ((fenced t).cring 0).blocked = some 9 ∧
    ((fenced t).cmd 9).map (fun c => (rowOf c.desc, c.ended, c.fence)) = some (some .fence, none, [1]) ∧ ((fenced t).cmd 1).isSome = t := by decide +kernel

/-- The block with a program of one entry and an OP table 1, and its regions at one step. -/
def bound : State :=
  let p := progOf 0
  let t : Table := { ut := 0, op := false, handle := 1, act := 1, base := 0, base2 := 0, count := 3, plan := ⟨0, false, false, 0, 0, 0, 0, 0, 0, 0, 0, 0, true⟩ }
  { up with prog := some { p with tables := [t, { t with ut := 1, op := true }] } }

theorem meets_RunsStartAndComplete : ∀ inj ∈ [0, 128], let d := 2 + putAt 10 inj
    let s := offer bound 0 d
    offered s 0 .run d = true ∧ (s.prog.map (fun p => p.entries.length)) = some 1 ∧
    (zeroAt (BitVec.ofNat 512 d) 1 3 && zeroAt (BitVec.ofNat 512 d) 11 5 && zeroAt (BitVec.ofNat 512 d) 48 16) = true ∧ fieldAt (BitVec.ofNat 512 d) 10 1 = inj ∧
    bitOf inj 7 = decide (inj = 128) ∧ ((s.prog.bind (fun p => p.table 0)).map (fun x => x.op)) = some false ∧ s.fuse.active 0 = true := by decide +kernel
theorem meets_RunsStartAndComplete_refused : ∀ e ∈ [(0, 0, none), (1, 0, none), (0, 128 + 1, some true), (0, 128 + 2, none)], let d := 2 + putAt 8 e.1 + putAt 10 e.2.1
    let s := offer (if e.2.1 = 0 ∧ e.1 = 0 then up else bound) 0 d
    offered s 0 .run d = true ∧ (zeroAt (BitVec.ofNat 512 d) 1 3 && zeroAt (BitVec.ofNat 512 d) 11 5 && zeroAt (BitVec.ofNat 512 d) 48 16) = true ∧
    fieldAt (BitVec.ofNat 512 d) 10 1 / 16 % 8 = 0 ∧ fieldAt (BitVec.ofNat 512 d) 8 2 = e.1 ∧ s.prog.isSome = decide (e ≠ (0, 0, none)) ∧
    (e.2.1 ≠ 0 → (s.prog.bind (fun p => p.table (e.2.1 % 16))).map (fun x => x.op) = e.2.2) := by decide +kernel

/-- A run whose one core has, or has not, ended, with a condition on it or none, the first end recorded or not. -/
def ending (ended : Bool) (cond : Nat) (first : Option Nat) : State :=
  { up with
    prog := some (progOf 0), cmds := [{ id := 1, ring := 0, count := 0, desc := 2 }], cores := [(0, { issuing := true, ended := ended, cond := cond })]
    run := some { cmd := 1, entry := 0, args := [], inj := none, firstCore := first, endCount := first.map (fun _ => 9) } }

theorem meets_RunsStartAndComplete_end : ∀ e ∈ [(0, none), (2, none), (2, some 0)], let s := ending true e.1 e.2
    s.clk.lost = false ∧ s.run.isSome = true ∧ (∀ c ∈ s.fuse.ring, (s.core c).ended = true ∧ (s.core c).drained = true) ∧ s.runRemote = false ∧
    (s.run.map (fun r => (r.restart, r.cut))) = some (false, false) ∧ (s.run.bind (fun r => r.firstCore)) = e.2 ∧ ((∀ c, c < 160 → (s.core c).cond = 0) ↔ e.1 = 0) := by decide +kernel
theorem meets_RunsStartAndComplete_busy : let s := ending false 0 none
    s.clk.lost = false ∧ (s.run.map (fun r => (r.restart, r.cut))) = some (false, false) ∧ ∃ c ∈ s.fuse.ring, (s.core c).ended = false ∨ (s.core c).drained = false := by decide +kernel

/-! ### Contexts, copies, jobs, tables, tests -/

/-- An image of one bundle, END, with one entry (R266 to R268), at 0, and one descriptor of a BF16 vector of 64 (R146) at 0x1000. -/
def image : List Host.Cell :=
  [(0, 83), (1, 86), (2, 57), (3, 80), (4, 1), (8, 1), (12, 1), (24, 64), (28, 96), (44, 104), (48, 25), (49, 3), (50, 153), (51, 63), (80, 63),
   (0x1000, 1), (0x1006, 1), (0x1007, 255), (0x1009, 1), (0x1010, 64)]
/-- A bind of that image with its report at 0x2000 or elsewhere; options 2 ask for a re-placement. -/
def bindDesc (opt report : Nat) : Nat :=
  1 + putAt 16 104 + putAt 20 1 + putAt 24 0x1000 + putAt 42 opt + putAt 48 report + putAt 56 5
/-- The block with the image in its stacks, and ring 0's head a bind. -/
def binding (opt report : Nat) : State := { offer up 0 (bindDesc opt report) with mem := image, prog := none }
/-- What the bind's planning answers: 0 a new program, its status otherwise. -/
def planStatus (s : State) (d : Nat) (head : Bool) : Nat := match (s.planBind (BitVec.ofNat 512 d) head).2 with
  | .ok _ => 0
  | .error e => e.1

/-- The program that the bind makes. -/
def planned : Option Prog := match ((binding 0 0x2000).planBind (BitVec.ofNat 512 (bindDesc 0 0x2000)) false).2 with
  | .ok (some p) => some (p.prog false)
  | _ => none
/-- The same block with that program in force, and ring 0's head a re-placement. -/
def rebinding (report : Nat) : State := { binding 2 report with prog := planned }

theorem meets_ContextsChange_bind : ∀ r ∈ [1, 0x2000, 2 ^ 51], offered (binding 0 r) 0 .bind (bindDesc 0 r) = true ∧
    (binding 0 r).bindWaits (BitVec.ofNat 512 (bindDesc 0 r)) = false ∧ bindFieldsOk (BitVec.ofNat 512 (bindDesc 0 r)) = decide (r ≠ 1) ∧
    (r ≠ 1 → planStatus (delivered (binding 0 r) 0 (BitVec.ofNat 512 (bindDesc 0 r))) (bindDesc 0 r) false = (if r = 0x2000 then 0 else 2)) := by decide +kernel
theorem meets_ContextsChange_replace : ∀ r ∈ [0x2000, 2 ^ 51], offered (rebinding r) 0 .replace (bindDesc 2 r) = true ∧
    (rebinding r).bindWaits (BitVec.ofNat 512 (bindDesc 2 r)) = false ∧ bindFieldsOk (BitVec.ofNat 512 (bindDesc 2 r)) = true ∧
    planStatus (delivered (rebinding r) 0 (BitVec.ofNat 512 (bindDesc 2 r))) (bindDesc 2 r) true = (if r = 0x2000 then 0 else 2) := by decide +kernel

/-- A re-placement that waits for a step boundary, with a run in progress or none. -/
def replacing (r : Nat) (run : Option RunState) : State :=
  { rebinding r with crings := [(0, { en := true, state := 1, blocked := some 9 })], replacing := some 9, run := run
                     cmds := [{ id := 9, ring := 0, count := 0, desc := BitVec.ofNat 512 (bindDesc 2 r) }] }

theorem meets_ContextsChange_boundary : (∀ r ∈ [0x2000, 2 ^ 51], (replacing r none).clk.lost = false ∧ (replacing r none).replacing = some 9 ∧
    ((replacing r none).cmd 9).isSome = true ∧ (replacing r none).atBoundary = true ∧ (replacing r none).changeHolds = false ∧
    (replacing r none).bindWaits (BitVec.ofNat 512 (bindDesc 2 r)) = false ∧
    planStatus (replacing r none) (bindDesc 2 r) false = (if r = 0x2000 then 0 else 2)) ∧
    (replacing 0x2000 (some { cmd := 1, entry := 0, args := [], inj := none })).atBoundary = false := by decide +kernel
theorem meets_ContextsChange_switch : ∀ p ∈ [none, some (progOf 0)], let d := 9 + putAt 8 77
    let s : State := { offer up 0 d with prog := p }
    offered s 0 .switch_ d = true ∧ (zeroAt (BitVec.ofNat 512 d) 1 3 && zeroAt (BitVec.ofNat 512 d) 16 48) = true ∧ s.prog = p := by decide +kernel

/-- A context change that waits: for the cores' writes, for nothing more, or for the change to STEP 1. -/
def changingCtx (kind down : Nat) (k : Core) : State :=
  { up with prog := some (progOf 0), cmds := [{ id := 9, ring := 0, count := 0, desc := 9 }], cores := [(0, k)]
            ctx := some { kind := kind, cmd := 9, seed := 77, prog := none, stepDown := down } }

theorem meets_ContextsChange_start : (∀ kind ∈ [0, 1, 2], ∀ down ∈ [0, 1], (changingCtx kind down {}).clk.lost = false ∧ (changingCtx kind down {}).beginContext.quiet = true ∧
    (∀ u, u < 9 → ((changingCtx kind down {}).unit u).quiesce = false) ∧
    (changingCtx kind down {}).changeHolds = false ∧ (changingCtx kind down {}).mixed = false ∧ (changingCtx kind down {}).clk.change = none ∧
    (changingCtx kind down {}).clk.ecfPend = none ∧ (changingCtx kind down {}).ctx.map (fun x => (x.kind, x.stepDown)) = some (kind, down)) ∧
    (changingCtx 2 0 { deliveries := [⟨1, none, 1, 0⟩] }).beginContext.quiet = false := by decide +kernel

/-- A Ladle copy's descriptor: core, queue, the transfer descriptor's address. -/
def ladleCmd (c q a : Nat) : Nat := 3 + putAt 8 c + putAt 9 q + putAt 16 a
/-- The block whose core 0 gives queue 6 to the host. -/
def hosting (d : Nat) : State := { offer up 0 d with cores := [(0, { ladle := [(6, { owner := 1 })] })] }

theorem meets_CopiesJobsAndTables_ladle : ∀ e ∈ [(159, 7, false, 0), (0, 0, true, 0), (0, 6, true, 1)], let d := ladleCmd e.1 e.2.1 (2 ^ 43 - 128)
    let d := if e.1 = 0 then ladleCmd e.1 e.2.1 0x100 else d
    offered (hosting d) 0 .ladle d = true ∧
    (zeroAt (BitVec.ofNat 512 d) 1 3 && zeroAt (BitVec.ofNat 512 d) 10 6 && zeroAt (BitVec.ofNat 512 d) 24 40) = true ∧ fieldAt (BitVec.ofNat 512 d) 16 8 < 2 ^ 52 ∧
    fieldAt (BitVec.ofNat 512 d) 16 8 % 128 = 0 ∧ (hosting d).fuse.active e.1 = e.2.2.1 ∧ (hosting d).queueOwner e.1 e.2.1 = e.2.2.2 ∧
    (hosting d).waits 0x100 = false ∧ (hosting d).waits (2 ^ 43 - 128) = false ∧ (hosting d).rangeOkDev false 0x100 (0x100 + 127) = true ∧ (hosting d).anyBad 0x100 128 = false := by decide +kernel

/-- An ingest job's descriptor; n: its output clips. -/
def ingestDesc (n : Nat) : Nat := 4 + putAt 12 n + putAt 16 0 + putAt 24 188 + putAt 32 0x1000

theorem meets_CopiesJobsAndTables_ingest : ∀ e ∈ [(0, 0), (1, 0), (1, 1)], let s : State := { offer up 0 (ingestDesc e.1) with clk := { enCrm := e.2 } }
    offered s 0 .ingest (ingestDesc e.1) = true ∧ ingestFieldsOk (BitVec.ofNat 512 (ingestDesc e.1)) = decide (e.1 = 1) ∧ s.clk.enCrm = e.2 := by decide +kernel

/-- A Stirrer plan at 0x4000 of one target, core 0's queue 6, with its target table at 0x4040. -/
def plan : List Host.Cell := [(0x4000, 16), (0x4004, 2), (0x4009, 128), (0x4019, 80), (0x4020, 64), (0x4021, 64), (0x4028, 1), (0x402A, 1), (0x4041, 6), (0x4042, 1), (0x4043, 2)]
/-- An epoch command of 4 samples from a plan. -/
def stirDesc (a : Nat) : Nat := 5 + putAt 24 a + putAt 32 4
/-- The block with that plan, an epoch in progress or none. -/
def stirring (a : Nat) (busy : Bool) : State :=
  { offer up 0 (stirDesc a) with
    mem := plan, cores := [(0, { ladle := [(6, { owner := 2 })], sems := [(2, 1)] })]
    epochCmd := if busy then some { cmd := 9, plan := stirPlan [], templ := ladleDesc [], targets := [] } else none }
/-- What the start of an epoch answers: 0, or the status of its refusal. -/
def stirStatus (s : State) (id d : Nat) : Nat := match (s.stirStart id (BitVec.ofNat 512 d)).2 with
  | .ok _ => 0
  | .error e => e

theorem meets_CopiesJobsAndTables_stirrer : ∀ e ∈ [(0x4000, true, 0), (0x4000, false, 0), (0x5000, false, 1), (2 ^ 51, false, 2)], let s := stirring e.1 e.2.1
    offered s 0 .stirrer (stirDesc e.1) = true ∧ s.cmds = [] ∧ (zeroAt (BitVec.ofNat 512 (stirDesc e.1)) 1 3 && zeroAt (BitVec.ofNat 512 (stirDesc e.1)) 36 28) = true ∧
    fieldAt (BitVec.ofNat 512 (stirDesc e.1)) 32 4 ≠ 0 ∧ fieldAt (BitVec.ofNat 512 (stirDesc e.1)) 24 8 % 64 = 0 ∧ s.epochCmd.isSome = e.2.1 ∧ s.epochQueue = [] ∧
    ({ delivered s 0 (BitVec.ofNat 512 (stirDesc e.1)) with epochQueue := [1] } : State).stirWaits (BitVec.ofNat 512 (stirDesc e.1)) = false ∧
    stirStatus ({ delivered s 0 (BitVec.ofNat 512 (stirDesc e.1)) with epochQueue := [1] } : State) s.cmdId (stirDesc e.1) = e.2.2 := by decide +kernel

/-- A Press job's descriptor: a block in FP32 from 0 to 0x1000; trig: with a trigger. -/
def pressDesc (trig : Bool) : Nat := 6 + putAt 8 4 + putAt 12 (if trig then 1024 else 0) + putAt 24 0x1000 + putAt 32 1 + putAt 36 0x3F800000 + putAt 40 (if trig then 3 else 0)
/-- A member of group 0, of one or of more members; engines of the Press that are clocked. -/
def member (d : Nat) (valid : Bool) (engines : Nat) : State :=
  { offer up 0 d with press := { groups := [(0, { valid := valid, gen := 5, p := 1, ring := [0] })] }, clk := { enMisc := engines * 2 ^ 16 } }

theorem meets_CopiesJobsAndTables_press : ∀ e ∈ [(false, false, 0), (true, true, 0), (false, true, 0), (false, true, 8)], let s := member (pressDesc e.1) e.2.1 e.2.2
    let d := BitVec.ofNat 512 (pressDesc e.1)
    offered s 0 .press (pressDesc e.1) = true ∧ s.press.jobs = [] ∧ ((delivered s 0 d).pressRefusals d (jobOf d s.cmdId) ≠ [] ↔ e.2.1 = false) ∧
    bitOf (fieldAt d 12 2) 10 = e.1 ∧ (s.pressEngines = [] ↔ e.2.2 = 0) := by decide +kernel

/-- A load of Press group 15 with two members from 0x3000, and one of the shard group table. -/
def groupDesc : Nat := 7 + putAt 9 15 + putAt 12 5 + putAt 16 2 + putAt 18 1 + putAt 24 0x3000
/-- The shard group table's load: four axes of 16384 members, the last of them here. -/
def shardDesc : Nat := 7 + putAt 8 1 + putAt 32 (0x3FFF4000 * (1 + 2 ^ 32 + 2 ^ 64 + 2 ^ 96))
/-- The device as member 1 of its fabric, with the list 2, 1 at 0x3000 and jobs of group 15. -/
def loading (jobs : List PressJob) : State := { offer up 0 groupDesc with grbSelf := 1, mem := [(0x3000, 2), (0x3002, 1)], press := { jobs := jobs } }
/-- A job of a group of four members, at position 0. -/
def job (g : Nat) : PressJob :=
  { jobOf (BitVec.ofNat 512 (pressDesc false)) 9 with group := g, armed := false, p := 4, ring := [3, 5, 7, 11], self := 0, gen := 5, nb := 1 }

theorem meets_CopiesJobsAndTables_group : ∀ jobs ∈ [[], [job 15]], let s := loading jobs
    let d := BitVec.ofNat 512 groupDesc
    offered s 0 .groupLoad groupDesc = true ∧ s.cmds = [] ∧
    (zeroAt d 1 3 && zeroAt d 10 2 && zeroAt d 20 4 && zeroAt d 32 16 && zeroAt d 48 16) = true ∧ fieldAt d 9 1 ≤ 15 ∧ 1 ≤ fieldAt d 16 2 ∧ fieldAt d 16 2 ≤ 16384 ∧
    fieldAt d 18 2 < fieldAt d 16 2 ∧ fieldAt d 24 8 % 32 = 0 ∧ fieldAt d 24 8 < 2 ^ 52 ∧ s.waitsRange 0x3000 4 = false ∧ s.rangeOkDev false 0x3000 (0x3000 + 3) = true ∧ s.anyBad 0x3000 4 = false ∧
    (∀ x ∈ listOf (s.bytesAt 0x3000 4) 2, x < 2 ^ 14) ∧ allDiff (listOf (s.bytesAt 0x3000 4) 2) = true ∧ (listOf (s.bytesAt 0x3000 4) 2).getD 1 0 = s.grbSelf := by
  decide +kernel
theorem meets_CopiesJobsAndTables_shard : let s := offer up 0 shardDesc
    let d := BitVec.ofNat 512 shardDesc
    offered s 0 .shardLoad shardDesc = true ∧ s.cmds = [] ∧
    (zeroAt d 1 3 && zeroAt d 9 1 && zeroAt d 10 2 && zeroAt d 12 8 && zeroAt d 20 4 && zeroAt d 24 8 && zeroAt d 48 16) = true ∧
    (∀ i, i < 4 → 1 ≤ fieldAt d (32 + 4 * i) 2 ∧ fieldAt d (32 + 4 * i) 2 ≤ 16384 ∧ fieldAt d (34 + 4 * i) 2 < fieldAt d (32 + 4 * i) 2) ∧
    s.replacing = none ∧ s.ctx = none := by decide +kernel

/-- A calibration-and-test command: operation, address, offset or other fields, length. -/
def calDesc (op a off len : Nat) : Nat := 10 + putAt 8 op + putAt 16 a + putAt 24 off + putAt 28 len

theorem meets_CalibrationTestsAndDetectors_read : ∀ e ∈ [(1, 16, 0, 32, false), (1, 0, 0x3FFFE0, 32, true), (2, 16, 4096, 4096, false), (2, 32, 0x3FF000, 4096, true)],
    let d := calDesc e.1 e.2.1 e.2.2.1 e.2.2.2.1
    offered (offer up 0 d) 0 (if e.1 = 1 then .calRead else .calWrite) d = true ∧
    (calZero (BitVec.ofNat 512 d) false && calAddr (BitVec.ofNat 512 d)) = e.2.2.2.2 ∧ 0 < e.2.2.2.1 ∧ e.2.2.2.1 % 32 = 0 ∧ e.2.2.1 + e.2.2.2.1 ≤ 0x400000 := by decide +kernel
theorem meets_CalibrationTestsAndDetectors_gauge : offered (offer up 0 (calDesc 4 0 0 0)) 0 .gauge (calDesc 4 0 0 0) = true := by decide +kernel

/-- A loop-back of 32 bytes on a target, its number and depth. -/
def loopDesc (t u depth : Nat) : Nat := 10 + putAt 8 3 + putAt 9 t + putAt 10 u + putAt 12 depth + putAt 28 32

theorem meets_CalibrationTestsAndDetectors_loopback : ∀ e ∈ [(0, 23, 0, false), (1, 3, 1, false), (4, 0, 0, true), (5, 159, 0, true)], let d := loopDesc e.1 e.2.1 e.2.2.1
    let s := offer up 0 d
    offered s 0 .loopback d = true ∧ (calZero (BitVec.ofNat 512 d) true && zeroAt (BitVec.ofNat 512 d) 16 12) = true ∧ fieldAt (BitVec.ofNat 512 d) 28 4 = 32 ∧
    loopFields e.1 e.2.1 e.2.2.1 = true ∧ (e.1 = 4 → s.fuse.active e.2.1 = true) ∧ s.loopOk e.1 e.2.1 e.2.2.1 = e.2.2.2 := by decide +kernel

/-- The one calibration-and-test command that runs, on 32 bytes at 0x1000, or on the test of core 0's Dasher. -/
def testing (d : Nat) (lost : List Nat) : State :=
  { up with cmds := [{ id := 9, ring := 0, count := 0, desc := BitVec.ofNat 512 d }], loopTest := some { cmd := 9, target := 4, unit := 0, depth := 0, len := 32, seed := 1, lost := lost } }

theorem meets_CalibrationTestsAndDetectors_end : ∀ e ∈ [(1, 32, some Row.calRead), (2, 4096, some .calWrite), (4, 0, some .gauge)], let s := testing (calDesc e.1 0x1000 4096 e.2.1) []
    s.clk.lost = false ∧ (s.cmds.find? (fun c => fieldAt c.desc 0 1 == 0x0A && c.ended.isNone)).bind (fun c => rowOf c.desc) = e.2.2 ∧ s.waitsRange 0x1000 e.2.1 = false ∧
    inHost 0x1000 = false := by decide +kernel
theorem meets_CalibrationTestsAndDetectors_end_clean (d : Nat) (lost : List Nat) (a n : Nat) : (testing d lost).anyBad a n = false := State.anyBad_clean rfl rfl a n
theorem meets_CalibrationTestsAndDetectors_looped : ∀ lost ∈ [[], [31]], let s := testing (loopDesc 4 0 0) lost
    s.clk.lost = false ∧ s.loopTest.map (fun x => (x.cmd, x.len, x.lost)) = some (9, 32, lost) ∧
    (s.cmds.find? (fun c => fieldAt c.desc 0 1 == 0x0A && c.ended.isNone)).bind (fun c => rowOf c.desc) = some .loopback ∧
    (s.loopTest.map (fun x => (x.sent 32).length)) = some 32 ∧ (0 : Nat) ∉ lost := by decide +kernel

/-- A run that waits for a semaphore, seen by the deadlock detector. -/
def stuck (n : Nat) : State := { inScalar 0 with dld := { k := 16 }, noProgress := n }

theorem meets_CalibrationTestsAndDetectors_detector : up.boot.done = true ∧ (stuck 65536).dldDue = false ∧ (stuck 65537).clk.lost = false ∧ (stuck 65537).dld.en = true ∧
    (stuck 65537).dld.quiet = false ∧ (stuck 65537).pendingWork = true ∧ 2 ^ (stuck 65537).dld.k < (stuck 65537).noProgress := by
  decide +kernel

/-! ### Griby ports and messages, the Press, the Creamery, security, management, host accesses -/

/-- A port of the block as given, its clock enabled, GRB_SELF 1. -/
def withPort (n : Nat) (p : Port) : State := { up with clk := { enGrb := 2 ^ 24 - 1 }, grbSelfValid := true, grbSelf := 1, grbCtl := 3, ports := [(n, p)] }
/-- An ACK message, and its slot. -/
def msg0 : Msg := { kind := 0x11, hops := 0, dst := 2, src := 1, incarn := 0, tag := 0, addr := 0, arg := 0 }
/-- Its slot. -/
def slot0 : GSlot := { whey := true, msg := some msg0, part := 0, parts := 1 }
/-- What comes at x is taken. -/
def taken (s : State) (x : Rx) : Bool := (s.arrive x).isSome

theorem taken_iff (s : State) (x : Rx) : taken s x = true ↔ ∃ u, s.arrive x = some u := by simp [taken, Option.isSome_iff_exists]

theorem meets_PortsAndLanes : (withPort 23 {}).portOn 23 = true ∧ (withPort 23 {}).testOn 0 23 = false ∧ ((withPort 23 {}).port 23).upReq = false ∧
    ((withPort 23 {}).port 23).state = 0 ∧ (withPort 23 {}).grbSelfValid = true ∧ (withPort 23 {}).clk.refSrc = false ∧ (withPort 23 {}).clk.useSrc = false ∧
    up.clk.lost = false ∧ ((withPort 23 { state := 1 }).port 23).state = 1 ∧ ((withPort 23 { state := 2 }).port 23).state = 2 ∧ up.regAlive = true ∧
    bitOf ({ withPort 23 { state := 2 } with reflect := 2 ^ 23 } : State).reflect 23 = true := by decide +kernel
/-- Port 0 up with two Whey credits; the peer table reaches device 5 through it. -/
def toPeer : State := { withPort 0 { state := 2, creditWhey := 2 } with peers := [(5, 2 ^ 63 + 2 ^ 32)] }
/-- A port in service that expects slot 7: slots 6 to 134 are taken, 135 to 5 are not; one that waits for a replay takes nothing else. -/
theorem meets_PortsAndLanes_arrivals : (∀ e ∈ [(7, true), (6, true), (134, true), (135, false), (5, false)],
    taken (withPort 0 { state := 2, rxSeq := 7 }) ⟨0, e.1, false⟩ = e.2) ∧ (∀ again ∈ [true, false], taken (withPort 0 { state := 2, rxNak := true }) ⟨0, 0, again⟩ = again) ∧
    taken (withPort 0 { state := 1 }) (rx 0) = false := by decide +kernel
theorem meets_PortsAndLanes_identity : taken toPeer (rx 0) = true ∧ toPeer.peerPorts (5 % 2 ^ 14) = [0] ∧ toPeer.peerPorts (6 % 2 ^ 14) = [] := by decide +kernel
/-- An identity item: the far end that the peer table reaches is granted Press messages on the Whey lane (R477, R488; log 25). -/
theorem test_identity_grants : result (exec (.identityItem (rx 0) 5 7 3) toPeer) (fun t => ((t.port 0).far, (t.port 0).creditWhey,
    (t.port 0).replay.map (fun e => e.2.msg.map (fun m => (m.kind, m.dst, m.arg))))) = some (some (5, 7, 3), 1, [some (0x12, 5, 1 + 1024 * 16)]) := by decide +kernel
/-- A bulk body leaves only once its header has: 260 bits in 38 slots of 7, before which Whey slots and idle ones go (R468, R471). -/
theorem test_header_before_body :
    let m : Msg := { kind := 1, hops := 0, dst := 5, src := 1, incarn := 0, tag := 0, addr := 0, arg := 0, body := List.replicate 32 (0, false), len := 32 }
    (((withPort 0 { state := 2, creditBulk := 9 }).sendOn 0 m).port 0).replay.map (fun e => e.2.msg.isSome) = List.replicate 38 false ++ [true] := by decide +kernel
/-- An ACK with the unreachable outcome, from the device that discarded the message, ends the operation; another outcome from there does
    not (R480). -/
theorem test_discarded_operation_ends : ∀ e ∈ [(4, 0), (2, 1)],
    let op : RemoteOp := { id := 9, by_ := .command 3, key := (1, 0), self := false, peer := 5, core := 255, idx := 0, amount := 1, incarn := 0, since := 0 }
    result (exec (.ackMsg (rx 0) 0 1 2 0 9 e.1) { toPeer with remote := [op] }) (fun t => t.remote.length) = some e.2 := by decide +kernel
theorem meets_PortsAndLanes_up : ∀ e ∈ [(15, true), (16, false)],
    let s := withPort 0 { state := 2, replay := [(255, slot0), (0, slot0)], replays := e.1, replayFrom := some 0, credited := e.2 }
    s.clk.lost = false ∧ (s.arrive ⟨0, 255, false⟩).map (fun u => (u.port 0)) = some (s.port 0) ∧ 2047 < 2048 ∧ (s.port 0).wheyq = [] ∧ (s.port 0).outq = [] ∧
    (s.port 0).lane = [] ∧ (s.port 0).credited = e.2 ∧ (s.port 0).replay.length ≤ 62 ∧ (∃ x ∈ (s.port 0).replay, x.1 = 0) ∧ (∃ x ∈ (s.port 0).replay, x.1 = 255) ∧
    (if (s.port 0).replayFrom = some 0 then (s.port 0).replays else 0) = e.1 := by decide +kernel

/-- A port that is up with one WRITE header, for a device under an incarnation. -/
def writeHeader (dst incarn : Nat) : Msg := { kind := 1, hops := 0, dst := dst, src := 2, incarn := incarn, tag := 9, addr := 0x1000, arg := 0, len := 32 }
/-- The block about to receive that WRITE's body. -/
def receiving (h : Msg) (ctl : Nat) : State := { withPort 0 { state := 2, headers := [h] } with grbCtl := ctl }

theorem meets_MessagesAct : ∀ e ∈ [(1, 0, 3, true), (2, 0, 3, false), (1, 1, 3, false), (1, 0, 2, false)], let h := writeHeader e.1 e.2.1
    let s := receiving h e.2.2.1
    s.clk.lost = false ∧ taken s (rx 0) = true ∧ (s.port 0).headers = [h] ∧ h.kind = 1 ∧ h.len = (List.replicate 32 (0 : Byte)).length ∧
    ((h.dst ≠ s.grbSelf ∨ h.incarn ≠ s.incarn ∨ bitOf s.grbCtl 0 = false) ↔ e.2.2.2 = false) ∧ h.addr % 2 ^ 63 % 32 = 0 ∧ h.addr % 2 ^ 63 < 2 ^ 52 ∧
    s.writeRange (h.addr % 2 ^ 63) 32 = true := by decide +kernel
theorem meets_MessagesAct_sem : ∀ e ∈ [(true, 0, 1023), (true, 255, 1023), (false, 0, 255), (false, 0, 256), (false, 160, 0)], let s := receiving (writeHeader 1 0) 3
    let arg := (if e.1 then 2 ^ 33 else 0) + e.2.2 * 2 ^ 34 + e.2.1 * 2 ^ 44 + 7
    s.clk.lost = false ∧ taken s (rx 0) = true ∧ 1 % 2 ^ 14 = s.grbSelf ∧ 0 % 2 ^ 16 = s.incarn ∧ bitOf s.grbCtl 0 = true ∧ s.switching = false ∧ s.restarting = false ∧
    bitOf arg 33 = e.1 ∧ arg / 2 ^ 44 % 2 ^ 8 = e.2.1 ∧ arg / 2 ^ 34 % 2 ^ 10 = e.2.2 ∧ Sparse.get 0 s.gsems 1023 < 2 ^ 32 ∧ s.gsemNet = [] ∧ s.fuse.active 0 = true ∧
    s.semStopped e.2.1 = false ∧ ({ s with regions := stopped0.regions } : State).semStopped 255 = true ∧ (s.core 0).semNet = [] ∧ Sparse.get 0 (s.core 0).sems 255 < 2 ^ 32 := by decide +kernel
theorem meets_MessagesAct_forward : taken toPeer (rx 0) = true ∧ 5 % 2 ^ 14 ≠ toPeer.grbSelf ∧ bitOf toPeer.grbCtl 1 = true ∧ 15 % 16 ≠ 0 ∧
    toPeer.portFor 1023 (5 % 2 ^ 14) = some 0 := by decide +kernel
theorem meets_MessagesAct_ack :
    let op : RemoteOp := { id := 2 ^ 32 + 9, by_ := .command 3, key := (1, 0), self := false, peer := 2, core := 255, idx := 0, amount := 1, incarn := 0, since := 0 }
    let s : State := { receiving (writeHeader 1 0) 3 with remote := [op] }
    taken s (rx 0) = true ∧ 1 % 2 ^ 14 = s.grbSelf ∧ 0 % 2 ^ 16 = s.incarn ∧ 1 % 2 ^ 16 ≠ s.incarn ∧
    ∀ e ∈ [(2, 0), (2, 4), (5, 4)],
      s.remote.find? (fun o => o.id % 2 ^ 32 == 9 % 2 ^ 32 && !o.self && (o.peer == e.1 % 2 ^ 14 || e.2 % 8 == 4)) = some op := by decide +kernel

/-- A lap message's header: lap, chunk, group, job tag 4, generation 5, for a device. -/
def lapHeader (lap chunk g dst size : Nat) : Msg :=
  { kind := 2, hops := 0, dst := dst, src := 7, incarn := 0, tag := 4, addr := 5 + g * 2 ^ 32 + lap * 2 ^ 36 + chunk * 2 ^ 38, arg := 0, len := size }
/-- The block as member r of a group of four with one job, about to receive a lap message's body. -/
def lapping (r : Nat) (h : Msg) : State :=
  { receiving h 3 with press := { jobs := [{ job 0 with self := r }] }, peers := [3, 5, 7, 11].map (fun d => (d, 2 ^ 63 + 2 ^ 32)) }

theorem meets_LapMessagesAct : ∀ e ∈ [(1, 1), (2, 1), (3, 1), (1, 2), (3, 2)], let h := lapHeader e.1 0 9 e.2 1
    let s := lapping 0 h
    s.clk.lost = false ∧ taken s (rx 0) = true ∧ (s.port 0).headers = [h] ∧ h.kind = 2 ∧ h.addr / 2 ^ 36 % 4 = e.1 ∧ h.len = 1 ∧ (h.dst ≠ s.grbSelf ↔ e.2 = 2) ∧
    (∀ j ∈ s.press.jobs, j.group ≠ h.addr / 2 ^ 32 % 16) := by decide +kernel
theorem meets_LapMessagesAct_waits : ∀ lap ∈ [1, 2], let h := lapHeader lap 0 0 1 1
    let s : State := { lapping 0 h with memUnits := [(0, { quiesce := true })] }
    taken s (rx 0) = true ∧ s.press.jobs = [job 0] ∧ (job 0).armed = false ∧ (job 0).group = h.addr / 2 ^ 32 % 16 ∧ (job 0).tag = h.tag ∧ h.dst = s.grbSelf ∧
    s.chunkWaits (job 0) (h.addr / 2 ^ 38 % 2 ^ 15) = true := by decide +kernel
theorem meets_LapMessagesAct_for : ∀ e ∈ [(1, 1, 2), (2, 260, 3), (3, (job 0).recSize, 3)], let h := lapHeader e.1 0 0 1 e.2.1
    let s := lapping e.2.2 h
    let j : PressJob := { job 0 with self := e.2.2 }
    (s.clk.lost = false ∧ taken s (rx 0) = true ∧ (s.port 0).headers = [h] ∧ h.kind = 2 ∧ h.len = e.2.1 ∧ h.addr / 2 ^ 36 % 4 = e.1 ∧ h.dst = s.grbSelf ∧
    h.incarn = s.incarn ∧ s.press.jobs = [j] ∧ s.press.old = [] ∧ j.armed = false ∧ h.addr / 2 ^ 32 % 16 = j.group ∧ h.tag = j.tag ∧ h.addr % 2 ^ 32 = j.gen) ∧
    h.arg % 2 ^ 30 + 1 = j.nb ∧ h.arg / 2 ^ 30 % 2 = j.mode ∧ h.arg / 2 ^ 32 % 16 = j.skim ∧ 0 < j.nb ∧ j.chunk 0 = h.addr / 2 ^ 38 % 2 ^ 15 ∧
    s.chunkWaits j (j.chunk 0) = false ∧ s.peerPorts (j.ring.getD (j.next (j.up (j.chunk 0)) j.self) 0) ≠ [] ∧ (e.1 = 1 → j.self ≠ j.origin 0) ∧ (e.1 = 2 → j.self ≠ j.owner 0) ∧ j.p ≠ 1 ∧ j.skims = [] ∧
    Sparse.get 0 s.press.grants 3 = 0 := by decide +kernel

/-- A member of group 0 with one job, in the shape that a control message meets. -/
def jobbing (j : PressJob) : State := { withPort 0 { state := 2 } with press := { jobs := [j], groups := [(0, { valid := true, gen := 5, p := 4, ring := [3, 5, 7, 11] })] } }

theorem meets_PressJobsEnd : let s := jobbing (job 0)
    s.clk.lost = false ∧ taken s (rx 0) = true ∧ 1 % 2 ^ 14 = s.grbSelf ∧ 0 % 2 ^ 16 = s.incarn ∧ s.press.waiting = [] ∧ (s.group 0).valid = true ∧ (s.group 0).gen = 5 % 2 ^ 32 ∧
    (0, 5, 4, 0) ∉ s.press.aborts ∧ s.press.jobs = [job 0] ∧ (job 0).armed = false ∧ (job 0).group = 5 / 2 ^ 32 % 16 ∧ (job 0).tag = 4 % 2 ^ 32 ∧ (job 0).gen = 5 % 2 ^ 32 := by
  decide +kernel
theorem meets_PressJobsEnd_skim : let j : PressJob := { job 0 with skim := 1, nb := 2, skims := [{ block := 0, left := 2, words := List.replicate 64 1 }] }
    let s := jobbing j
    s.press.jobs = [j] ∧ s.press.old = [] ∧ j.sampled 0 = true ∧ 0 < j.nb ∧ j.chunk 0 = 0 ∧ (j.skims.find? (fun a => a.block == 0)).map (fun x => x.left) = some 2 ∧
    (j.skims.find? (fun a => a.block == 0)).map (fun x => x.scale) = some 0 ∧ leAt (List.replicate 260 (0 : Byte)) 256 1 ≠ 255 := by decide +kernel
theorem meets_PressJobsEnd_ends : ∀ w ∈ [0, 1], let j : PressJob := { job 0 with cmd := 9, written := w, returned := [msg0], sig := some (true, 0, 1023, 5) }
    let s : State := { jobbing j with epoch := w, peers := if w = 1 then [(2, 2 ^ 63 + 2 ^ 32)] else [] }
    s.clk.lost = false ∧ (s.pressJob 9).isSome = true ∧ j.returned = msg0 :: [] ∧ Sparse.get 0 s.press.grants msg0.dst = 0 ∧ s.peerPorts msg0.dst = List.replicate w 0 ∧
    (j.written = j.nb ↔ w = 1) ∧ j.outst = 0 ∧ j.compare = 0 ∧ (j.doneAt < s.epoch ↔ w = 1) ∧ j.dropSignal = false ∧ Sparse.get 0 s.gsems 1023 < 2 ^ 32 ∧
    s.gsemNet = [] ∧ s.sigStopped j.sig = false ∧ s.periods0 < j.since + 2 ^ s.press.tmoExp := by decide +kernel
theorem meets_PressJobsEnd_silent : let s : State := { jobbing { job 0 with cmd := 9 } with epoch := 2 ^ 31 }
    s.clk.lost = false ∧ (s.pressJob 9).map (fun j => j.since) = some 0 ∧ 0 + 2 ^ s.press.tmoExp ≤ s.periods0 := by decide +kernel
theorem meets_PressJobsEnd_fire : ∀ v ∈ [2, 3], let j : PressJob := { job 0 with armed := true, trigSem := 7, thresh := 3, consume := true }
    let s : State := { jobbing j with gsems := [(7, v)] }
    s.clk.lost = false ∧ s.replacing = none ∧ s.semStopped 255 = false ∧ s.press.jobs = [j] ∧ (j.thresh ≤ Sparse.get 0 s.gsems j.trigSem ↔ v = 3) ∧ j.consume = true ∧ j.thresh ≠ 0 ∧
    Sparse.get 0 s.gsems j.trigSem < 2 ^ 32 := by decide +kernel

/-- A Creamery profile at 0x1000: one FP8 picture of 16 by 16 a clip, slots of 4096 bytes at 0x6000. -/
def profile : List Host.Cell :=
  [(0x1001, 1), (0x100D, 4), (0x1010, 1), (0x1012, 1), (0x1020, 16), (0x1022, 16), (0x1061, 48), (0x106A, 32), (0x1072, 16), (0x1079, 96), (0x1081, 16), (0x1089, 80)]
/-- An ingest job on its way to engine 31, with or without a readable profile. -/
def ingesting (prof : Nat) : State :=
  { up with
    mem := profile, clk := { enCrm := 2 ^ 31 }, ingestQ := [9], crings := [(0, { en := true, state := 1 })]
    cmds := [{ id := 9, ring := 0, count := 0, desc := BitVec.ofNat 512 (4 + putAt 12 1 + putAt 16 0 + putAt 24 188 + putAt 32 prof) }] }

theorem meets_CreameryAndStirrerAct : ∀ prof ∈ [0x1000, 2 ^ 51], let s := ingesting prof
    s.clk.lost = false ∧ s.ingestQ = 9 :: [] ∧ s.freeEngine = some 31 ∧ (s.cmd 9).map (fun c => fieldAt c.desc 32 8) = some prof ∧
    (s.cmd 9).map (fun c => s.ingestWaits c.desc 31) = some false ∧ s.rangeOkDev false prof (prof + 255) = decide (prof = 0x1000) := by decide +kernel
theorem meets_CreameryAndStirrerAct_waits : let s : State := { ingesting 0x1000 with memUnits := [(0, { quiesce := true })] }
    s.ingestQ = 9 :: [] ∧ s.freeEngine = some 31 ∧ (s.cmd 9).map (fun c => s.ingestWaits c.desc 31) = some true := by decide +kernel
theorem meets_CreameryAndStirrerAct_profile : let s := ingesting 0x1000
    profileFieldsOk (s.bytesAt 0x1000 256) = true ∧ (s.cmd 9).map (fun c => s.ingestRangesOk (profileOf (s.bytesAt 0x1000 256)) c.desc 31) = some true ∧
    (profileOf (s.bytesAt 0x1000 256)).clipBytes ≤ (profileOf (s.bytesAt 0x1000 256)).slot ∧ s.cvReady (profileOf (s.bytesAt 0x1000 256)) = true := by decide +kernel
theorem meets_CreameryAndStirrerAct_clean (p a n : Nat) : (ingesting p).anyBad a n = false := State.anyBad_clean rfl rfl a n

/-- Engine 0 with the clips given, and the semaphore that a clip signals. -/
def decoding (g : Ingest) : State := { up with engines := [(0, g)], epoch := 1 }

theorem meets_CreameryAndStirrerAct_clips : (decoding {}).gsemNet = [] ∧ (decoding {}).semStopped 255 = false ∧ (∀ d ∈ [0, 1], ((decoding { doneAt := d, clips := [(3, 0)] }).epoch ≤ d ↔ d = 1)) ∧ (∀ sem ∈ [none, some 1023], (decoding { cmd := 9, sem := sem, clips := [(3, 0)] }).clk.lost = false ∧
    ((decoding { cmd := 9, sem := sem, clips := [(3, 0)] }).engine 0).clips = [(3, 0)] ∧ ((decoding { cmd := 9, sem := sem, clips := [(3, 0)] }).engine 0).sem = sem) ∧
    ((decoding { cmd := 9 }).engine 0).cmd ≠ 0 ∧ ((decoding { cmd := 9 }).engine 0).clips = [] ∧ ((decoding { cmd := 9 }).engine 0).auxOut = 0 ∧
    ((decoding {}).engine 0).cmd = 0 := by decide +kernel

/-- An epoch in progress with credits on its target's FREE_SEM, batches left, and samples emitted. -/
def emitting (free emitted : Nat) (left : List (Nat × Nat)) : State :=
  { up with
    cmds := [{ id := 9, ring := 0, count := 0, desc := BitVec.ofNat 512 (stirDesc 0x4000) }], cores := [(0, { sems := [(2, free)], ladle := [(6, { owner := 2 })] })]
    epochCmd := some { cmd := 9, templ := ladleDesc [], targets := [(0, 6, 1, 2, 0)], emitted := emitted, left := left
                       plan := { stirPlan [] with n := 16, per := 2, nt := 1, nbuf := 1 } } }

theorem meets_CreameryAndStirrerAct_credit : ∀ e ∈ [(0, 0), (1, 4), (1, 3)], let s := emitting e.1 e.2 [(0, 0)]
    s.clk.lost = false ∧ s.epochCmd.isSome = true ∧ (s.cmd 9).map (fun c => fieldAt c.desc 32 4) = some 4 ∧ Sparse.get 0 (s.core 0).sems 2 = e.1 ∧
    s.epochCmd.map (fun x => x.targets.getD (x.credits % x.plan.nt) (0, 0, 0, 0, 0)) = some (0, 6, 1, 2, 0) ∧ s.epochCmd.map (fun x => x.emitted) = some e.2 ∧ s.queueOwner 0 6 = 2 ∧
    s.semStopped 0 = false ∧ ({ s with regions := stopped0.regions } : State).semStopped 0 = true ∧ (s.core 0).semNet = [] := by decide +kernel
theorem meets_CreameryAndStirrerAct_full : ((emitting 0 2 [(0, 0)]).epochCmd.map (fun e => e.left)) = some [(0, 0)] ∧ (0, 0) ∈ [(0, 0)] ∧ (1, 0) ∉ [(0, 0)] ∧
    (emitting 0 2 [(0, 0)]).semStopped 0 = false ∧ Sparse.get 0 ((emitting 0 2 [(0, 0)]).core 0).sems 1 < 2 ^ 32 := by decide +kernel

/-- Check-value unit 3, clocked, with its fields as given. -/
def unit3 (v : Cv) : State := { up with clk := { enMisc := 2 ^ 24 - 1 }, cvs := [(3, v)] }

theorem meets_CreameryAndStirrerAct_values : (unit3 {}).cvReach 3 = true ∧ (2 ^ 31) / 2 ^ 31 % 2 = 1 ∧ (unit3 {}).cvInUse 3 = false ∧
    ((unit3 { opened := true }).cv 3).src = 0 ∧ ((unit3 { opened := true }).cv 3).opened = true ∧ (unit3 { src := 1 }).cvReach 3 = true ∧ ((unit3 { src := 1 }).cv 3).src ≠ 0 := by
  decide +kernel

/-- A report is asked for at an address. -/
def attesting (a : Nat) (busy : Bool) : State := { up with sec := { attAddr := a, attBusy := busy } }

theorem meets_SecurityRequestsAct : ∀ e ∈ [(0x1000, true), (0x1000, false), (0x1001, false)], let s := attesting e.1 e.2
    s.regAlive = true ∧ s.boot.done = true ∧ (2 ^ 31) / 2 ^ 31 % 2 = 1 ∧ (2 ^ 31) / 2 ^ 30 % 2 = 0 ∧ s.sec.attBusy = e.2 ∧ s.sec.queue = [] ∧ s.sec.report = none ∧
    s.celBusy = false ∧ s.replacing = none ∧ ((s.sec.attAddr % 128 = 0 ∧ (inHost s.sec.attAddr = true ∨ s.sec.attAddr < 0x0C000000000) ∧
      s.rangeOkDev false s.sec.attAddr (s.sec.attAddr + 767) = true) ↔ e.1 = 0x1000) := by decide +kernel
theorem meets_SecurityRequestsAct_ends : (∀ n ∈ [0, 1], let s : State := { up with sec := { queue := [true], report := some [], repOut := n } }
    s.clk.lost = false ∧ s.sec.queue = [true] ∧ s.sec.report = some [] ∧ s.sec.repOut = n) ∧
    (∀ q ∈ [true, false], let s : State := { up with sec := { queue := [false], bootBusy := true }, memUnits := [(0, { ready := true, quiesce := q })] }
      s.sec.queue = [false] ∧ s.bootWaits s.sec.bootAddr = q) ∧ (2 ^ 30) / 2 ^ 30 % 2 = 1 ∧ (2 ^ 30) / 2 ^ 31 % 2 = 0 := by decide +kernel

/-- The management target with a dynamic address. -/
def addressed : State := { up with mgmt := { dynAddr := some 9, offset := 2 ^ 16 - 8, strap := 3 } }

theorem meets_ManagementAndTestPort : up.clk.lost = false ∧ up.boot.started = true ∧ up.mgmt.dynAddr = none ∧ 0x50 = 0x50 + up.mgmt.strap ∧
    addressed.mgmt.mine 9 = true ∧ ([1, 2, 3] : List Byte).length ≠ 2 ∧ addressed.mgmt.offset < 2 ^ 16 ∧ addressed.mgmt.offset % 8 = 0 := by decide +kernel
theorem meets_HostAccessesAnswer : up.hostAlive = true ∧ up.regAlive = true ∧ up.hostTarget 0x0C000000000 32 = false ∧ (∀ n ∈ [32, 256], up.hostTarget 0x100 n = true ∧ oneUnit 0x100 n = true ∧
    0x100 % n = 0 ∧ up.busyAt 0x100 n = false) ∧ up.meshRegs.service = true ∧ ({ up with meshRegs := {} } : State).meshRegs.service = false ∧ up.hasRoom (portOf 0x100) 1 = true ∧
    up.hasRoom (portOf 0x1FF) 3 = true ∧ up.busyAt 0x1FF 1 = false ∧ up.hostTarget 0x1FF ([some 1] : List (Option Byte)).length = true ∧ oneUnit 0x1FF 1 = true := by decide +kernel
theorem meets_HostAccessesAnswer_registers : up.regWaits 0x1000 = false ∧ up.cfgWait = [] ∧ (up.reg 0x1000 8).isSome = true ∧ (up.reg 0x1008 4).isSome = true ∧
    (up.reg 0x1000 4).map (fun x => x.1) ≠ some 4 ∧ (up.cring 63).en = false ∧ up.boot.done = true ∧ (up.reg 0x40F000 4).isSome = true ∧ (up.reg 0x700008 4).isSome = true ∧
    ({ up with regions := [(0, { stopped := true })] } : State).regWaits 0x200000 = true := by decide +kernel
/-- A W1C bit that is set in the cycle of the write that clears it ends set; the others are cleared (R12). -/
theorem test_raced_clear : result (exec (.registerWrite 0x700008 4 ⟨0x1F, 4⟩) { up with press := { err := 7 } }) (fun t => t.press.err) = some 4 := by decide +kernel
theorem meets_EmptyQueuePassesOnePeriod_waits : (inScalar 0).mayPass = false ∧ up.mayPass = true := by decide +kernel
theorem meets_EmptyQueuePassesOnePeriod : up.pending = [] ∧ up.clk.lost = false ∧ up.boot.started = true ∧ lostRef.clk.lost = true ∧ State.reset.boot.started = false :=
  ⟨rfl, rfl, rfl, rfl, rfl⟩
theorem meets_MemoryStaysCanonical : up.memWf = true ∧ ∃ t, step { up with pending := [.throttleRaise] } = .next t := ⟨by decide +kernel, _, rfl⟩
theorem meets_FuseMapNeverChanges : ∃ t, step { up with pending := [.deviceReset] } = .next t := ⟨_, rfl⟩

end Sys2Proof.Tests
end

section
/-! PROOFS. The fuse map never changes (00 R3, 03 R78): every operation of the model leaves it alone, a device reset too (19 R591),
so every command and every step does. A lemma `f_fuse` says it of an operation, `f_keepsFuse` of a command's meaning. -/

namespace Sys2Proof.Machine

/-! ### Choices, folds and outcomes -/

/-- The fuse map of a choice between two states: where both keep it, `simp` closes the goal. -/
@[simp] theorem State.fuse_ite (c : Prop) [Decidable c] (a b : State) : (if c then a else b).fuse = if c then a.fuse else b.fuse :=
  apply_ite State.fuse c a b

@[simp] theorem foldl_fuse {α : Type} {f : State → α → State} (hf : ∀ s x, (f s x).fuse = s.fuse) (l : List α) (s : State) :
    (l.foldl f s).fuse = s.fuse := by
  induction l generalizing s with
  | nil => rfl
  | cons x t ih => rw [List.foldl_cons, ih, hf]

/-- The outcome of an optional operation, or of another where there is none. -/
theorem getD_fuse {s u : State} {o : Option State} (ho : ∀ t, o = some t → t.fuse = s.fuse) (hu : u.fuse = s.fuse) :
    (o.getD u).fuse = s.fuse := by
  cases o with
  | none => exact hu
  | some t => exact ho t rfl

/-- An outcome that is a next state has the fuse map of the state before. -/
def KeepsFuse (s : State) (o : Host.Outcome State Fault Refusal) : Prop := ∀ t, o = .next t → t.fuse = s.fuse

theorem KeepsFuse.next {s t : State} (h : t.fuse = s.fuse) : KeepsFuse s (.next t) := by
  rintro _ ⟨⟩
  exact h

theorem KeepsFuse.ite {s : State} {o o' : Host.Outcome State Fault Refusal} {c : Prop} [Decidable c] (h : KeepsFuse s o)
    (h' : KeepsFuse s o') : KeepsFuse s (if c then o else o') := by
  split
  · exact h
  · exact h'

theorem KeepsFuse.live {s : State} {o : Host.Outcome State Fault Refusal} (h : KeepsFuse s o) : KeepsFuse s (live s o) :=
  .ite (.next rfl) h

theorem KeepsFuse.fetched {s : State} {o : Host.Outcome State Fault Refusal} {n : Nat} {w : SlotWord} (h : KeepsFuse s o) :
    KeepsFuse s (fetched s n w o) :=
  .ite (.next rfl) h

/-! ### Cores, rings and commands (17, 18) -/

@[simp] theorem foldl_setCore_fuse {α : Type} (c : State → α → Nat) (k : State → α → Core) (l : List α) (s : State) :
    (l.foldl (fun s x => s.setCore (c s x) (k s x)) s).fuse = s.fuse := foldl_fuse (fun s x => s.setCore_fuse (c s x) (k s x)) l s

@[simp] theorem State.mapCores_fuse (s : State) (f : Nat → Core → Core) : (s.mapCores f).fuse = s.fuse := rfl

@[simp] theorem State.mapRegions_fuse (s : State) (f : Nat → Region → Region) : (s.mapRegions f).fuse = s.fuse := rfl

@[simp] theorem State.issue_fuse (s : State) (n : Nat) (f : State → Nat → Core → Core) : (s.issue n f).fuse = s.fuse := rfl

@[simp] theorem State.hostWrite_fuse (s : State) (a : Nat) (bs : List MByte) (o : Owner) : (s.hostWrite a bs o).fuse = s.fuse := by
  simp [State.hostWrite]

@[simp] theorem State.writeRecord_fuse (s : State) (e : Nat) (rec : List Byte) : (s.writeRecord e rec).fuse = s.fuse := by
  simp [State.writeRecord]

theorem State.post_fuse {s t : State} {e : Nat} {rec : List Byte} (h : s.post e rec = some t) : t.fuse = s.fuse := by
  simp only [State.post] at h
  split at h
  · cases h; simp
  · split at h <;> cases h; rfl

@[simp] theorem State.postEvent_fuse (s : State) (e kind source status : Nat) (detail : List Byte) :
    (s.postEvent e kind source status detail).fuse = s.fuse := by
  simp only [State.postEvent]
  split
  next h => exact (State.post_fuse h :)
  next => rfl

@[simp] theorem State.endCmd_fuse (s : State) (id : Nat) : (s.endCmd id).fuse = s.fuse := by
  unfold State.endCmd
  split
  · rfl
  · split <;> simp

theorem State.postWait_fuse {s t : State} {w : WaitRec} (h : s.postWait w = some t) : t.fuse = s.fuse := by
  simp only [State.postWait] at h
  split at h
  next hp => cases h; simp [State.post_fuse hp]
  next => cases h

@[simp] theorem flushList_fuse (l : List WaitRec) (s : State) : (flushList l s).fuse = s.fuse := by
  induction l generalizing s with
  | nil => rfl
  | cons w t ih =>
    unfold flushList
    split
    next h => rw [ih, State.postWait_fuse h]
    next => rw [ih]

@[simp] theorem State.flush_fuse (s : State) : s.flush.fuse = s.fuse := by simp [State.flush]

@[simp] theorem State.addWait_fuse (s : State) (w : WaitRec) : (s.addWait w).fuse = s.fuse := by simp [State.addWait]

@[simp] theorem drain_fuse (e n : Nat) (s : State) : (drain e n s).fuse = s.fuse := by
  induction n generalizing s with
  | zero => rfl
  | succ n ih =>
    simp only [drain]
    split
    · rfl
    · simp [ih]

@[simp] theorem State.drainRing_fuse (s : State) (e : Nat) : (s.drainRing e).fuse = s.fuse := by simp [State.drainRing]

@[simp] theorem State.recordVisible_fuse (s : State) (e : Nat) : (s.recordVisible e).fuse = s.fuse := by simp [State.recordVisible]

@[simp] theorem State.ringError_fuse (s : State) (r err : Nat) : (s.ringError r err).fuse = s.fuse := by simp [State.ringError]

@[simp] theorem State.tryPost_fuse (s : State) (id : Nat) : (s.tryPost id).fuse = s.fuse := by
  unfold State.tryPost
  split
  · split <;> simp
  · rfl

@[simp] theorem State.complete_fuse (s : State) (id : Nat) (found : List Nat) (detail : List Byte) :
    (s.complete id found detail).fuse = s.fuse := by simp [State.complete]

@[simp] theorem State.takeHead_fuse (s : State) (r : Nat) (d : Desc) : (s.takeHead r d).1.fuse = s.fuse := rfl

@[simp] theorem refuseReserved_fuse (n : Nat) (s : State) : (refuseReserved n s).fuse = s.fuse := by
  induction n generalizing s with
  | zero => rfl
  | succ n ih =>
    unfold refuseReserved
    split
    · rfl
    · split
      · rfl
      · simp [ih]

/-- A delivered command keeps the fuse map where its row's meaning does. -/
theorem State.deliver_fuse {f : State → Desc → Nat → State} (hf : ∀ s d id, (f s d id).fuse = s.fuse) (s : State) (r : Nat) (row : Row) :
    (s.deliver r row f).fuse = s.fuse := by
  simp only [State.deliver]
  split
  · simp [hf]
  · simp

@[simp] theorem State.block_fuse (s : State) (id : Nat) : (s.block id).fuse = s.fuse := by
  unfold State.block
  split <;> rfl

@[simp] theorem State.waitsMet_fuse (s : State) : s.waitsMet.fuse = s.fuse := by simp [State.waitsMet]

/-! ### Semaphores and the passing of time (09, 10, 16) -/

@[simp] theorem State.gsemChange_fuse (s : State) (idx : Nat) (amount : Int) : (s.gsemChange idx amount).fuse = s.fuse := by
  simp [State.gsemChange]

@[simp] theorem State.csemChange_fuse (s : State) (c idx : Nat) (amount : Int) : (s.csemChange c idx amount).fuse = s.fuse := rfl

@[simp] theorem State.gsemConsume_fuse (s : State) (idx amount : Nat) : (s.gsemConsume idx amount).fuse = s.fuse := by
  simp [State.gsemConsume]

@[simp] theorem State.runCore_fuse (s : State) (c : Nat) : (s.runCore c).fuse = s.fuse := by
  unfold State.runCore
  exact foldl_fuse (fun t (w : Nat × List MByte) => t.storeBytes_fuse w.1 w.2) _ _

@[simp] theorem State.noteEpisode_fuse (s : State) : s.noteEpisode.fuse = s.fuse := by
  unfold State.noteEpisode
  split <;> rfl

@[simp] theorem State.settleHold_fuse (s : State) : s.settleHold.fuse = s.fuse := by simp [State.settleHold]

@[simp] theorem State.announce_fuse (s : State) : s.announce.fuse = s.fuse := rfl

@[simp] theorem State.endEpisode_fuse (s : State) : s.endEpisode.fuse = s.fuse := by
  simp only [State.endEpisode]
  split
  · simp
  · rfl

@[simp] theorem State.noteFirst_fuse (s : State) : s.noteFirst.fuse = s.fuse := by
  unfold State.noteFirst
  split <;> rfl

@[simp] theorem State.stopIssue_fuse (s : State) : s.stopIssue.fuse = s.fuse := by simp [State.stopIssue]

@[simp] theorem State.instrParity_fuse (s : State) (n : Nat) : (s.instrParity n).fuse = s.fuse := by simp [State.instrParity]

@[simp] theorem State.noteBundle_fuse (s : State) (c : Nat) : (s.noteBundle c).fuse = s.fuse := by simp [State.noteBundle]

@[simp] theorem State.period_fuse (s : State) (bundle : Bool) (cs : List Nat) : (s.period bundle cs).fuse = s.fuse := by
  simp [State.period]

@[simp] theorem State.copyOld_fuse (s : State) : s.copyOld.fuse = s.fuse := by simp [State.copyOld]

@[simp] theorem State.passIdle_fuse (s : State) : s.passIdle.fuse = s.fuse := by simp [State.passIdle]

@[simp] theorem State.passClocks_fuse (s : State) : s.passClocks.fuse = s.fuse := by simp [State.passClocks]

@[simp] theorem State.noteCrossings_fuse (s before : State) : (s.noteCrossings before).fuse = s.fuse := by simp [State.noteCrossings]

@[simp] theorem State.pass_fuse (s : State) : s.pass.fuse = s.fuse := by simp [State.pass]

@[simp] theorem State.passes_fuse (n : Nat) (s : State) : (State.passes n s).fuse = s.fuse := by
  induction n generalizing s with
  | zero => rfl
  | succ n ih => simp [State.passes, ih]

@[simp] theorem State.endBundle_fuse (s : State) (n : Nat) : (s.endBundle n).fuse = s.fuse := by
  simp only [State.endBundle]
  split
  · rfl
  · split <;> simp

@[simp] theorem State.strike_fuse (n : Nat) (s : State) (h : Hit) : (State.strike n s h).fuse = s.fuse := by
  cases h <;> simp [State.strike]

@[simp] theorem State.strikes_fuse (s : State) (n : Nat) (hits : List Hit) : (s.strikes n hits).fuse = s.fuse := by
  simp [State.strikes]

@[simp] theorem State.slot_fuse (s : State) (n : Nat) (last : Bool) (f : State → Nat → Core → Core) : (s.slot n last f).fuse = s.fuse := by
  simp [State.slot]

/-! ### Churn and Griby ports (03, 15) -/

@[simp] theorem State.landUnit_fuse (s : State) (c unit : Nat) (forNext : Bool) (u : UnitData) (cond : Nat) :
    (s.landUnit c unit forNext u cond).fuse = s.fuse := rfl

theorem State.landBroken_fuse {s s' : State} {core unit : Nat} {forNext : Bool} {t : Table}
    (h : s.landBroken core unit forNext t = some s') : s'.fuse = s.fuse := by
  simp only [State.landBroken] at h
  split at h
  · cases h; rfl
  · split at h <;> cases h
    rfl

@[simp] theorem State.landDue_fuse (s : State) (c : Nat) : (s.landDue c).fuse = s.fuse := by
  unfold State.landDue
  split
  · split
    · rfl
    · exact getD_fuse (fun _ => State.landBroken_fuse) rfl
  · rfl

@[simp] theorem State.putDelivery_fuse (s : State) (n c : Nat) (d : Option (Table × RetUnit)) : (s.putDelivery n c d).fuse = s.fuse := by
  unfold State.putDelivery
  split <;> rfl

theorem execStepChurn_keepsFuse (n : Nat) (last retStart : Bool) (rt late : Nat) (hits : List Hit) (s : State) :
    KeepsFuse s (execStepChurn n last retStart rt late hits s) := by
  refine .fetched ?_
  extract_lets cs s0 res s1 s2 s3 live lo s4 s5
  have h0 : s0.fuse = s.fuse := by simp [s0]
  have h3 : s3.fuse = s.fuse := by simp [s3, s2, s1, h0]
  have h5 : s5.fuse = s.fuse := by simp [s5, s4, h3]
  exact .ite (.next (by simp [h0])) (.next (by simp [h5]))

theorem execDeliverySignal_keepsFuse (core id : Nat) (s : State) : KeepsFuse s (execDeliverySignal core id s) := by
  refine .live (.next ?_)
  split
  · split
    · split <;> simp
    · rfl
  · rfl

@[simp] theorem State.sendSlot_fuse (s : State) (n : Nat) (sl : GSlot) (p : Port) : (s.sendSlot n sl p).fuse = s.fuse := by
  unfold State.sendSlot
  exact foldl_fuse (fun t i => t.emit_fuse (.item n i)) _ _

@[simp] theorem pump_fuse (n k : Nat) (s : State) : (pump n k s).fuse = s.fuse := by
  induction k generalizing s with
  | zero => rfl
  | succ k ih =>
    simp only [pump]
    split
    · split
      · simp [ih]
      · rfl
    · rfl

@[simp] theorem State.pumpPort_fuse (s : State) (n : Nat) : (s.pumpPort n).fuse = s.fuse := pump_fuse n 64 s

@[simp] theorem State.sendItem_fuse (s : State) (n : Nat) (i : LaneItem) : (s.sendItem n i).fuse = s.fuse := by simp [State.sendItem]

@[simp] theorem State.sendOn_fuse (s : State) (n : Nat) (m : Msg) : (s.sendOn n m).fuse = s.fuse := by simp [State.sendOn]

theorem State.sendMsg_fuse {s t : State} {flow : Nat} {m : Msg} (h : s.sendMsg flow m = some t) : t.fuse = s.fuse := by
  obtain ⟨n, -, rfl⟩ := Option.map_eq_some_iff.1 h
  exact s.sendOn_fuse n m

/-! ### Remote semaphores of the cores, memory controllers (10, 12) -/

@[simp] theorem State.runOutcome_fuse (s : State) (c o : Nat) : (s.runOutcome c o).fuse = s.fuse := by simp [State.runOutcome]

@[simp] theorem State.remoteIssue_fuse (s : State) (o : RemoteBy) (w : W64) (glob : Bool) (idx : Nat) (amount : Int) :
    (s.remoteIssue o w glob idx amount).1.fuse = s.fuse := by
  simp only [State.remoteIssue]
  split
  · rfl
  · split
    next h => exact (State.sendMsg_fuse h :)
    next => rfl

@[simp] theorem State.remoteCore_fuse (n sa sb idx : Nat) (glob sub : Bool) (s : State) (c : Nat) :
    (State.remoteCore n sa sb idx glob sub s c).fuse = s.fuse := by
  simp [State.remoteCore]

@[simp] theorem State.remoteSlot_fuse (s : State) (n : Nat) (last glob : Bool) (idx sa sb : Nat) (sub : Bool) :
    (s.remoteSlot n last glob idx sa sb sub).fuse = s.fuse := by
  simp [State.remoteSlot]

theorem execSemrd_keepsFuse (n : Nat) (last glob : Bool) (idx sd : Nat) (s : State) : KeepsFuse s (execSemrd n last glob idx sd s) := by
  refine .fetched ?_
  split <;> exact .next (by simp)

theorem execLdi_keepsFuse (n : Nat) (last : Bool) (q sa : Nat) (hits : List Hit) (s : State) :
    KeepsFuse s (execLdi n last q sa hits s) := by
  refine .fetched ?_
  extract_lets s1 any s2 s3
  have h1 : s1.fuse = s.fuse := by simp [s1]
  have h3 : s3.fuse = s.fuse := by simp [s3, s2, h1]
  exact .ite (.next (by simp [h1])) (.next (by simp [h3]))

@[simp] theorem State.memEvent_fuse (s : State) (u status a : Nat) : (s.memEvent u status a).fuse = s.fuse := by simp [State.memEvent]

@[simp] theorem State.wordRead_fuse (s : State) (w : Nat) : (s.wordRead w).fuse = s.fuse := by
  simp only [State.wordRead]
  split
  · rfl
  · split <;> simp
  · simp
  · simp

@[simp] theorem State.upsetOne_fuse (s : State) (e : Nat × Nat) : (s.upsetOne e).fuse = s.fuse := by simp [State.upsetOne]

@[simp] theorem State.upset_fuse (s : State) (l : List (Nat × Nat)) : (s.upset l).fuse = s.fuse := by simp [State.upset]

@[simp] theorem State.noteRead_fuse (s : State) (a n : Nat) : (s.noteRead a n).fuse = s.fuse := by simp [State.noteRead]

@[simp] theorem State.wordPoisoned_fuse (s : State) (w : Nat) : (s.wordPoisoned w).fuse = s.fuse := by simp [State.wordPoisoned]

@[simp] theorem State.noteWrite_fuse (s : State) (a : Nat) (bs : List MByte) : (s.noteWrite a bs).fuse = s.fuse := by
  simp [State.noteWrite]

@[simp] theorem State.readStruct_fuse (s : State) (a n : Nat) : (s.readStruct a n).2.2.fuse = s.fuse := s.noteRead_fuse a n

/-! ### Ladle transfers (07, 08) -/

@[simp] theorem State.setQueue_fuse (s : State) (c q : Nat) (l : LadleQ) : (s.setQueue c q l).fuse = s.fuse := rfl

@[simp] theorem State.putTransfer_fuse (s : State) (c q : Nat) (t : Transfer) : (s.putTransfer c q t).fuse = s.fuse := rfl

@[simp] theorem State.batchDone_fuse (s : State) (cmd b : Nat) : (s.batchDone cmd b).fuse = s.fuse := rfl

@[simp] theorem State.issuerNote_fuse (s : State) (c : Nat) (t : Transfer) (bit : Option Nat) (found : List Nat) :
    (s.issuerNote c t bit found).fuse = s.fuse := by
  unfold State.issuerNote
  split
  · split <;> rfl
  · simp
  · simp
  · rfl

@[simp] theorem State.refuseTransfer_fuse (s : State) (c q kind : Nat) (t : Transfer) : (s.refuseTransfer c q kind t).fuse = s.fuse := by
  simp [State.refuseTransfer]

@[simp] theorem State.cvStart_fuse (s : State) (c q : Nat) (t : Transfer) : (s.cvStart c q t).fuse = s.fuse := by
  unfold State.cvStart
  refine foldl_fuse (fun s n => ?_) _ s
  dsimp only
  split <;> rfl

@[simp] theorem State.cvWrite_fuse (s : State) (n : Nat) (x : Snoop) (value : Nat) : (s.cvWrite n x value).fuse = s.fuse := by
  simp only [State.cvWrite]
  split
  · simp
  · rfl

@[simp] theorem cvRun_fuse (n k : Nat) (s : State) : (cvRun n k s).fuse = s.fuse := by
  induction k generalizing s with
  | zero => rfl
  | succ k ih =>
    simp only [cvRun]
    split
    · rfl
    · split <;> simp [ih]

@[simp] theorem State.cvAbsorb_fuse (s : State) (c q id p : Nat) (bs : List MByte) : (s.cvAbsorb c q id p bs).fuse = s.fuse := by
  unfold State.cvAbsorb
  refine foldl_fuse (fun s n => ?_) _ s
  split <;> simp

@[simp] theorem State.dropTransfer_fuse (s : State) (c q id : Nat) : (s.dropTransfer c q id).fuse = s.fuse := by
  simp [State.dropTransfer]

@[simp] theorem State.endTransfer_fuse (s : State) (c q : Nat) (t : Transfer) (o : Nat) : (s.endTransfer c q t o).fuse = s.fuse := by
  simp [State.endTransfer]

@[simp] theorem State.meshError_fuse (s : State) (header : Bool) (router k : Nat) : (s.meshError header router k).fuse = s.fuse := rfl

theorem State.discarded_fuse {s t : State} {hdr : Option Nat} (h : s.discarded hdr = some t) : t.fuse = s.fuse := by
  obtain ⟨r, -, rfl⟩ := Option.map_eq_some_iff.1 h
  rfl

@[simp] theorem State.payload_fuse (s : State) (bs : List MByte) (bad : List Nat) (router : Nat) :
    (s.payload bs bad router).1.fuse = s.fuse := by
  simp only [State.payload]
  split <;> rfl

@[simp] theorem State.modInj_fuse (s : State) (c unit : Nat) (forNext : Bool) (f : InjUnit → InjUnit) :
    (s.modInj c unit forNext f).fuse = s.fuse := rfl

@[simp] theorem State.injRead_fuse (s : State) (c : Nat) (i : InjUnit) (t : Table) (upset : List (Nat × Nat)) (hdr : Option Nat) :
    (s.injRead c i t upset hdr).fuse = s.fuse := by
  unfold State.injRead
  split
  next h => exact State.landBroken_fuse h
  next =>
    split
    next h => simp [State.discarded_fuse h]
    next => simp

@[simp] theorem State.pieceRead_fuse (s : State) (c q : Nat) (t : Transfer) (upset : List (Nat × Nat)) (hdr : Option Nat) :
    (s.pieceRead c q t upset hdr).fuse = s.fuse := by
  simp only [State.pieceRead]
  split
  next h => simp [State.discarded_fuse h]
  next => simp

theorem State.peerWrite_fuse {s t : State} {flow peer addr : Nat} {bs : List MByte} {o : Owner}
    (h : s.peerWrite flow peer addr bs o = some t) : t.fuse = s.fuse := by
  simp only [State.peerWrite] at h
  split at h
  next hm => cases h; exact (State.sendMsg_fuse hm :)
  next => cases h

@[simp] theorem State.flushMsg_fuse (s : State) (c q : Nat) (t : Transfer) : (s.flushMsg c q t).1.fuse = s.fuse := by
  unfold State.flushMsg
  split
  · split
    next h => exact State.peerWrite_fuse h
    next => rfl
  · rfl

@[simp] theorem State.addRun_fuse (s : State) (c q a : Nat) (t : Transfer) (bs : List MByte) : (s.addRun c q a t bs).1.fuse = s.fuse := by
  simp only [State.addRun]
  split
  · split <;> simp
  · rfl

@[simp] theorem State.peerPiece_fuse (s : State) (c q : Nat) (t : Transfer) (dst : Nat) (bs : List MByte) :
    (s.peerPiece c q t dst bs).fuse = s.fuse := by
  simp only [State.peerPiece]
  split
  · rfl
  · split
    · split <;> simp
    · split <;> simp

@[simp] theorem State.addParity_fuse (s : State) (o : Owner) (bad : Bool) : (s.addParity o bad).fuse = s.fuse := by
  unfold State.addParity
  split
  · split <;> rfl
  · rfl

@[simp] theorem State.storeOutcome_fuse (s : State) (o : Owner) (out : Nat) : (s.storeOutcome o out).fuse = s.fuse := by
  unfold State.storeOutcome
  split
  · simp only
    split <;> simp
  · rfl

@[simp] theorem State.storeToPeer_fuse (s : State) (o : Owner) (a : Nat) (bs : List MByte) : (s.storeToPeer o a bs).fuse = s.fuse := by
  unfold State.storeToPeer
  split
  · split
    · split
      · rfl
      · split
        · exact getD_fuse (fun _ => State.peerWrite_fuse) (s.storeOutcome_fuse _ 4)
        · simp
    · rfl
  · rfl

@[simp] theorem State.forwarded_fuse (s : State) (n : Nat) (m : Msg) : (s.forwarded n m).fuse = s.fuse := by simp [State.forwarded]

@[simp] theorem State.answer_fuse (s : State) (m : Msg) (outcome : Nat) : (s.answer m outcome).fuse = s.fuse := by
  unfold State.answer
  split
  next h => exact (State.sendMsg_fuse h :)
  next => rfl

@[simp] theorem State.messageAcked_fuse (s : State) (id : Nat) : (s.messageAcked id).fuse = s.fuse := by
  unfold State.messageAcked
  split
  · simp
  · rfl

@[simp] theorem State.acked_fuse (s : State) (o : Owner) : (s.acked o).fuse = s.fuse := by
  cases o <;> simp only [State.acked]
  case transfer => split <;> rfl
  case store => split <;> rfl
  case cmd => simp
  case record => simp
  case message => simp
  all_goals rfl

@[simp] theorem State.writeEnds_fuse (s : State) (tag o : Nat) : (s.writeEnds tag o).fuse = s.fuse := by
  simp only [State.writeEnds]
  split
  · rfl
  · split
    · simp
    · split
      · split <;> simp
      · simp

@[simp] theorem State.signalSem_fuse (s : State) (glob : Bool) (c idx amount : Nat) : (s.signalSem glob c idx amount).fuse = s.fuse := by
  simp [State.signalSem]

theorem execLadleTransferStart_keepsFuse (core q : Nat) (s : State) : KeepsFuse s (execLadleTransferStart core q s) := by
  refine .live (.next ?_)
  split
  · rfl
  · simp

theorem execReadRequest_keepsFuse (core q id : Nat) (upset : List (Nat × Nat)) (hdr : Option Nat) (s : State) :
    KeepsFuse s (execReadRequest core q id upset hdr s) := by
  refine .live (.next ?_)
  split
  · rfl
  · dsimp only
    split
    · split
      · split <;> simp
      · rfl
    · split <;> simp

theorem execReadResponse_keepsFuse (id : Nat) (bad : List Nat) (router : Nat) (hdr : Bool) (s : State) :
    KeepsFuse s (execReadResponse id bad router hdr s) := by
  refine .live (.next ?_)
  split
  · dsimp only
    split
    · rfl
    · split
      · rfl
      · split
        · simp
        · split
          · simp
          · simp
  · rfl

theorem execWritePacket_keepsFuse (id : Nat) (bad : List Nat) (router : Nat) (hdr : Bool) (s : State) :
    KeepsFuse s (execWritePacket id bad router hdr s) := by
  refine .live (.next ?_)
  split
  · simp
  · simp
  · rfl

theorem execWriteAcknowledgement_keepsFuse (x : Arrival) (s : State) : KeepsFuse s (execWriteAcknowledgement x s) := by
  refine .live (.next ?_)
  split
  · dsimp only
    split
    · rfl
    · exact getD_fuse (fun _ h => (State.discarded_fuse h :)) (State.acked_fuse _ _)
  · split
    · split
      · rfl
      · split
        next h => exact (State.discarded_fuse h :)
        next => exact State.acked_fuse _ _
    · rfl

theorem execLadleSignal_keepsFuse (core q id : Nat) (s : State) : KeepsFuse s (execLadleSignal core q id s) := by
  refine .live (.next ?_)
  split
  · rfl
  · simp

/-! ### Rings (17) -/

@[simp] theorem State.hostStores_fuse (s : State) (l : List Host.Cell) : (s.hostStores l).fuse = s.fuse := rfl

theorem execDoorbell_keepsFuse (r value : Nat) (host : List Host.Cell) (s : State) : KeepsFuse s (execDoorbell r value host s) :=
  .live (.next (by simp))

@[simp] theorem State.writeCringCtl_fuse (s : State) (r v : Nat) : (s.writeCringCtl r v).fuse = s.fuse := by simp [State.writeCringCtl]

theorem execEventRingEnable_keepsFuse (e value : Nat) (s : State) : KeepsFuse s (execEventRingEnable e value s) := .live (.next (by simp))

theorem execEventRingHeadWrite_keepsFuse (e value : Nat) (s : State) : KeepsFuse s (execEventRingHeadWrite e value s) :=
  .live (.next (by simp))

theorem execArmed_keepsFuse (e value : Nat) (s : State) : KeepsFuse s (execArmed e value s) := .live (.next (by simp))

/-! ### Clocks (16) -/

theorem execReferenceSwitch_keepsFuse (value : Nat) (s : State) : KeepsFuse s (execReferenceSwitch value s) := .live (.next (by simp))

theorem execClkEnCrm_keepsFuse (value : Nat) (s : State) : KeepsFuse s (execClkEnCrm value s) := .live (.next (by simp))

theorem execClkEnGrb_keepsFuse (value : Nat) (s : State) : KeepsFuse s (execClkEnGrb value s) := .live (.next (by simp))

theorem execClkEnMisc_keepsFuse (value : Nat) (s : State) : KeepsFuse s (execClkEnMisc value s) := .live (.next (by simp))

theorem execCfgBusChange_keepsFuse (value : Nat) (s : State) : KeepsFuse s (execCfgBusChange value s) := .live (.next (by simp))

@[simp] theorem State.acceptChange_fuse (s : State) (step cfg n : Nat) (hw : Bool) : (s.acceptChange step cfg n hw).fuse = s.fuse := rfl

theorem execSynchronisedChangeRequest_keepsFuse (value : Nat) (s : State) : KeepsFuse s (execSynchronisedChangeRequest value s) := by
  refine .live (.next ?_)
  split
  · rfl
  · dsimp only
    split <;> rfl

@[simp] theorem State.deviceChange_fuse (s : State) (step : Nat) : (s.deviceChange step).fuse = s.fuse := by
  unfold State.deviceChange
  split
  · rfl
  · split
    · simp
    · rfl

theorem execLockCheck_keepsFuse (s : State) : KeepsFuse s (execLockCheck s) := by
  refine .live (.next ?_)
  split
  · simp
  · rfl

theorem execChangeHold_keepsFuse (s : State) : KeepsFuse s (execChangeHold s) := by
  refine .live (.next ?_)
  split
  · simp
  · rfl

theorem execClockSwitch_keepsFuse (s : State) : KeepsFuse s (execClockSwitch s) := by
  refine .live (.next ?_)
  split
  · simp
  · rfl

theorem execStoppedChangeRequest_keepsFuse (value : Nat) (s : State) : KeepsFuse s (execStoppedChangeRequest value s) :=
  .live (.next (by simp))

theorem execHoldCounterClear_keepsFuse (value : Nat) (s : State) : KeepsFuse s (execHoldCounterClear value s) := .live (.next (by simp))

@[simp] theorem State.gaugeRegion_fuse (drifts temps : List Nat) (s : State) (r : Nat) :
    (State.gaugeRegion drifts temps s r).fuse = s.fuse := by simp [State.gaugeRegion]

@[simp] theorem State.gaugeSample_fuse (s : State) (drifts temps : List Nat) : (s.gaugeSample drifts temps).fuse = s.fuse := by
  simp [State.gaugeSample]

/-! ### Commands of the host, remote semaphore operations (10, 18) -/

theorem execLadleCopy_keepsFuse (r : Nat) (s : State) : KeepsFuse s (execLadleCopy r s) := by
  refine .live (.next ?_)
  split
  · rfl
  · refine State.deliver_fuse (fun s d id => ?_) s r _
    simp

theorem execSemaphoreWait_keepsFuse (r : Nat) (s : State) : KeepsFuse s (execSemaphoreWait r s) := by
  refine .live (.next (State.deliver_fuse (fun s d id => ?_) s r _))
  split <;> simp

@[simp] theorem State.semCommand_fuse (s : State) (sub : Bool) (d : Desc) (id : Nat) : (s.semCommand sub d id).fuse = s.fuse := by
  unfold State.semCommand
  split
  · simp
  · simp

theorem execSemaphoreAdd_keepsFuse (r : Nat) (s : State) : KeepsFuse s (execSemaphoreAdd r s) := by
  refine .live (.next ?_)
  split
  · rfl
  · exact State.deliver_fuse (fun s => s.semCommand_fuse false) s r _

theorem execSemaphoreSubtract_keepsFuse (r : Nat) (s : State) : KeepsFuse s (execSemaphoreSubtract r s) := by
  refine .live (.next ?_)
  split
  · rfl
  · exact State.deliver_fuse (fun s => s.semCommand_fuse true) s r _

theorem execFenceRelease_keepsFuse (r : Nat) (s : State) : KeepsFuse s (execFenceRelease r s) := by
  refine .live (.next ?_)
  split
  · simp
  · rfl

@[simp] theorem State.remoteEnd_fuse (s : State) (op : RemoteOp) (o : Nat) : (s.remoteEnd op o).fuse = s.fuse := by
  simp only [State.remoteEnd]
  split
  · simp
  · simp
  · split <;> simp
  · simp

@[simp] theorem State.applyRemote_fuse (s : State) (core idx : Nat) (amount : Int) : (s.applyRemote core idx amount).1.fuse = s.fuse := by
  unfold State.applyRemote
  split
  · rfl
  · split
    · simp
    · split <;> simp

theorem execRemoteSemaphorePacket_keepsFuse (x : Arrival) (s : State) : KeepsFuse s (execRemoteSemaphorePacket x s) := by
  refine .live (.next ?_)
  split
  · dsimp only
    split
    · rfl
    · split
      next h => exact (State.discarded_fuse h :)
      next => split <;> simp
  · rfl

theorem execSemaphoreAcknowledgement_keepsFuse (x : Arrival) (s : State) : KeepsFuse s (execSemaphoreAcknowledgement x s) := by
  refine .live (.next ?_)
  split
  · split
    · split
      · rfl
      · split
        next h => exact (State.discarded_fuse h :)
        next => simp
    · rfl
  · rfl

theorem execRemoteOperationTimeout_keepsFuse (id : Nat) (s : State) : KeepsFuse s (execRemoteOperationTimeout id s) := by
  refine .live (.next ?_)
  split
  · simp
  · split <;> simp

/-! ### Press jobs (14) -/

@[simp] theorem State.pressCount_fuse (s : State) (c k : Nat) : (s.pressCount c k).fuse = s.fuse := rfl

@[simp] theorem State.pressErr_fuse (s : State) (b : Nat) : (s.pressErr b).fuse = s.fuse := rfl

@[simp] theorem State.modJob_fuse (s : State) (cmd : Nat) (f : PressJob → PressJob) : (s.modJob cmd f).fuse = s.fuse := rfl

@[simp] theorem State.pressRead_fuse (s : State) (j : PressJob) (b : Nat) : (s.pressRead j b).2.2.fuse = s.fuse := by
  simp [State.pressRead]

@[simp] theorem State.pressCtl_fuse (s : State) (peer chunk tag addr arg : Nat) (body : List MByte) :
    (s.pressCtl peer chunk tag addr arg body).fuse = s.fuse :=
  getD_fuse (fun _ => State.sendMsg_fuse) rfl

@[simp] theorem State.pressUndefined_fuse (s : State) (j : PressJob) : (s.pressUndefined j).fuse = s.fuse := by
  unfold State.pressUndefined
  exact foldl_fuse (fun t (b : Nat) => t.storeBytes_fuse (j.dst + b * _) _) _ _

@[simp] theorem State.pressEnd_fuse (s : State) (j : PressJob) (pos cause : Nat) (heard : Bool) :
    (s.pressEnd j pos cause heard).fuse = s.fuse := by simp [State.pressEnd]

@[simp] theorem State.pressGroupFailed_fuse (s : State) (g : Nat) : (s.pressGroupFailed g).fuse = s.fuse := by
  simp [State.pressGroupFailed]

@[simp] theorem State.pressFail_fuse (s : State) (cmd cause : Nat) : (s.pressFail cmd cause).fuse = s.fuse := by
  unfold State.pressFail
  split
  · rfl
  · simp

@[simp] theorem State.pressTouch_fuse (s : State) (cmd : Nat) : (s.pressTouch cmd).fuse = s.fuse := rfl

theorem State.pressLeave_fuse {s t : State} {m : Msg} (h : s.pressLeave m = some t) : t.fuse = s.fuse := by
  obtain ⟨u, hu, rfl⟩ := Option.map_eq_some_iff.1 h
  exact (State.sendMsg_fuse hu :)

@[simp] theorem State.pressPut_fuse (s : State) (cmd : Nat) (m : Msg) : (s.pressPut cmd m).fuse = s.fuse := by
  have hleave : ((s.pressLeave m).getD s).fuse = s.fuse := getD_fuse (fun _ => State.pressLeave_fuse) rfl
  simp [State.pressPut, hleave]

@[simp] theorem State.pressSend_fuse (s : State) (j : PressJob) (lap b : Nat) (body : List Byte) (poison : Bool) :
    (s.pressSend j lap b body poison).fuse = s.fuse := by
  unfold State.pressSend
  exact State.pressPut_fuse _ _ _

@[simp] theorem State.pressGrant_fuse (s : State) (peer count : Nat) : (s.pressGrant peer count).fuse = s.fuse := by
  simp [State.pressGrant]

@[simp] theorem State.grantNeighbours_fuse (s : State) (ring : List Nat) (p self : Nat) : (s.grantNeighbours ring p self).fuse = s.fuse := by
  simp [State.grantNeighbours]

@[simp] theorem State.skimOwn_fuse (s : State) (j : PressJob) (b scale : Nat) (words : List W32) (total : Option PressRec) :
    (s.skimOwn j b scale words total).fuse = s.fuse := by
  unfold State.skimOwn
  split <;> rfl

@[simp] theorem State.skimChild_fuse (s : State) (cmd : Nat) (r : PressRec) : (s.skimChild cmd r).fuse = s.fuse := rfl

@[simp] theorem State.skimCompare_fuse (s : State) (j : PressJob) (a : SkimAcc) (t : PressRec) : (s.skimCompare j a t).fuse = s.fuse := by
  simp [State.skimCompare]

@[simp] theorem State.skimTry_fuse (s : State) (cmd b : Nat) : (s.skimTry cmd b).fuse = s.fuse := by
  unfold State.skimTry
  split
  · rfl
  · split
    · rfl
    · split
      · rfl
      · dsimp only
        split
        · simp
        · split
          next h => exact (State.sendMsg_fuse h :)
          next => simp

@[simp] theorem State.skimSweep_fuse (s : State) : s.skimSweep.fuse = s.fuse := rfl

@[simp] theorem State.pressResult_fuse (s : State) (j : PressJob) (r : PressRec) : (s.pressResult j r).fuse = s.fuse := rfl

@[simp] theorem State.lap3_fuse (s : State) (j : PressJob) (r : PressRec) : (s.lap3 j r).fuse = s.fuse := by
  simp [State.lap3]

@[simp] theorem State.lap2_fuse (s : State) (j : PressJob) (recv : Option PressRec) (b code : Nat) (poison par : Bool) :
    (s.lap2 j recv b code poison par).fuse = s.fuse := by
  unfold State.lap2
  extract_lets x s1 bad c total own r1 k ws h r2 s2 s3 s4
  have h1 : s1.fuse = s.fuse := by simp [s1, x]
  have h3 : s3.fuse = s.fuse := by simp [s3, s2, h1]
  have h4 : s4.fuse = s.fuse := by simp [s4, h3]
  simp [h1, h4]

@[simp] theorem State.lap1_fuse (s : State) (j : PressJob) (b code : Nat) (poison par : Bool) :
    (s.lap1 j b code poison par).fuse = s.fuse := by
  unfold State.lap1
  extract_lets x s1 code bad
  have h1 : s1.fuse = s.fuse := by simp [s1, x]
  simp [h1]

@[simp] theorem State.pressBegin_fuse (s : State) (j : PressJob) (c : Nat) : (s.pressBegin j c).fuse = s.fuse := by
  simp [State.pressBegin]

@[simp] theorem State.pressGo_fuse (s : State) (cmd : Nat) : (s.pressGo cmd).fuse = s.fuse := by
  unfold State.pressGo
  split
  · rfl
  · simp

@[simp] theorem State.pressStart_fuse (s : State) (cmd : Nat) : (s.pressStart cmd).fuse = s.fuse := by
  unfold State.pressStart
  split
  · rfl
  · simp

@[simp] theorem State.pressLinkFailed_fuse (s : State) (n : Nat) : (s.pressLinkFailed n).fuse = s.fuse := by
  simp [State.pressLinkFailed]

/-! ### Runs, contexts and binds (08, 11, 18) -/

@[simp] theorem State.startRun_fuse (s : State) (cmd entry pc n : Nat) (inj : Option Nat) (args : List W64) (early : Bool) :
    (s.startRun cmd entry pc n inj args early).fuse = s.fuse := by
  simp [State.startRun]

@[simp] theorem State.earlyAtDelivery_fuse (s : State) (n : Nat) : (s.earlyAtDelivery n).fuse = s.fuse := by
  unfold State.earlyAtDelivery
  split <;> rfl

theorem execRun_keepsFuse (r : Nat) (s : State) : KeepsFuse s (execRun r s) := by
  refine .live (.next (State.deliver_fuse (fun s d id => ?_) s r _))
  extract_lets count early s1 inj detail drop
  have hrefused : ((drop s1).complete id [1] detail).fuse = s.fuse := State.complete_fuse _ _ _ _
  split
  · exact hrefused
  · split
    · exact State.complete_fuse _ _ _ _
    · extract_lets entry tbl
      split
      · exact hrefused
      · rw [State.earlyAtDelivery_fuse, State.startRun_fuse]

@[simp] theorem State.cutRun_fuse (s : State) : s.cutRun.fuse = s.fuse := by
  unfold State.cutRun
  split
  · simp
  · rfl

@[simp] theorem State.beginContext_fuse (s : State) : s.beginContext.fuse = s.fuse := by
  simp only [State.beginContext]
  split <;> simp

@[simp] theorem State.clearContext_fuse (s : State) (reseed : Option W64) (bind : Bool) : (s.clearContext reseed bind).fuse = s.fuse := by
  simp [State.clearContext]

@[simp] theorem State.bindWrite_fuse (s : State) (id : Nat) (w : Nat × List MByte) : (s.bindWrite id w).fuse = s.fuse := by
  simp [State.bindWrite]

@[simp] theorem State.finishRun_fuse (s : State) : s.finishRun.fuse = s.fuse := by
  simp only [State.finishRun]
  split
  · simp
  · simp

theorem execRunCompletion_keepsFuse (s : State) : KeepsFuse s (execRunCompletion s) := by
  refine .live (.next ?_)
  split
  · rfl
  · simp

@[simp] theorem State.readAll_fuse (s : State) (l : List (Nat × Nat)) : (s.readAll l).1.fuse = s.fuse := by simp [State.readAll]

@[simp] theorem State.planBind_fuse (s : State) (d : Desc) (head : Bool) : (s.planBind d head).1.fuse = s.fuse := by
  unfold State.planBind
  split
  · rfl
  · dsimp only
    split
    · simp
    · split
      · simp
      · split
        · simp
        · split
          · simp
          · split
            · simp
            · split <;> simp

@[simp] theorem State.beginBind_fuse (s : State) (d : Desc) (id kind : Nat) (p : Plan2) : (s.beginBind d id kind p).fuse = s.fuse := by
  simp [State.beginBind]

theorem execBindProgram_keepsFuse (r : Nat) (s : State) : KeepsFuse s (execBindProgram r s) := by
  refine .live (.next ?_)
  split
  · rfl
  · refine State.deliver_fuse (fun s d id => ?_) s r _
    split
    · simp
    · dsimp only
      split <;> simp

theorem execRePlacement_keepsFuse (r : Nat) (s : State) : KeepsFuse s (execRePlacement r s) := by
  refine .live (.next ?_)
  split
  · rfl
  · refine State.deliver_fuse (fun s d id => ?_) s r _
    split
    · simp
    · dsimp only
      split <;> simp

theorem execPlacementAtBoundary_keepsFuse (s : State) : KeepsFuse s (execPlacementAtBoundary s) := by
  refine .live (.next ?_)
  split
  · split
    · rfl
    · dsimp only
      split <;> simp
  · rfl

theorem execContextStart_keepsFuse (s : State) : KeepsFuse s (execContextStart s) := by
  refine .live (.next ?_)
  split
  · rfl
  · simp

/-! ### Links and messages (15) -/

@[simp] theorem State.failPort_fuse (s : State) (n cause : Nat) : (s.failPort n cause).fuse = s.fuse := by simp [State.failPort]

@[simp] theorem State.portDown_fuse (s : State) (n : Nat) : (s.portDown n).fuse = s.fuse := by simp [State.portDown]

@[simp] theorem State.tryTrain_fuse (s : State) (n : Nat) : (s.tryTrain n).fuse = s.fuse := by simp [State.tryTrain]

@[simp] theorem State.portCtl_fuse (s : State) (n value : Nat) : (s.portCtl n value).fuse = s.fuse := by simp [State.portCtl]

theorem State.arrive_fuse {s t : State} {x : Rx} (h : s.arrive x = some t) : t.fuse = s.fuse := by
  simp only [State.arrive] at h
  split at h <;> cases h
  rfl

/-- What arrives keeps the fuse map where its meaning does. -/
theorem State.onArrival_fuse {f : State → State} (hf : ∀ s, (f s).fuse = s.fuse) (s : State) (x : Rx) :
    (s.onArrival x f).fuse = s.fuse := by
  unfold State.onArrival
  split
  next h => rw [hf, State.arrive_fuse h]
  next => rfl

theorem execNakItem_keepsFuse (x : Rx) (seq : Nat) (s : State) : KeepsFuse s (execNakItem x seq s) := by
  refine .live (.next (State.onArrival_fuse (fun s => ?_) s x))
  have hsent : ∀ (l : List (Nat × GSlot)) (u : State),
      (l.foldl (fun v e => v.emit (.slot x.port e.1 e.2.whey (e.2.bytes v.free e.1))) u).fuse = u.fuse :=
    fun l u => foldl_fuse (fun v e => v.emit_fuse _) l u
  simp [hsent]

@[simp] theorem State.gotSlots_fuse (s : State) (n : Nat) (whey : Bool) (slots : Nat) : (s.gotSlots n whey slots).fuse = s.fuse := by
  simp [State.gotSlots]

@[simp] theorem State.forward_fuse (s : State) (n : Nat) (m : Msg) : (s.forward n m).fuse = s.fuse := by
  simp only [State.forward]
  split
  · rfl
  · simp

@[simp] theorem State.carryOut_fuse (s : State) (m : Msg) : (s.carryOut m).fuse = s.fuse := rfl

theorem execWriteMsg_keepsFuse (x : Rx) (body : List Byte) (s : State) : KeepsFuse s (execWriteMsg x body s) := by
  refine .live (.next ?_)
  split
  · rfl
  · split
    · rfl
    · refine State.onArrival_fuse (fun s => ?_) s x
      dsimp only
      split
      · simp
      · split <;> simp

theorem execSemMsg_keepsFuse (x : Rx) (hops dst src incarn tag arg : Nat) (s : State) :
    KeepsFuse s (execSemMsg x hops dst src incarn tag arg s) := by
  refine .live (.next ?_)
  split
  · rfl
  · refine State.onArrival_fuse (fun s => ?_) s x
    dsimp only
    split
    · simp
    · split <;> simp

/-! ### Calibration, tests and the mesh (15, 19, 20) -/

@[simp] theorem State.afterTest_fuse (s : State) (t : LoopTest) : (s.afterTest t).fuse = s.fuse := by simp [State.afterTest]

@[simp] theorem State.endLoop_fuse (s : State) (t : LoopTest) (len : Nat) (back : List Byte) (lane : Nat) :
    (s.endLoop t len back lane).fuse = s.fuse := by
  simp only [State.endLoop]
  split <;> simp

@[simp] theorem State.calProgram_fuse (s : State) (c : Cmd) (bad : Option Nat) : (s.calProgram c bad).fuse = s.fuse := by
  simp only [State.calProgram]
  split
  · simp
  · split <;> simp

theorem execCalibrationTestOperationEnd_keepsFuse (bad : Option Nat) (back : List Byte) (lane : Nat) (drifts temps : List Nat) (s : State) :
    KeepsFuse s (execCalibrationTestOperationEnd bad back lane drifts temps s) := by
  refine .live (.next ?_)
  split
  · rfl
  · dsimp only
    split
    · simp
    · simp
    · split <;> simp
    · simp
    · rfl

theorem execReflect_keepsFuse (value : Nat) (s : State) : KeepsFuse s (execReflect value s) := .live (.next (by simp))

theorem execServiceRequest_keepsFuse (value : Nat) (s : State) : KeepsFuse s (execServiceRequest value s) := by
  refine .live (.next ?_)
  split
  · rfl
  · split <;> rfl

/-! ### Reset and start-up (19) -/

/-- A device reset clears the device, but its fuse map is the silicon's (R3, R591). -/
@[simp] theorem State.afterReset_fuse (s : State) : s.afterReset.fuse = s.fuse := rfl

theorem execDeviceReset_keepsFuse (s : State) : KeepsFuse s (execDeviceReset s) := .next s.afterReset_fuse

theorem execDeviceResetRequest_keepsFuse (value : Nat) (s : State) : KeepsFuse s (execDeviceResetRequest value s) :=
  .live (.next (by simp))

@[simp] theorem crossStep_fuse (cross : List (Nat × Nat)) (s : State) (p : Nat × Nat × Nat) : (crossStep cross s p).fuse = s.fuse := by
  simp [crossStep]

@[simp] theorem State.startFail_fuse (s : State) (code : Nat) : (s.startFail code).fuse = s.fuse := rfl

/-! ### Ingest jobs (13) -/

@[simp] theorem State.clipWrites_fuse (s : State) (e c : Nat) (ws : List (Nat × List Byte)) : (s.clipWrites e c ws).fuse = s.fuse := rfl

@[simp] theorem State.writeClip_fuse (s : State) (e : Nat) (p : Profile) (codec : Nat) (d : Desc) (filt : List Byte) (c pic : Nat)
    (frames : List OutPic) : (s.writeClip e p codec d filt c pic frames).fuse = s.fuse := by
  unfold State.writeClip
  exact (State.clipWrites_fuse _ _ _ _).trans (State.setEngine_fuse _ _ _)

@[simp] theorem State.dropClip_fuse (s : State) (e : Nat) : (s.dropClip e).fuse = s.fuse := rfl

@[simp] theorem runClips_fuse (p : Profile) (codec : Nat) (d : Desc) (filt : List Byte) (e : Nat) (pics : List OutPic) (n c : Nat) (s : State) :
    (runClips p codec d filt e pics n c s).1.fuse = s.fuse := by
  induction n generalizing c s with
  | zero => rfl
  | succ n ih =>
    unfold runClips
    extract_lets first frames s1
    have h1 : s1.fuse = s.fuse := by simp [s1]
    split
    · exact h1
    · rw [ih, h1]

@[simp] theorem State.passThrough_fuse (s : State) (e : Nat) (p : Profile) (pkts : List (List Byte)) :
    (s.passThrough e p pkts).fuse = s.fuse := by
  unfold State.passThrough
  exact (State.clipWrites_fuse _ _ _ _).trans (State.setEngine_fuse _ _ _)

@[simp] theorem State.staged_fuse (s : State) (p : Profile) (e : Nat) (bs : List MByte) : (s.staged p e bs).fuse = s.fuse := by
  unfold State.staged
  refine foldl_fuse (fun t i => ?_) _ s
  rw [State.noteRead_fuse, State.noteWrite_fuse]

@[simp] theorem State.runIngest_fuse (s : State) (e : Nat) (p : Profile) (d : Desc) (filt : List Byte) (par : Option Nat) (cut : Cut) :
    (s.runIngest e p d filt par cut).fuse = s.fuse := by
  unfold State.runIngest
  extract_lets a n all good poisoned pkts units codec dec pics span whole stop copied r g partly failed s1 s2 found early seen
  have hr : r.1.fuse = s.fuse := runClips_fuse p codec d filt e pics stop 0 s
  have hcopied : ∀ t k, (copied t k).fuse = t.fuse := fun t k => by simp [copied]
  have h1 : s1.fuse = s.fuse := by simp [s1, hr]
  have h2 : s2.fuse = s.fuse := by simp [s2, h1]
  split
  · simp [g, hcopied, hr]
  · simp [g, hcopied, h2]

theorem execIngestJobAssign_keepsFuse (par : Option Nat) (cut : Cut) (s : State) : KeepsFuse s (execIngestJobAssign par cut s) := by
  refine .live (.next ?_)
  split
  · split
    · rfl
    · simp
  · rfl

theorem execClipSignal_keepsFuse (e : Nat) (s : State) : KeepsFuse s (execClipSignal e s) := by
  refine .live (.next ?_)
  split
  · split
    · rfl
    · dsimp only
      split <;> simp
  · rfl

/-! ### Control flow of the core program (08) -/

theorem execIdleEnd_keepsFuse (n : Nat) (s : State) : KeepsFuse s (execIdleEnd n s) := .live (.next (State.passes_fuse _ _))

@[simp] theorem State.steer_fuse (s : State) (n : Nat) (last isLoop : Bool) (outc : Nat → Core → Nat) (act : Nat → Core → Core)
    (reads : List (Nat × Nat)) : (s.steer n last isLoop outc act reads).fuse = s.fuse := by
  unfold State.steer
  extract_lets cs mine before all differ pick now first s1 s2
  have h2 : s2.fuse = s.fuse := by simp [s2, s1]
  rw [State.slot_fuse, h2]

@[simp] theorem State.branchIf_fuse (s : State) (n : Nat) (last : Bool) (sa sb target : Nat) (p : W64 → W64 → Bool) :
    (s.branchIf n last sa sb target p).fuse = s.fuse := State.steer_fuse _ _ _ _ _ _ _

theorem execLoopCountExpiry_keepsFuse (n : Nat) (s : State) : KeepsFuse s (execLoopCountExpiry n s) :=
  .live (.next (State.noteFirst_fuse _))

theorem execEndProg_keepsFuse (n : Nat) (last : Bool) (s : State) : KeepsFuse s (execEndProg n last s) := by
  refine .fetched (.next ?_)
  simp

theorem execInjectedUnitLanded_keepsFuse (core unit : Nat) (forNext : Bool) (way : Way) (s : State) :
    KeepsFuse s (execInjectedUnitLanded core unit forNext way s) := by
  refine .live (.next ?_)
  split
  · have hbroken : ∀ t, ((s.landBroken core unit forNext t).getD s).fuse = s.fuse := fun _ => getD_fuse (fun _ => State.landBroken_fuse) rfl
    simp [hbroken]
  · rfl

/-! ### The Stirrer and the check-value units (13) -/

@[simp] theorem State.stirStart_fuse (s : State) (id : Nat) (d : Desc) : (s.stirStart id d).1.fuse = s.fuse := by
  simp only [State.stirStart]
  split
  · rfl
  · split
    · simp
    · split
      · simp
      · split
        · simp
        · split
          · simp
          · split <;> simp

@[simp] theorem stirNext_fuse (l : List Nat) (s : State) : (stirNext l s).fuse = s.fuse := by
  induction l generalizing s with
  | nil => rfl
  | cons id t ih =>
    unfold stirNext
    split
    · exact ih s
    next c _ =>
      have hstart := s.stirStart_fuse id c.desc
      split
      · rfl
      · split
        next h =>
          rw [ih, State.complete_fuse]
          simpa only [h] using hstart
        next h => simpa only [h] using hstart

theorem execStirrerCredit_keepsFuse (par : Bool) (s : State) : KeepsFuse s (execStirrerCredit par s) := by
  refine .live (.next ?_)
  split
  · rfl
  · split
    · rfl
    · simp

theorem execStirrerBatchFull_keepsFuse (b : Nat) (s : State) : KeepsFuse s (execStirrerBatchFull b s) := by
  refine .live (.next ?_)
  split
  · rfl
  · simp

@[simp] theorem State.writeCvCtl_fuse (s : State) (n x : Nat) : (s.writeCvCtl n x).fuse = s.fuse := by simp [State.writeCvCtl]

@[simp] theorem State.feed_fuse (s : State) (n k : Nat) (x : Fed) : (s.feed n k x).fuse = s.fuse := by simp [State.feed]

/-! ### Maintenance and host accesses to memory (12, 17) -/

@[simp] theorem State.afterQuiesce_fuse (s : State) : s.afterQuiesce.fuse = s.fuse := by simp [State.afterQuiesce]

theorem execQuiesce_keepsFuse (k value : Nat) (s : State) : KeepsFuse s (execQuiesce k value s) := .live (.next (by simp))

@[simp] theorem State.maintWrite_fuse (s : State) (value : Nat) : (s.maintWrite value).fuse = s.fuse := by
  unfold State.maintWrite
  split <;> rfl

@[simp] theorem State.maintGo_fuse (s : State) (cmd value : Nat) : (s.maintGo cmd value).fuse = s.fuse := by simp [State.maintGo]

@[simp] theorem State.rowLost_fuse (s : State) (words : List (Nat × Nat)) : (s.rowLost words).fuse = s.fuse :=
  foldl_fuse (by intros; rfl) _ s

@[simp] theorem State.useBanks_fuse (s : State) (a n : Nat) : (s.useBanks a n).fuse = s.fuse := by simp [State.useBanks]

@[simp] theorem State.hostWord_fuse (a : Nat) (data : List (Option MByte)) (s : State) (w : Nat) :
    (State.hostWord a data s w).fuse = s.fuse := by
  unfold State.hostWord
  extract_lets n s1 bad ws s2 s3 s4
  have h1 : s1.fuse = s.fuse := by simp [s1]
  have h3 : s3.fuse = s.fuse := by simp [s3, s2, h1]
  have h4 : s4.fuse = s.fuse := by simp [s4, h3]
  simp [h4]

@[simp] theorem State.hostPayload_fuse (s : State) (data : HostData) (way : Way) : (s.hostPayload data way).1.fuse = s.fuse := by
  simp [State.hostPayload]

theorem execStoreSignal_keepsFuse (core id : Nat) (s : State) : KeepsFuse s (execStoreSignal core id s) := by
  refine .live (.next ?_)
  split
  · simp
  · rfl

/-! ### Commands and messages of the Press (14) -/

theorem execPressJob_keepsFuse (x : PressHead) (s : State) : KeepsFuse s (execPressJob x s) := by
  refine .live (.next (State.deliver_fuse (fun s d id => ?_) s x.ring _))
  dsimp only
  split <;> simp

@[simp] theorem State.groupLoad_fuse (s : State) (c : Cmd) : (s.groupLoad c).fuse = s.fuse := by simp [State.groupLoad]

theorem execPressGroupTableLoad_keepsFuse (r : Nat) (s : State) : KeepsFuse s (execPressGroupTableLoad r s) := by
  refine .live (.next ?_)
  split
  · simp
  · refine State.deliver_fuse (fun s d id => ?_) s r _
    dsimp only
    split
    · simp
    · split
      · simp
      · split <;> simp

@[simp] theorem State.shardLoad_fuse (s : State) (c : Cmd) : (s.shardLoad c).fuse = s.fuse := by simp [State.shardLoad]

theorem execShardGroupTableLoad_keepsFuse (r : Nat) (s : State) : KeepsFuse s (execShardGroupTableLoad r s) := by
  refine .live (.next ?_)
  split
  · simp
  · refine State.deliver_fuse (fun s d id => ?_) s r _
    dsimp only
    split
    · simp
    · split
      · simp
      · split <;> simp

@[simp] theorem State.pressMismatch_fuse (s : State) (j : PressJob) (m : Msg) (cause : Nat) : (s.pressMismatch j m cause).fuse = s.fuse := by
  simp [State.pressMismatch]

@[simp] theorem State.pressReturn_fuse (s : State) (m : Msg) (block : Nat) : (s.pressReturn m block).fuse = s.fuse := by
  simp [State.pressReturn]

/-- A lap's message keeps the fuse map where its job's part does. -/
theorem State.pressIn_fuse {f : State → PressJob → Msg → State} (hf : ∀ s j m, (f s j m).fuse = s.fuse) (s : State) (x : Rx)
    (lap block : Nat) (body : List Byte) : (s.pressIn x lap block body f).fuse = s.fuse := by
  unfold State.pressIn
  split
  · rfl
  · dsimp only
    split
    · rfl
    · refine State.onArrival_fuse (fun s => ?_) s x
      split
      · simp
      · split
        · simp
        · split
          · split <;> simp [hf]
          · simp

theorem State.eachPart_fuse {f : State → PressJob → Nat → List Byte → State} (hf : ∀ s j b x, (f s j b x).fuse = s.fuse) (s : State)
    (j : PressJob) (l : List (Nat × List Byte)) : (s.eachPart j l f).fuse = s.fuse := by
  refine foldl_fuse (fun t x => ?_) l s
  split
  · exact hf _ _ _ _
  · rfl

theorem execScaleLapMessage_keepsFuse (x : Rx) (block : Nat) (body : List Byte) (par : Bool) (s : State) :
    KeepsFuse s (execScaleLapMessage x block body par s) :=
  .live (.next (State.pressIn_fuse (fun s j _ => State.eachPart_fuse (fun s j _ _ => s.lap1_fuse j _ _ _ _) s j _) s x 1 block body))

theorem execSumLapRecord_keepsFuse (x : Rx) (block : Nat) (body : List Byte) (par : Bool) (s : State) :
    KeepsFuse s (execSumLapRecord x block body par s) :=
  .live (.next (State.pressIn_fuse (fun s j _ => State.eachPart_fuse (fun s j _ _ => s.lap2_fuse j _ _ _ _ _) s j _) s x 2 block body))

theorem execResultLapRecord_keepsFuse (x : Rx) (block : Nat) (body : List Byte) (par : Bool) (s : State) :
    KeepsFuse s (execResultLapRecord x block body par s) := by
  refine .live (.next (State.pressIn_fuse (fun s j m => State.eachPart_fuse (fun s j b y => ?_) s j _) s x 3 block body))
  simp

/-- A control message keeps the fuse map where its meaning does. -/
theorem State.ctlIn_fuse {f : State → State} (hf : ∀ s, (f s).fuse = s.fuse) (s : State) (x : Rx) (op : Nat) (m : Msg) :
    (s.ctlIn x op m f).fuse = s.fuse := by
  unfold State.ctlIn
  split
  · rfl
  · refine State.onArrival_fuse (fun s => ?_) s x
    simp [hf]

@[simp] theorem pressDrain_fuse (peer n : Nat) (s : State) : (pressDrain peer n s).fuse = s.fuse := by
  induction n generalizing s with
  | zero => rfl
  | succ n ih =>
    unfold pressDrain
    dsimp only
    split
    · rfl
    · split
      · rfl
      · split
        · simp [ih]
        · rw [ih]
          exact getD_fuse (fun _ h => (State.pressLeave_fuse h :)) rfl

theorem execReturnMsg_keepsFuse (x : Rx) (hops dst src incarn tag addr arg : Nat) (body : List Byte) (s : State) :
    KeepsFuse s (execReturnMsg x hops dst src incarn tag addr arg body s) := by
  refine .live (.next (State.ctlIn_fuse (fun s => ?_) s x 3 _))
  split <;> rfl

theorem execSkimMsg_keepsFuse (x : Rx) (hops dst src incarn tag addr arg : Nat) (body : List Byte) (s : State) :
    KeepsFuse s (execSkimMsg x hops dst src incarn tag addr arg body s) := by
  refine .live (.next (State.ctlIn_fuse (fun s => ?_) s x 4 _))
  split
  · rfl
  · simp

theorem execPressResend_keepsFuse (cmd : Nat) (s : State) : KeepsFuse s (execPressResend cmd s) := by
  refine .live (.next ?_)
  split
  · split <;> simp
  · rfl

theorem execPressTimeout_keepsFuse (cmd : Nat) (s : State) : KeepsFuse s (execPressTimeout cmd s) := by
  refine .live (.next ?_)
  split
  · simp
  · rfl

theorem execPressJobComplete_keepsFuse (cmd : Nat) (s : State) : KeepsFuse s (execPressJobComplete cmd s) := by
  refine .live (.next ?_)
  split
  · split
    · rfl
    · dsimp only
      split <;> simp
  · rfl

theorem execAckMsg_keepsFuse (x : Rx) (hops dst src incarn tag arg : Nat) (s : State) :
    KeepsFuse s (execAckMsg x hops dst src incarn tag arg s) := by
  refine .live (.next (State.onArrival_fuse (fun s => ?_) s x))
  dsimp only
  split
  · simp
  · split
    · simp
    · split
      · simp
      · split <;> simp

/-! ### Security, management, test port (21) -/

@[simp] theorem State.secStart_fuse (s : State) : s.secStart.fuse = s.fuse := by
  unfold State.secStart
  split
  · split <;> rfl
  · rfl

@[simp] theorem State.attGo_fuse (s : State) : s.attGo.fuse = s.fuse := by simp [State.attGo]

@[simp] theorem State.bootGo_fuse (s : State) : s.bootGo.fuse = s.fuse := by simp [State.bootGo]

@[simp] theorem State.writeSecCtl_fuse (s : State) (v : Nat) : (s.writeSecCtl v).fuse = s.fuse := by simp [State.writeSecCtl]

@[simp] theorem State.secNext_fuse (s : State) : s.secNext.fuse = s.fuse := by simp [State.secNext]

theorem execAttestationDone_keepsFuse (err : Bool) (s : State) : KeepsFuse s (execAttestationDone err s) := by
  refine .live (.next ?_)
  split
  · simp
  · rfl

theorem execBootCheckEnd_keepsFuse (err : Bool) (s : State) : KeepsFuse s (execBootCheckEnd err s) := by
  refine .live (.next ?_)
  split
  · simp
  · rfl

@[simp] theorem State.mgmtNext_fuse (s : State) : s.mgmtNext.1.fuse = s.fuse := rfl

@[simp] theorem mgmtReadGo_fuse (n : Nat) (s : State) (l : List Byte) : (mgmtReadGo n s l).1.fuse = s.fuse := by
  induction n generalizing s l with
  | zero => rfl
  | succ n ih => rw [mgmtReadGo, ih, State.mgmtNext_fuse]

@[simp] theorem State.jtagInstr_fuse (s : State) (i : Nat) (drives : Bool) : (s.jtagInstr i drives).fuse = s.fuse := rfl

/-! ### Registers (22) -/

/-- A register write that a command's meaning carries out keeps the fuse map where the command does. -/
theorem via_fuse {s : State} {f : State → Host.Outcome State Fault Refusal} (h : KeepsFuse s (f s)) : (via s f).fuse = s.fuse := by
  unfold via
  split
  next ht => exact h _ ht
  next => rfl

@[simp] theorem State.putUci_fuse (s : State) (o v : Nat) : (s.putUci o v).fuse = s.fuse := by
  unfold State.putUci
  dsimp only
  split
  · exact via_fuse (execDeviceResetRequest_keepsFuse v s)
  · split
    · split <;> simp
    · split
      · split
        · simp
        · exact via_fuse (execEventRingEnable_keepsFuse _ v s)
        · exact via_fuse (execEventRingHeadWrite_keepsFuse _ v s)
        · exact via_fuse (execArmed_keepsFuse _ v s)
        · rfl
      · split
        · exact via_fuse (execDoorbell_keepsFuse _ v [] s)
        · rfl

@[simp] theorem State.putClk_fuse (s : State) (o v : Nat) : (s.putClk o v).fuse = s.fuse := by
  unfold State.putClk
  dsimp only
  split
  · rfl
  · split
    · exact via_fuse (execReferenceSwitch_keepsFuse v s)
    · exact via_fuse (execCfgBusChange_keepsFuse v s)
    · split
      · exact via_fuse (execSynchronisedChangeRequest_keepsFuse v s)
      · rfl
    · simp
    · rfl
    · split
      · exact via_fuse (execStoppedChangeRequest_keepsFuse v s)
      · rfl
    · exact via_fuse (execClkEnCrm_keepsFuse v s)
    · exact via_fuse (execClkEnGrb_keepsFuse v s)
    · exact via_fuse (execClkEnMisc_keepsFuse v s)
    · split
      · exact via_fuse (execHoldCounterClear_keepsFuse v s)
      · rfl
    · rfl

@[simp] theorem State.putLadleQ_fuse (s : State) (c n v : Nat) : (s.putLadleQ c n v).fuse = s.fuse := by simp [State.putLadleQ]

@[simp] theorem State.putCore_fuse (s : State) (c o v : Nat) : (s.putCore c o v).fuse = s.fuse := by
  simp only [State.putCore]
  split
  · simp
  · split <;> simp

@[simp] theorem State.putMem_fuse (s : State) (o v : Nat) : (s.putMem o v).fuse = s.fuse := by
  simp only [State.putMem]
  split
  · have hquiesce := via_fuse (execQuiesce_keepsFuse (o / 0x1000) v s)
    simp [hquiesce]
  · split <;> simp

@[simp] theorem State.setGrbCtl_fuse (s : State) (v : Nat) : (s.setGrbCtl v).fuse = s.fuse := rfl

@[simp] theorem State.putGrb_fuse (s : State) (o v : Nat) : (s.putGrb o v).fuse = s.fuse := by simp [State.putGrb]

@[simp] theorem State.putCrm_fuse (s : State) (o v : Nat) : (s.putCrm o v).fuse = s.fuse := by
  simp only [State.putCrm]
  split
  · split <;> simp
  · simp

@[simp] theorem State.putPrs_fuse (s : State) (o v : Nat) : (s.putPrs o v).fuse = s.fuse := by
  simp only [State.putPrs]
  split <;> simp

@[simp] theorem State.putCel_fuse (s : State) (o v : Nat) : (s.putCel o v).fuse = s.fuse := by simp [State.putCel]

@[simp] theorem State.putSec_fuse (s : State) (o v : Nat) : (s.putSec o v).fuse = s.fuse := by
  simp only [State.putSec]
  split
  · simp
  · split <;> simp

@[simp] theorem State.putTst_fuse (s : State) (o v : Nat) : (s.putTst o v).fuse = s.fuse := by
  simp only [State.putTst]
  split
  · simp
  · split
    · rfl
    · simp
    · rfl
    · exact via_fuse (execServiceRequest_keepsFuse v s)
    · rfl
    · exact via_fuse (execReflect_keepsFuse v s)
    · rfl

@[simp] theorem State.regPut_fuse (s : State) (o v : Nat) : (s.regPut o v).fuse = s.fuse := by simp [State.regPut]

@[simp] theorem State.cfgWrite_fuse (s : State) (off w value : Nat) : (s.cfgWrite off w value).fuse = s.fuse := by
  unfold State.cfgWrite
  split
  · simp
  · rfl

@[simp] theorem cfgDrain_fuse (l : List (Nat × Nat × Nat)) (s : State) : (cfgDrain l s).fuse = s.fuse := by
  induction l generalizing s with
  | nil => rfl
  | cons a t ih => simp [cfgDrain, ih]

@[simp] theorem State.cfgResume_fuse (s : State) : s.cfgResume.fuse = s.fuse := cfgDrain_fuse _ s

theorem execStoppedChangeRestart_keepsFuse (s : State) : KeepsFuse s (execStoppedChangeRestart s) := by
  refine .live (.next ?_)
  split
  · split
    · rfl
    · dsimp only
      split <;> simp
  · rfl

@[simp] theorem State.tick_fuse (s : State) : s.tick.fuse = s.fuse := by simp [State.tick]

/-! ### Every command, every step -/

/-- No command changes the fuse map: neither the slots of the core program, nor the host, the links, the engines or a reset. -/
theorem exec_keepsFuse (s : State) : ∀ i, KeepsFuse s (exec i s)
  -- slots of the core program
  | .mop .. | .fadd .. | .fsub .. | .fmul .. | .fma .. | .fmin .. | .fmax .. | .fabs .. | .fneg .. | .fcmpeq .. | .fcmpne .. | .fcmplt ..
  | .fcmple .. | .sel .. | .fdiv .. | .fsqrt .. | .exp2 .. | .exp .. | .log2 .. | .ln .. | .rsqrt .. | .sinpi .. | .cospi .. | .tanh ..
  | .sigm .. | .erf .. | .f2i .. | .f2iz .. | .i2f .. | .frnd .. | .iadd .. | .isub .. | .imul .. | .imin .. | .imax .. | .iabs ..
  | .icmpeq .. | .icmpne .. | .icmplt .. | .icmple .. | .vand .. | .vor .. | .vxor .. | .vnot .. | .vshl .. | .vshr .. | .vsar ..
  | .rol .. | .madd .. | .mullo .. | .mulhi .. | .ucmplt .. | .ucmple .. | .laneidx .. | .perm .. | .genrd .. | .rfsum .. | .risum ..
  | .rfmax .. | .rfmin .. | .rimax .. | .rimin .. | .ridxmax .. | .mand .. | .mor .. | .mxor .. | .mandn .. | .mrange .. | .setvl ..
  | .add .. | .sub .. | .mul .. | .and .. | .or .. | .xor .. | .shl .. | .shr .. | .sar .. | .min .. | .max .. | .slt .. | .sltu ..
  | .seq .. | .li .. | .addi .. | .andi .. | .ori .. | .xori .. | .shli .. | .shri .. | .sari .. | .lui .. | .ld .. | .lds .. | .st ..
  | .rdsr .. | .idle .. | .br .. | .fill .. | .store .. | .movsv .. | .movvs .. | .setas .. | .mpop .. | .semwait .. | .semadd ..
  | .semsub .. => .fetched (.next (State.slot_fuse ..))
  | .nop .. => .fetched (.next ((State.slot_fuse ..).trans (State.strikes_fuse ..)))
  | .beq .. | .bne .. | .blt .. | .bge .. => .fetched (.next (State.branchIf_fuse ..))
  | .loop .. => .fetched (.next (State.steer_fuse ..))
  | .rsemadd .. | .rsemsub .. => .fetched (.next (State.remoteSlot_fuse ..))
  -- commands that compose the operations above
  | .descriptorRead .. | .commandRingEnable .. | .commandRingDisable .. | .referenceSwitchComplete .. | .bulkTankReady ..
  | .standbyPllLock .. | .holdStop .. | .holdRelease .. | .holdResume .. | .throttleRaise .. | .throttleClear .. | .stretch ..
  | .hourlyGaugeSample .. | .globalSemaphoreUpdate .. | .deadlockDetectorFire .. | .portUpRequest .. | .portDownRequest .. | .linkUp ..
  | .linkFailure .. | .startUp .. | .flitReplay .. | .ingestJobComplete .. | .checkValueBlockStart .. | .stackQuiesced ..
  | .maintenanceOperationEnd .. | .refresh .. | .temperatureRead .. | .scrub .. | .memoryRead .. | .memoryWrite .. | .triggerFire ..
  | .attestationRequest .. | .bootCheckRequest .. | .setdasa .. | .entdaa .. | .privateWrite .. | .privateRead ..
  | .railTelemetryUpdate .. | .registerWrite .. => .live (.next (by simp))
  | .sppr .. | .hppr .. | .spares .. | .ieee1500 .. => .live (.next (State.maintGo_fuse ..))
  | .feedb .. | .feedh .. | .feedw .. => .live (.next (State.feed_fuse ..))
  | .semWaitMet .. | .referenceLoss .. | .loopbackByteTimeout .. | .mopQueueStart .. => .live (.next rfl)
  | .jtagBypass .. | .jtagIdcode .. | .samplePreload .. | .jtagExtest .. | .jtagClamp .. | .jtagHighz .. => .next rfl
  -- deliveries from a ring and arrivals at a port that compose them
  | .fence .. | .contextSwitch .. | .calRead .. | .calWrite .. | .gaugeSample .. | .loopback .. | .ingestJob .. | .stirrerEpoch ..
    => .live (.next (State.deliver_fuse (fun _ _ _ => by simp) ..))
  | .creditItem .. | .laneAck .. | .headerItem .. | .identityItem .. | .uncorrectableCodeword ..
    => .live (.next (State.onArrival_fuse (fun _ => by simp) ..))
  | .grantMsg .. | .abortMsg .. => .live (.next (State.ctlIn_fuse (fun _ => by simp) ..))
  -- commands with a lemma of their own
  | .bindProgram r => execBindProgram_keepsFuse r s
  | .rePlacement r => execRePlacement_keepsFuse r s
  | .placementAtBoundary => execPlacementAtBoundary_keepsFuse s
  | .run r => execRun_keepsFuse r s
  | .runCompletion => execRunCompletion_keepsFuse s
  | .ladleCopy r => execLadleCopy_keepsFuse r s
  | .pressJob x => execPressJob_keepsFuse x s
  | .pressGroupTableLoad r => execPressGroupTableLoad_keepsFuse r s
  | .shardGroupTableLoad r => execShardGroupTableLoad_keepsFuse r s
  | .semaphoreWait r => execSemaphoreWait_keepsFuse r s
  | .semaphoreAdd r => execSemaphoreAdd_keepsFuse r s
  | .semaphoreSubtract r => execSemaphoreSubtract_keepsFuse r s
  | .contextStart => execContextStart_keepsFuse s
  | .fenceRelease r => execFenceRelease_keepsFuse r s
  | .doorbell r value host => execDoorbell_keepsFuse r value host s
  | .eventRingEnable e value => execEventRingEnable_keepsFuse e value s
  | .eventRingHeadWrite e value => execEventRingHeadWrite_keepsFuse e value s
  | .armed e value => execArmed_keepsFuse e value s
  | .deviceReset => execDeviceReset_keepsFuse s
  | .deviceResetRequest value => execDeviceResetRequest_keepsFuse value s
  | .serviceRequest value => execServiceRequest_keepsFuse value s
  | .referenceSwitch value => execReferenceSwitch_keepsFuse value s
  | .cfgBusChange value => execCfgBusChange_keepsFuse value s
  | .synchronisedChangeRequest value => execSynchronisedChangeRequest_keepsFuse value s
  | .lockCheck => execLockCheck_keepsFuse s
  | .changeHold => execChangeHold_keepsFuse s
  | .clockSwitch => execClockSwitch_keepsFuse s
  | .stoppedChangeRequest value => execStoppedChangeRequest_keepsFuse value s
  | .stoppedChangeRestart => execStoppedChangeRestart_keepsFuse s
  | .clkEnCrm value => execClkEnCrm_keepsFuse value s
  | .clkEnGrb value => execClkEnGrb_keepsFuse value s
  | .clkEnMisc value => execClkEnMisc_keepsFuse value s
  | .holdCounterClear value => execHoldCounterClear_keepsFuse value s
  | .quiesce k value => execQuiesce_keepsFuse k value s
  | .reflect value => execReflect_keepsFuse value s
  | .attestationDone err => execAttestationDone_keepsFuse err s
  | .bootCheckEnd err => execBootCheckEnd_keepsFuse err s
  | .writeAcknowledgement x => execWriteAcknowledgement_keepsFuse x s
  | .idleEnd n => execIdleEnd_keepsFuse n s
  | .loopCountExpiry n => execLoopCountExpiry_keepsFuse n s
  | .endProg n last => execEndProg_keepsFuse n last s
  | .storeSignal core id => execStoreSignal_keepsFuse core id s
  | .semrd n last glob idx sd => execSemrd_keepsFuse n last glob idx sd s
  | .stepChurn n last retStart rt late hits => execStepChurn_keepsFuse n last retStart rt late hits s
  | .ldi n last q sa hits => execLdi_keepsFuse n last q sa hits s
  | .injectedUnitLanded core unit forNext way => execInjectedUnitLanded_keepsFuse core unit forNext way s
  | .deliverySignal core id => execDeliverySignal_keepsFuse core id s
  | .ladleTransferStart core q => execLadleTransferStart_keepsFuse core q s
  | .ladleSignal core q id => execLadleSignal_keepsFuse core q id s
  | .remoteOperationTimeout id => execRemoteOperationTimeout_keepsFuse id s
  | .readRequest core q id upset hdr => execReadRequest_keepsFuse core q id upset hdr s
  | .readResponse id bad router hdr => execReadResponse_keepsFuse id bad router hdr s
  | .writePacket id bad router hdr => execWritePacket_keepsFuse id bad router hdr s
  | .writeMsg x body => execWriteMsg_keepsFuse x body s
  | .semMsg x hops dst src incarn tag arg => execSemMsg_keepsFuse x hops dst src incarn tag arg s
  | .ackMsg x hops dst src incarn tag arg => execAckMsg_keepsFuse x hops dst src incarn tag arg s
  | .scaleLapMessage x block body par => execScaleLapMessage_keepsFuse x block body par s
  | .sumLapRecord x block body par => execSumLapRecord_keepsFuse x block body par s
  | .resultLapRecord x block body par => execResultLapRecord_keepsFuse x block body par s
  | .returnMsg x hops dst src incarn tag addr arg body => execReturnMsg_keepsFuse x hops dst src incarn tag addr arg body s
  | .skimMsg x hops dst src incarn tag addr arg body => execSkimMsg_keepsFuse x hops dst src incarn tag addr arg body s
  | .pressResend cmd => execPressResend_keepsFuse cmd s
  | .pressTimeout cmd => execPressTimeout_keepsFuse cmd s
  | .pressJobComplete cmd => execPressJobComplete_keepsFuse cmd s
  | .nakItem x seq => execNakItem_keepsFuse x seq s
  | .ingestJobAssign par cut => execIngestJobAssign_keepsFuse par cut s
  | .clipSignal e => execClipSignal_keepsFuse e s
  | .stirrerCredit par => execStirrerCredit_keepsFuse par s
  | .stirrerBatchFull b => execStirrerBatchFull_keepsFuse b s
  | .remoteSemaphorePacket x => execRemoteSemaphorePacket_keepsFuse x s
  | .semaphoreAcknowledgement x => execSemaphoreAcknowledgement_keepsFuse x s
  | .calibrationTestOperationEnd bad back lane drifts temps => execCalibrationTestOperationEnd_keepsFuse bad back lane drifts temps s

theorem step_keepsFuse (s : State) : KeepsFuse s (step s) := by
  unfold step
  split
  · exact .next s.tick_fuse
  next c rest _ => exact exec_keepsFuse { s with pending := rest } c

/-- Settles O60: a step runs the front command or lets a period pass, and each keeps the fuse map, a device reset included. -/
theorem fuseMapNeverChanges : Obligations.FuseMapNeverChanges := fun s t h => step_keepsFuse s t h

end Sys2Proof.Machine
end

section
/-! PROOFS. FP32 and INT32 arithmetic at its corners (02 R63 to R66). The value of a word decides every corner: `f32` is given here once, by
the word's sign and magnitude code, and the order of two values is the order of their sign-magnitude keys. -/

namespace Sys2Proof.Machine

/-! ### The value of an FP32 word (R28) -/

/-- The magnitude code of an FP32 word: the word without its sign bit. -/
def magCode (a : W32) : Nat := a.toNat % 2 ^ 31

/-- The significand of a finite magnitude code, with its hidden bit. -/
def codeMan (k : Nat) : Nat := if k / 2 ^ 23 = 0 then k else k % 2 ^ 23 + 2 ^ 23

/-- The exponent of a finite magnitude code, in steps above the smallest subnormal. -/
def codeExp (k : Nat) : Nat := k / 2 ^ 23 - 1

/-- The value of a finite magnitude code, in units of 2^-149. -/
def codeUnits (k : Nat) : Nat := codeMan k * 2 ^ codeExp k

theorem magCode_lt (a : W32) : magCode a < 2 ^ 31 := Nat.mod_lt _ (by decide)

/-- A word is its sign and its magnitude code. -/
theorem toNat_eq_sign_add_magCode (a : W32) : a.toNat = (if a.msb then 2 ^ 31 else 0) + magCode a := by
  have := a.isLt
  simp only [magCode, BitVec.msb_eq_decide, decide_eq_true_eq]
  split <;> omega

theorem f32_eq (a : W32) : f32 a =
    if magCode a < 0x7F800000 then .fin a.msb (codeMan (magCode a)) (codeExp (magCode a) - 149)
    else if magCode a = 0x7F800000 then .inf a.msb else .nan := by
  have hk := magCode_lt a
  have hs : a.toNat / 2 ^ 31 % 2 = 1 ↔ a.msb = true := by
    have := a.isLt
    simp only [BitVec.msb_eq_decide, decide_eq_true_eq]
    omega
  have hm : a.toNat % 2 ^ 23 = magCode a % 2 ^ 23 := by unfold magCode; omega
  have he : a.toNat / 2 ^ 23 % 2 ^ 8 = magCode a / 2 ^ 23 := by unfold magCode; omega
  simp only [f32, decodeFloat, fmtFP32, Nat.reduceAdd, hs, hm, he, Bool.decide_eq_true, codeMan, codeExp]
  generalize magCode a = k at hk
  obtain hsub | ⟨hpos, hfin⟩ | htop : k / 2 ^ 23 = 0 ∨ (0 < k / 2 ^ 23 ∧ k / 2 ^ 23 < 255) ∨ k / 2 ^ 23 = 255 := by omega
  · have hmod : k % 2 ^ 23 = k := by omega
    rw [if_neg (by omega), if_neg (by omega), if_pos hsub, if_pos hsub, if_pos (by omega), hmod, hsub]
    rfl
  · rw [if_neg (by omega), if_neg (by omega), if_neg hpos.ne', if_neg hpos.ne', if_pos (by omega)]
    congr 1
    push_cast [hpos]
    omega
  · rw [if_pos ⟨by omega, trivial⟩, if_neg (by omega : ¬ k < 0x7F800000)]
    exact if_congr (by omega) rfl rfl

theorem f32_eq_nan_iff (a : W32) : f32 a = .nan ↔ 0x7F800000 < magCode a := by
  rw [f32_eq]
  split_ifs <;> simp <;> omega

theorem f32_finite {a : W32} (h : magCode a < 0x7F800000) : f32 a = .fin a.msb (codeMan (magCode a)) (codeExp (magCode a) - 149) := by
  rw [f32_eq, if_pos h]

theorem f32_infinite {a : W32} (h : magCode a = 0x7F800000) : f32 a = .inf a.msb := by
  rw [f32_eq, if_neg (by omega), if_pos h]

theorem codeMan_eq_zero_iff (k : Nat) : codeMan k = 0 ↔ k = 0 := by
  unfold codeMan
  split <;> omega

/-! ### Division by zero (R63) -/

theorem Num.div_zero {s s' : Bool} {m : Nat} {e e' : Int} (h : m ≠ 0) : (Num.fin s m e).div (.fin s' 0 e') = .inf (s != s') := by
  simp [Num.div, h]

theorem toF32_inf (s : Bool) : toF32 (.inf s) = if s then 0xFF800000 else 0x7F800000 := by cases s <;> rfl

theorem fdiv_zero {a b : W32} (ha : 0 < magCode a) (ha' : magCode a < 0x7F800000) (hb : magCode b = 0) :
    fdiv a b = if a.msb = b.msb then 0x7F800000 else 0xFF800000 := by
  have hz : codeMan (magCode b) = 0 := (codeMan_eq_zero_iff _).2 hb
  have hm : codeMan (magCode a) ≠ 0 := fun h => by have := (codeMan_eq_zero_iff _).1 h; omega
  rw [fdiv, f32_finite ha', f32_finite (a := b) (by omega), hz, Num.div_zero hm, toF32_inf]
  cases a.msb <;> cases b.msb <;> rfl

/-! ### The order of two values (R65) -/

@[simp] theorem Num.nan_lt (x : Num) : Num.nan.lt x = false := rfl

@[simp] theorem Num.lt_nan (x : Num) : x.lt .nan = false := by cases x <;> rfl

/-- Two finite values compare as integers in any unit of which both are multiples. -/
theorem Num.fin_lt_fin {s s' : Bool} {m m' : Nat} {e e' q : Int} (h : q ≤ e) (h' : q ≤ e') :
    (Num.fin s m e).lt (.fin s' m' e') = decide (signed s (m * 2 ^ (e - q).toNat) < signed s' (m' * 2 ^ (e' - q).toNat)) := by
  obtain ⟨d, hd⟩ : ∃ d : Nat, min e e' - q = d := ⟨(min e e' - q).toNat, by omega⟩
  have hp : (0 : Int) < 2 ^ d := by positivity
  have key (t : Bool) (n : Nat) {x : Int} (hx : min e e' ≤ x) :
      signed t (n * 2 ^ (x - q).toNat) = signed t (n * 2 ^ (x - min e e').toNat) * 2 ^ d := by
    rw [show (x - q).toNat = (x - min e e').toNat + d by omega]
    cases t <;> simp [signed, pow_add, mul_assoc]
  simp only [Num.lt, key s m (min_le_left e e'), key s' m' (min_le_right e e'), mul_lt_mul_iff_left₀ hp]

/-- A strictly rising map of magnitudes that fixes zero keeps the order of signed values. -/
theorem signed_lt_signed_iff {u : Nat → Nat} (hu : StrictMono u) (h0 : u 0 = 0) (s s' : Bool) (x y : Nat) :
    signed s (u x) < signed s' (u y) ↔ signed s x < signed s' y := by
  have hx : u x = 0 ↔ x = 0 := by rw [← h0, hu.injective.eq_iff, h0]
  have hy : u y = 0 ↔ y = 0 := by rw [← h0, hu.injective.eq_iff, h0]
  have hxy : u x < u y ↔ x < y := hu.lt_iff_lt
  have hyx : u y < u x ↔ y < x := hu.lt_iff_lt
  cases s <;> cases s' <;> simp only [signed, if_true, Bool.false_eq_true, if_false] <;> omega

theorem codeUnits_zero : codeUnits 0 = 0 := rfl

/-- A larger magnitude code has a larger value. -/
theorem codeUnits_strictMono : StrictMono codeUnits := by
  refine strictMono_nat_of_lt_succ fun k => ?_
  unfold codeUnits codeMan codeExp
  by_cases hk : (k + 1) % 2 ^ 23 = 0
  · obtain ⟨e, he⟩ : ∃ e, k + 1 = (e + 1) * 2 ^ 23 := ⟨(k + 1) / 2 ^ 23 - 1, by omega⟩
    cases e with
    | zero =>
      obtain rfl : k = 2 ^ 23 - 1 := by omega
      decide
    | succ e =>
      have hd : k / 2 ^ 23 = e + 1 := by omega
      have hm : k % 2 ^ 23 = 2 ^ 23 - 1 := by omega
      have hd' : (k + 1) / 2 ^ 23 = e + 2 := by omega
      have hp : 0 < 2 ^ e := by positivity
      simp only [hd, hd', hm, hk, Nat.add_eq_zero_iff, OfNat.ofNat_ne_zero, one_ne_zero, and_false, if_false, Nat.add_sub_cancel,
        show e + 2 - 1 = e + 1 by omega, pow_succ 2 e]
      omega
  · have he : (k + 1) / 2 ^ 23 = k / 2 ^ 23 := by omega
    rw [he]
    refine Nat.mul_lt_mul_of_pos_right ?_ (by positivity)
    split <;> omega

theorem ordKey_eq (a : W32) : ordKey a = if a.msb then -(magCode a : Int) - 1 else magCode a := rfl

theorem valKey_eq (a : W32) : valKey a = signed a.msb (magCode a) := rfl

/-- The values of two words that are no NaN have the order of their keys. -/
theorem f32_lt_f32 {a b : W32} (ha : magCode a ≤ 0x7F800000) (hb : magCode b ≤ 0x7F800000) :
    (f32 a).lt (f32 b) = decide (valKey a < valKey b) := by
  rw [valKey_eq, valKey_eq]
  rcases ha.lt_or_eq with ha | ha <;> rcases hb.lt_or_eq with hb | hb
  · rw [f32_finite ha, f32_finite hb, Num.fin_lt_fin (q := -149) (by omega) (by omega)]
    simp only [sub_neg_eq_add, sub_add_cancel, Int.toNat_natCast]
    exact decide_eq_decide.2 (signed_lt_signed_iff codeUnits_strictMono codeUnits_zero ..)
  · rw [f32_finite ha, f32_infinite hb]
    cases a.msb <;> cases b.msb <;> simp [Num.lt, signed] <;> omega
  · rw [f32_infinite ha, f32_finite hb]
    cases a.msb <;> cases b.msb <;> simp [Num.lt, signed] <;> omega
  · rw [f32_infinite ha, f32_infinite hb]
    cases a.msb <;> cases b.msb <;> simp [Num.lt, signed] <;> omega

theorem fcmp_nan {a b : W32} (h : f32 a = .nan ∨ f32 b = .nan) : fcmpEq a b = false ∧ fcmpLt a b = false ∧ fcmpLe a b = false := by
  rcases h with h | h <;> simp [fcmpEq, fcmpLt, fcmpLe, isNaN32, h]

/-! ### Minimum and maximum (R64) -/

theorem fmin_fmax_nan {a b : W32} (h : f32 a = .nan ∨ f32 b = .nan) : fmin a b = nan32 ∧ fmax a b = nan32 := by
  rcases h with h | h <;> simp [fmin, fmax, isNaN32, h]

theorem ordKey_injective {a b : W32} (h : ordKey a = ordKey b) : a = b := by
  apply BitVec.eq_of_toNat_eq
  rw [toNat_eq_sign_add_magCode a, toNat_eq_sign_add_magCode b]
  rw [ordKey_eq, ordKey_eq] at h
  split_ifs at * <;> omega

/-- Of two words that are no NaN, the minimum and the maximum are the lower and the higher by key. -/
theorem fmin_fmax_of_not_nan {a b : W32} (ha : f32 a ≠ .nan) (hb : f32 b ≠ .nan) :
    fmin a b = a ∧ fmax a b = b ∧ ordKey a ≤ ordKey b ∨ fmin a b = b ∧ fmax a b = a ∧ ordKey b ≤ ordKey a := by
  have hn : (isNaN32 a || isNaN32 b) = false := by simp [isNaN32, ha, hb]
  simp only [fmin, fmax, hn, Bool.false_eq_true, if_false]
  rcases lt_trichotomy (ordKey a) (ordKey b) with h | h | h
  · exact .inl (by simp [h, h.le, h.not_gt])
  · obtain rfl := ordKey_injective h
    simp
  · exact .inr (by simp [h, h.le, h.not_gt])

/-- The order with −0 below +0 refines the order of values. -/
theorem valKey_le_of_ordKey_le {a b : W32} (h : ordKey a ≤ ordKey b) : valKey a ≤ valKey b := by
  rw [ordKey_eq, ordKey_eq] at h
  rw [valKey_eq, valKey_eq, signed, signed]
  split_ifs at * <;> omega

theorem not_lt_of_ordKey_le {a b : W32} (ha : magCode a ≤ 0x7F800000) (hb : magCode b ≤ 0x7F800000) (h : ordKey a ≤ ordKey b) :
    (f32 b).lt (f32 a) = false := by
  rw [f32_lt_f32 hb ha]
  exact decide_eq_false (valKey_le_of_ordKey_le h).not_gt

/-! ### INT32 saturation (R66) -/

theorem toInt_satOp (f : Int → Int → Int) (a b : W32) :
    (satOp f a b).toInt = max (-2 ^ 31) (min (2 ^ 31 - 1) (f a.toInt b.toInt)) := by
  simp only [satOp, clampInt]
  rw [BitVec.toInt_ofInt_eq_self (by decide) (by omega) (by omega)]
  rfl

/-! ### The compares of the vector slot -/

/-- Of the floating-point compares only not-equal holds of a NaN (R65). -/
theorem compares_nan {a b : W32} (h : f32 a = .nan ∨ f32 b = .nan) :
    ∀ e ∈ Claims.compares, e.2.1 ∈ [0x09, 0x0A, 0x0B, 0x0C] → e.2.2 a b = decide (e.2.1 = 0x0A) := by
  rcases h with h | h <;> simp [Claims.compares, h]

/-- Settles O7: the value of a word decides each corner; minimum and maximum are the words of the lower and of the higher key. -/
theorem numberRulesAtTheCorners : Obligations.NumberRulesAtTheCorners := by
  have nan (a b : W32) (h : 0x7F800000 < magCode a ∨ 0x7F800000 < magCode b) : f32 a = .nan ∨ f32 b = .nan :=
    h.imp (f32_eq_nan_iff a).2 (f32_eq_nan_iff b).2
  refine ⟨fun a b => fdiv_zero, fun a b h => fmin_fmax_nan (nan a b h), ?_, by decide, ?_, ?_⟩
  · intro a b ha hb
    have ha' := mt (f32_eq_nan_iff a).1 ha
    have hb' := mt (f32_eq_nan_iff b).1 hb
    rcases fmin_fmax_of_not_nan ha' hb' with ⟨hmin, hmax, h⟩ | ⟨hmin, hmax, h⟩ <;> rw [hmin, hmax]
    · exact ⟨.inl ⟨rfl, rfl⟩, not_lt_of_ordKey_le (not_lt.1 ha) (not_lt.1 hb) h⟩
    · exact ⟨.inr ⟨rfl, rfl⟩, not_lt_of_ordKey_le (not_lt.1 hb) (not_lt.1 ha) h⟩
  · intro a b h
    obtain ⟨heq, hlt, hle⟩ := fcmp_nan (nan a b h)
    exact ⟨heq, hlt, hle, compares_nan (nan a b h)⟩
  · exact fun a b => ⟨toInt_satOp _ a b, toInt_satOp _ a b, toInt_satOp _ a b⟩

end Sys2Proof.Machine
end

section
/-! PROOFS. A STEP on the cores that issue it (03 R83, R89 to R91; 08 R261): first a due unit whose fetch cannot be made lands, then each
core steps or stops for a unit that has not landed, then the delivered units leave. For each of the three it is said once what it changes. -/

namespace Sys2Proof.Machine

/-! ### A due unit whose fetch cannot be made lands (R669) -/

/-- The core but for the errors that a fetch records on it. -/
def Core.FetchErrs (a b : Core) : Prop :=
  b = { a with cond := b.cond, spadErr := b.spadErr, spadErrAddr := b.spadErrAddr, spadNow := b.spadNow, ladleErr := b.ladleErr,
               ladleErrTag := b.ladleErrTag, ladleNow := b.ladleNow }

/-- The core but for what the landing of a unit changes: its injection queue, what it waits behind, and the errors of a fetch. -/
def Core.LandsTo (a b : Core) : Prop := ({ a with injq := b.injq, late := b.late } : Core).FetchErrs b

/-- The state but for what the landing of a unit changes beside memory: the cores, the units fetched, the mark of progress. -/
def State.LandsTo (s t : State) : Prop := t = { s with cores := t.cores, units := t.units, noProgress := t.noProgress }

theorem State.LandsTo.trans {s t u : State} (h : s.LandsTo t) (h' : t.LandsTo u) : s.LandsTo u := by
  unfold State.LandsTo at *
  rw [h', h]

theorem Core.FetchErrs.trans {a b c : Core} (h : a.FetchErrs b) (h' : b.FetchErrs c) : a.FetchErrs c := by
  unfold Core.FetchErrs at *
  rw [h', h]

theorem Core.FetchErrs.setCond {a b : Core} (h : a.FetchErrs b) (v : Nat) : a.FetchErrs { b with cond := v } := h.trans rfl

theorem Core.FetchErrs.injq {a b : Core} (h : a.FetchErrs b) : b.injq = a.injq := by rw [h]

theorem Core.FetchErrs.landsTo {a b c : Core} (h : a.FetchErrs b) (h' : b.LandsTo c) : a.LandsTo c := by
  unfold Core.LandsTo Core.FetchErrs at *
  rw [h', h]

theorem spadCheck_fetchErrs (s : State) (c off n : Nat) (k : Core) : k.FetchErrs (s.spadCheck c off n k) := by
  unfold State.spadCheck
  split
  · exact List.foldlRecOn _ _ (rfl : k.FetchErrs k) fun b hb i _ => hb.trans (rfl : b.FetchErrs (b.spadParity (off + i)))
  · rfl

theorem ladleFail_fetchErrs (k : Core) (q kind tag : Nat) : k.FetchErrs (k.ladleFail q kind tag) := rfl

/-- A unit lands on one core and touches no other. -/
theorem State.core_landUnit_of_ne (s : State) {c j : Nat} (u : Nat) (fn : Bool) (d : UnitData) (cond : Nat) (h : j ≠ c) :
    (s.landUnit c u fn d cond).core j = s.core j := (State.core_setCore ..).trans (if_neg h)

theorem State.core_landUnit_landsTo (s : State) (c u : Nat) (fn : Bool) (d : UnitData) (cond : Nat) :
    (s.core c).LandsTo ((s.landUnit c u fn d cond).core c) := by
  unfold State.landUnit
  rw [State.core_setCore, if_pos rfl]
  rfl

/-- A unit that was asked for has landed. -/
theorem State.hasUnit_landUnit {s : State} {c u : Nat} (d : UnitData) (cond : Nat)
    (h : (s.core c).injq.any (fun i => i.unit == u && !i.forNext) = true) : ((s.landUnit c u false d cond).core c).hasUnit u = true := by
  obtain ⟨i, hi, hu⟩ := List.any_eq_true.1 h
  unfold State.landUnit
  rw [State.core_setCore, if_pos rfl]
  simp only [Core.hasUnit, List.any_map, List.any_eq_true]
  exact ⟨i, hi, by simp_all⟩

/-- A unit whose fetch cannot be made lands on its core, which notes what the fetch has found. -/
theorem State.landBroken_eq_some {s s' : State} {c u : Nat} {fn : Bool} {t : Table} (h : s.landBroken c u fn t = some s') :
    ∃ k d cond, (s.core c).FetchErrs k ∧ s' = (s.setCore c k).landUnit c u fn d cond := by
  simp only [State.landBroken] at h
  split at h
  · cases h
    exact ⟨_, _, _, (spadCheck_fetchErrs ..).setCond _, rfl⟩
  · split at h <;> cases h
    exact ⟨_, _, _, ladleFail_fetchErrs .., rfl⟩

/-- Whether a fetch can be made does not depend on the other cores, nor on the units fetched. -/
theorem State.landBroken_isSome_congr {s t : State} (h : s.LandsTo t) (c u : Nat) (fn : Bool) (tb : Table) :
    (t.landBroken c u fn tb).isSome = (s.landBroken c u fn tb).isSome := by
  have hbad : t.spadBad = s.spadBad := by rw [h]; rfl
  have hparts : t.unitParts = s.unitParts := by rw [h]; rfl
  have hok : t.rangeOk = s.rangeOk := by rw [h]; rfl
  simp only [State.landBroken, hbad, hparts, hok]
  split
  · rfl
  · split <;> rfl

/-- The two outcomes of the look at core c's due unit: nothing, or a queued due unit that has not landed and whose fetch cannot be made
    lands. -/
theorem State.landDue_cases (s : State) (c : Nat) :
    s.landDue c = s ∨ ∃ u tb s', s.dueUnit c (s.core c).stepNo = some u ∧ s.injTable false = some tb ∧ (s.core c).hasUnit u = false ∧
      (s.core c).injq.any (fun i => i.unit == u && !i.forNext) = true ∧ s.landBroken c u false tb = some s' ∧ s.landDue c = s' := by
  unfold State.landDue
  split
  next u tb hu htb =>
    split
    · exact .inl rfl
    next h =>
      simp only [Bool.or_eq_true, Bool.not_eq_true', not_or, Bool.not_eq_true, Bool.not_eq_false] at h
      cases hb : s.landBroken c u false tb with
      | none => exact .inl rfl
      | some s' => exact .inr ⟨u, tb, s', hu, htb, h.1, h.2, hb, rfl⟩
  · exact .inl rfl

theorem State.landDue_landsTo (s : State) (c : Nat) :
    s.LandsTo (s.landDue c) ∧ (s.core c).LandsTo ((s.landDue c).core c) ∧ ∀ j, j ≠ c → (s.landDue c).core j = s.core j := by
  rcases s.landDue_cases c with h | ⟨u, tb, s', -, -, -, -, hs', h⟩
  · rw [h]
    exact ⟨rfl, rfl, fun _ _ => rfl⟩
  · obtain ⟨k, d, cond, hk, rfl⟩ := State.landBroken_eq_some hs'
    have hc := (s.setCore c k).core_landUnit_landsTo c u false d cond
    rw [State.core_setCore, if_pos rfl] at hc
    rw [h]
    refine ⟨rfl, hk.landsTo hc, fun j hj => ?_⟩
    rw [State.core_landUnit_of_ne _ _ _ _ _ hj, State.core_setCore, if_neg hj]

/-- No unit is due, or the due one is not there and its fetch can be made: nothing lands. -/
theorem State.landDue_eq_self {s : State} {c : Nat}
    (h : ∀ u tb, s.dueUnit c (s.core c).stepNo = some u → s.injTable false = some tb → s.landBroken c u false tb = none) : s.landDue c = s := by
  rcases s.landDue_cases c with h' | ⟨u, tb, s', hu, htb, -, -, hs', -⟩
  · exact h'
  · simp [h u tb hu htb] at hs'

/-- A due unit that is asked for and whose fetch cannot be made has landed after the look. -/
theorem State.hasUnit_landDue {s : State} {c u : Nat} {tb : Table} (hu : s.dueUnit c (s.core c).stepNo = some u)
    (hq : (s.core c).injq.any (fun i => i.unit == u && !i.forNext) = true) (htb : s.injTable false = some tb)
    (hb : (s.landBroken c u false tb).isSome = true) : ((s.landDue c).core c).hasUnit u = true := by
  obtain ⟨s', hs'⟩ := Option.isSome_iff_exists.1 hb
  cases hl : (s.core c).hasUnit u with
  | true => simp [State.landDue, hu, htb, hl]
  | false =>
    have hd : s.landDue c = s' := by simp [State.landDue, hu, htb, hl, hq, hs']
    obtain ⟨k, d, cond, hk, rfl⟩ := State.landBroken_eq_some hs'
    rw [hd]
    refine State.hasUnit_landUnit d cond ?_
    rwa [State.core_setCore, if_pos rfl, hk.injq]

/-- Looks at different cores do not meddle with each other: a core looked at is left as its own look leaves it, taken in a state that the
    others' looks led to. -/
theorem State.foldl_landDue {l : List Nat} (hl : l.Nodup) (s : State) :
    s.LandsTo (l.foldl State.landDue s) ∧ (∀ c, c ∉ l → (l.foldl State.landDue s).core c = s.core c) ∧
    ∀ c, c ∈ l → ∃ s', s.LandsTo s' ∧ s'.core c = s.core c ∧ (l.foldl State.landDue s).core c = (s'.landDue c).core c := by
  induction l generalizing s with
  | nil => exact ⟨rfl, fun _ _ => rfl, fun _ h => nomatch h⟩
  | cons a l ih =>
    obtain ⟨ha, hl⟩ := List.nodup_cons.1 hl
    obtain ⟨hs, -, hne⟩ := s.landDue_landsTo a
    obtain ⟨h, hout, hin⟩ := ih hl (s.landDue a)
    refine ⟨hs.trans h, fun c hc => ?_, fun c hc => ?_⟩
    · obtain ⟨hca, hcl⟩ := not_or.1 (mt List.mem_cons.2 hc)
      exact (hout c hcl).trans (hne c hca)
    · by_cases hca : c = a
      · subst hca
        exact ⟨s, rfl, rfl, hout c ha⟩
      · obtain ⟨s', hs', hc', e⟩ := hin c (List.mem_of_ne_of_mem hca hc)
        exact ⟨s', hs.trans hs', hc'.trans (hne c hca), e⟩

/-- The state in which the bundle at count n steps: the units that are due on the issuing cores and cannot be fetched have landed. -/
def State.landedAt (s : State) (n : Nat) : State := ((List.range Config.nPhys).filter (s.issues n)).foldl State.landDue s

theorem State.landedAt_landsTo (s : State) (n : Nat) : s.LandsTo (s.landedAt n) :=
  (State.foldl_landDue (List.nodup_range.filter _) s).1

/-- An issuing core after the landings. -/
theorem State.core_landedAt {s : State} {n c : Nat} (hc : c < 160) (hi : s.issues n c = true) :
    ∃ s', s.LandsTo s' ∧ s'.core c = s.core c ∧ (s.landedAt n).core c = (s'.landDue c).core c :=
  (State.foldl_landDue (List.nodup_range.filter _) s).2.2 c (List.mem_filter.2 ⟨List.mem_range.2 hc, hi⟩)

theorem State.core_landedAt_landsTo (s : State) (n c : Nat) : (s.core c).LandsTo ((s.landedAt n).core c) := by
  obtain ⟨-, hout, hin⟩ := State.foldl_landDue (List.nodup_range.filter (s.issues n)) s
  by_cases h : c ∈ (List.range Config.nPhys).filter (s.issues n)
  · obtain ⟨s', -, hc, e⟩ := hin c h
    have := (s'.landDue_landsTo c).2.1
    rwa [hc, ← e] at this
  · rw [State.landedAt, hout c h]
    rfl

theorem Core.LandsTo.pc {a b : Core} (h : a.LandsTo b) : b.pc = a.pc := by rw [h]

theorem Core.LandsTo.stepNo {a b : Core} (h : a.LandsTo b) : b.stepNo = a.stepNo := by rw [h]

theorem Core.LandsTo.stopped {a b : Core} (h : a.LandsTo b) : b.stopped = a.stopped := by rw [h]

/-- A landing does not decide whether a core issues a bundle. -/
theorem State.issues_of_landsTo {s t : State} (h : s.LandsTo t) (n c : Nat) (hc : (s.core c).LandsTo (t.core c)) :
    t.issues n c = s.issues n c := by
  have hf : t.fuse = s.fuse := by rw [h]
  have ht : t.clockTicks c = s.clockTicks c := by rw [h]; rfl
  simp only [State.issues, hf, ht]
  rw [hc]
  rfl

theorem State.issues_landedAt (s : State) (n c : Nat) : (s.landedAt n).issues n c = s.issues n c :=
  State.issues_of_landsTo (s.landedAt_landsTo n) n c (s.core_landedAt_landsTo n c)

/-- The landings damage no bundle. -/
theorem State.badFetch_landedAt (s : State) (n : Nat) : (s.landedAt n).badFetch n = s.badFetch n := by
  have hp : (s.landedAt n).prog = s.prog := by rw [s.landedAt_landsTo n]
  simp only [State.badFetch, hp, s.issues_landedAt, (s.core_landedAt_landsTo n _).pc]

/-! ### What the parts of a step leave alone (R261) -/

/-- What a core works with, beside the return lane, the injection queue, the operations on its arrays and the records of errors, hazards and
    contracts. -/
structure Core.Work where
  stopped : Option Nat
  stepNo : Nat
  lastStep : Option Nat
  wbufActive : Held
  fwd : Held
  sregs : Sparse W64
  pail : Sparse W32
  acc : Sparse W32

/-- What a core works with. -/
def Core.work (k : Core) : Core.Work := ⟨k.stopped, k.stepNo, k.lastStep, k.wbufActive, k.fwd, k.sregs, k.pail, k.acc⟩

theorem foldl_work {α : Type} {f : Core → α → Core} (hf : ∀ k x, (f k x).work = k.work) (l : List α) (k : Core) :
    (l.foldl f k).work = k.work :=
  List.foldlRecOn (motive := fun b => b.work = k.work) l f rfl fun b hb x _ => (hf b x).trans hb

@[simp] theorem hazardAt_work (k : Core) (debug : Bool) (n kind detail : Nat) : (k.hazardAt debug n kind detail).work = k.work := by
  rw [hazardAt_kept k debug n kind detail]
  rfl

@[simp] theorem contract_work (k : Core) (f : Fuse) (i n extra : Nat) : (k.contract f i n extra).work = k.work := by
  unfold Core.contract
  split <;> rfl

theorem overrun_eq (k : Core) (a : Nat) : k.overrun a = { k with arrays := (k.overrun a).arrays } := by
  simp only [Core.overrun]
  split
  · split <;> rfl
  · rfl

theorem foldl_overrun_round (l : List Nat) (k : Core) : (l.foldl Core.overrun k).round = k.round :=
  List.foldlRecOn (motive := fun b : Core => b.round = k.round) l _ rfl fun b hb a _ => by rw [overrun_eq, hb]

theorem overrun_work (k : Core) (a : Nat) : (k.overrun a).work = k.work := by
  rw [overrun_eq]
  rfl

theorem nextRequest_eq (k : Core) (n u : Nat) (early : Option Nat) (q : Nat) :
    k.nextRequest n u early q = { k with injq := (k.nextRequest n u early q).injq } := by
  simp only [Core.nextRequest]
  split
  · split
    · rfl
    · split <;> rfl
  · rfl

@[simp] theorem nextRequest_work (k : Core) (n u : Nat) (early : Option Nat) (q : Nat) : (k.nextRequest n u early q).work = k.work := by
  rw [nextRequest_eq]
  rfl

@[simp] theorem nextRequest_round (k : Core) (n u : Nat) (early : Option Nat) (q : Nat) : (k.nextRequest n u early q).round = k.round := by
  rw [nextRequest_eq]

@[simp] theorem hazardAt_round (k : Core) (debug : Bool) (n kind detail : Nat) : (k.hazardAt debug n kind detail).round = k.round := by
  rw [hazardAt_kept k debug n kind detail]

@[simp] theorem contract_ret (k : Core) (f : Fuse) (i n extra : Nat) : (k.contract f i n extra).ret = k.ret := by
  unfold Core.contract
  split <;> rfl

@[simp] theorem spadCheck_work (s : State) (c off n : Nat) (k : Core) : (s.spadCheck c off n k).work = k.work := by
  rw [spadCheck_fetchErrs s c off n k]
  rfl

@[simp] theorem contribErr_work (s : State) (c n : Nat) (t : Table) (tag : Nat) (poison : Bool) (k : Core) :
    (s.contribErr c n t tag poison k).work = k.work := by
  simp only [State.contribErr]
  split
  · split <;> exact spadCheck_work ..
  · have hfold : ∀ f : Nat → Core → Bool, ∀ d : Nat → Nat,
        ((List.range 32).foldl (fun k r => if f r k then k.hazardAt s.debug n 3 (d r) else k) k).work = k.work := fun f d =>
      foldl_work (fun k r => by split <;> simp) _ k
    split
    · exact hfold _ _
    · exact hfold _ _

/-- The return lane keeps what a core works with. -/
@[simp] theorem returnStep_work (s : State) (c n st : Nat) (retStart : Bool) (rt : Nat) (broken : Bool) (k : Core) :
    (s.returnStep c n st retStart rt broken k).1.work = k.work := by
  unfold State.returnStep
  extract_lets g recv tbl old held k1 last deliver sent k2 j tag k3 start
  clear_value recv tbl old
  have hheld : held.1.work = k.work := by
    unfold held
    split
    · split
      · split
        · split
          split <;> exact contribErr_work ..
        · rfl
      · rfl
    · rfl
  have hstart : start.1.work = k2.work := by
    unfold start
    split
    · split
      · split
        · split
          split <;> exact contribErr_work ..
        · rfl
      · rfl
    · rfl
  exact hstart.trans hheld

/-- Where no round is under way and none starts, the return lane sends nothing. -/
theorem returnStep_ret_of_idle (s : State) (c n st rt : Nat) (broken : Bool) {k : Core} (h : k.round = none) :
    (s.returnStep c n st false rt broken k).1.ret = {} := by
  simp [State.returnStep, h]

/-! ### A core's step (R83, R90) -/

/-- What core c's forward Dasher takes in step st of a run of units: the unit whose place in the thread this is, or nothing. -/
def State.takes (s : State) (c units st : Nat) (injects : Bool) : Held :=
  match s.fuse.unitAt units (s.fuse.pos c) st with
  | some u => { valid := true, tag := u, poison := s.takesPoison c st u injects }
  | none => {}

theorem State.takes_valid (s : State) (c units st : Nat) (injects : Bool) :
    (s.takes c units st injects).valid = (s.fuse.unitAt units (s.fuse.pos c) st).isSome := by
  unfold State.takes
  split
  next h => rw [h]; rfl
  next h => rw [h]; rfl

theorem State.takes_tag {s : State} {c units st u : Nat} (injects : Bool) (h : s.fuse.unitAt units (s.fuse.pos c) st = some u) :
    (s.takes c units st injects).tag = u := by
  rw [State.takes, h]

/-- A core that steps: its weight buffer takes what the Dasher held, the Dasher its next unit, the step number grows. The return lane does
    what returnStep says of a core under the same round. -/
theorem stepCore_go_spec (s : State) (n : Nat) (retStart : Bool) (rt c : Nat) (k : Core) (st units : Nat) (inj : Option Nat) :
    (State.stepCore.go s n retStart rt c k st units inj).1.work =
      { k.work with wbufActive := k.fwd, fwd := s.takes c units st inj.isSome, stepNo := st + 1, lastStep := some n } ∧
    ∃ broken k', k'.round = k.round ∧
      (State.stepCore.go s n retStart rt c k st units inj).1.ret = (s.returnStep c n st retStart rt broken k').1.ret := by
  unfold State.stepCore.go
  extract_lets early broken k1 k2 held k3 k4 k5 fmt w
  have h2 : k2.work = k.work ∧ k2.round = k.round := by
    have h1 : k1.work = k.work ∧ k1.round = k.round := by
      unfold k1
      split <;> simp
    exact ⟨(foldl_work overrun_work _ k1).trans h1.1, (foldl_overrun_round _ k1).trans h1.2⟩
  have h4 : k4.work = { k2.work with wbufActive := k2.fwd, fwd := held } ∧ k4.round = k2.round := by
    unfold k4
    split <;> exact ⟨rfl, rfl⟩
  have h5 : k5.work = k4.work ∧ k5.round = k4.round := by
    unfold k5
    split <;> simp
  have hfwd : k2.fwd = k.fwd := congrArg Core.Work.fwd h2.1
  have hr := returnStep_work s c n st retStart rt broken k5
  constructor
  · simp only [contract_work]
    calc
      _ = { (s.returnStep c n st retStart rt broken k5).1.work with stepNo := st + 1, lastStep := some n } := rfl
      _ = _ := by rw [hr, h5.1, h4.1, h2.1, hfwd]; rfl
  · exact ⟨broken, k5, h5.2.trans (h4.2.trans h2.2), by simp only [contract_ret]⟩

/-- The units that the present run injects, 0 without a run. -/
def State.runUnits (s : State) : Nat :=
  match s.run with
  | some r => r.units
  | none => 0

theorem State.runUnits_of_run {s : State} {r : RunState} (h : s.run = some r) : s.runUnits = r.units := by
  rw [State.runUnits, h]

section
variable {s : State} {n c : Nat} {k : Core} (retStart : Bool) (rt late : Nat)

/-- A core that has no unit to inject steps. -/
theorem stepCore_of_none (h : s.dueUnit c k.stepNo = none) :
    s.stepCore n retStart rt late c k = State.stepCore.go s n retStart rt c k k.stepNo s.runUnits none := by
  simp only [State.stepCore, h]
  rfl

/-- A core whose unit to inject has landed steps. -/
theorem stepCore_of_hasUnit {u : Nat} (h : s.dueUnit c k.stepNo = some u) (hu : k.hasUnit u = true) :
    s.stepCore n retStart rt late c k = State.stepCore.go s n retStart rt c k k.stepNo s.runUnits (some u) := by
  simp only [State.stepCore, h]
  exact if_pos hu

/-- A core whose unit to inject has not landed stops. -/
theorem stepCore_of_not_hasUnit {u : Nat} (h : s.dueUnit c k.stepNo = some u) (hu : k.hasUnit u = false) :
    s.stepCore n retStart rt late c k = ({ k with late := some (1 + late % 3, none), stopped := some n }, none) := by
  simp only [State.stepCore, h]
  exact if_neg (by simp [hu])

end

/-! ### The command (R261) -/

@[simp] theorem State.noteEpisode_cores (s : State) : s.noteEpisode.cores = s.cores := by
  unfold State.noteEpisode
  split <;> rfl

@[simp] theorem State.noteEpisode_mem (s : State) : s.noteEpisode.mem = s.mem := by
  unfold State.noteEpisode
  split <;> rfl

@[simp] theorem State.settleHold_cores (s : State) : s.settleHold.cores = s.cores := by
  simp [State.settleHold]

@[simp] theorem State.settleHold_mem (s : State) : s.settleHold.mem = s.mem := by
  simp [State.settleHold]

/-- A delivery sends packets and changes no memory; of a core it changes the list of deliveries only. -/
theorem State.putDelivery_spec (s : State) (n c : Nat) (d : Option (Table × RetUnit)) :
    (s.putDelivery n c d).mem = s.mem ∧ ∀ j, ∃ l, (s.putDelivery n c d).core j = { s.core j with deliveries := l } := by
  cases d with
  | none => exact ⟨rfl, fun j => ⟨_, rfl⟩⟩
  | some x =>
    refine ⟨rfl, fun j => ?_⟩
    by_cases hj : j = c
    · subst hj
      exact ⟨_, (State.core_setCore ..).trans (if_pos rfl)⟩
    · exact ⟨_, (State.core_setCore ..).trans (if_neg hj)⟩

theorem State.foldl_putDelivery_spec {α : Type} (n : Nat) (core : α → Nat) (d : α → Option (Table × RetUnit)) (l : List α) (s : State) :
    (l.foldl (fun t x => t.putDelivery n (core x) (d x)) s).mem = s.mem ∧
      ∀ j, ∃ ds, (l.foldl (fun t x => t.putDelivery n (core x) (d x)) s).core j = { s.core j with deliveries := ds } := by
  induction l generalizing s with
  | nil => exact ⟨rfl, fun j => ⟨_, rfl⟩⟩
  | cons x l ih =>
    obtain ⟨hm, hc⟩ := s.putDelivery_spec n (core x) (d x)
    obtain ⟨hm', hc'⟩ := ih (s.putDelivery n (core x) (d x))
    refine ⟨hm'.trans hm, fun j => ?_⟩
    obtain ⟨a, ha⟩ := hc j
    obtain ⟨b, hb⟩ := hc' j
    exact ⟨b, by rw [List.foldl_cons, hb, ha]⟩

/-- STEP without parity errors: after the landings every issuing core does what stepCore says of it, beside its deliveries, and memory is
    unchanged. -/
theorem execStepChurn_spec {s : State} {n rt : Nat} {retStart : Bool} (h : SlotRuns s n (stepWord retStart rt)) (late : Nat) :
    ∃ t, (∀ last, execStepChurn n last retStart rt late [] s = .next (if last then t.endBundle n else t)) ∧ t.mem = s.mem ∧
      ∀ c, c < 160 → s.issues n c = true → ∃ l,
        t.core c = { ((s.landedAt n).stepCore n retStart rt late c ((s.landedAt n).core c)).1 with deliveries := l } := by
  unfold execStepChurn
  extract_lets cs s0 res s1 s2 s3 live lo s4 s5
  have h0 : s0 = s.landedAt n := rfl
  have hbad : ¬ s0.badFetch n = true := by simp [h0, s.badFetch_landedAt, h.2.2]
  have h5 : s5.cores = s2.cores ∧ s5.mem = s2.mem := by
    have h3 : s3.cores = s2.cores ∧ s3.mem = s2.mem := by
      unfold s3
      split <;> exact ⟨rfl, rfl⟩
    exact ⟨(State.settleHold_cores _).trans h3.1, (State.settleHold_mem _).trans h3.2⟩
  obtain ⟨hmem, hcore⟩ := State.foldl_putDelivery_spec n (fun r : Nat × Core × Option (Table × RetUnit) => r.1) (fun r => r.2.2) res s1
  refine ⟨s5, fun last => (fetched_of h _).trans (if_neg hbad), ?_, fun c hc hi => ?_⟩
  · calc s5.mem = s2.mem := h5.2
      _ = s1.mem := hmem
      _ = s.mem := by rw [show s1.mem = (s.landedAt n).mem from rfl, s.landedAt_landsTo n]
  · obtain ⟨l, hl⟩ := hcore c
    refine ⟨l, ?_⟩
    have h1 : s1.core c = (s0.stepCore n retStart rt late c (s0.core c)).1 := by
      have hi0 : s0.issues n c = true := (s.issues_landedAt n c).trans hi
      rw [show s1.core c = _ from State.core_issue .., if_pos hc, if_pos hi0]
    calc s5.core c = s2.core c := by rw [State.core, State.core, h5.1]
      _ = _ := by rw [show s2.core c = _ from hl, h1]; rfl

/-! ### The statement -/

section
variable {s : State} {n c : Nat} (hc : c < 160) (hi : s.issues n c = true)
include hc hi

/-- A core on which nothing lands is the same after the landings. -/
theorem core_landedAt_eq_self
    (h : ∀ u tb, s.dueUnit c (s.core c).stepNo = some u → s.injTable false = some tb → s.landBroken c u false tb = none) :
    (s.landedAt n).core c = s.core c := by
  obtain ⟨s', hs, hcore, e⟩ := State.core_landedAt hc hi
  rw [e, State.landDue_eq_self, hcore]
  intro u tb hu htb
  rw [hcore, hs] at hu
  rw [hs] at htb
  rw [← Option.not_isSome_iff_eq_none, State.landBroken_isSome_congr hs, h u tb hu htb]
  simp

/-- A unit that is asked for and cannot be fetched has landed after the landings. -/
theorem hasUnit_core_landedAt {u : Nat} {tb : Table} (hu : s.dueUnit c (s.core c).stepNo = some u)
    (hq : (s.core c).injq.any (fun i => i.unit == u && !i.forNext) = true) (htb : s.injTable false = some tb)
    (hb : (s.landBroken c u false tb).isSome = true) : ((s.landedAt n).core c).hasUnit u = true := by
  obtain ⟨s', hs, hcore, e⟩ := State.core_landedAt hc hi
  rw [e]
  refine State.hasUnit_landDue (u := u) (tb := tb) ?_ (hcore ▸ hq) ?_ ?_
  · rw [hcore, hs]; exact hu
  · rw [hs]; exact htb
  · rwa [State.landBroken_isSome_congr hs]

end

/-- A core that issues is not held. -/
theorem State.stopped_of_issues {s : State} {n c : Nat} (hi : s.issues n c = true) : (s.core c).stopped = none := by
  simp only [State.issues, Bool.and_eq_true, beq_iff_eq] at hi
  tauto

theorem State.dueUnit_landedAt (s : State) (n c st : Nat) : (s.landedAt n).dueUnit c st = s.dueUnit c st := by
  rw [s.landedAt_landsTo n]
  rfl

theorem State.takes_landedAt_valid {s : State} {r : RunState} (n c st : Nat) (inj : Bool) (hr : s.run = some r) :
    ((s.landedAt n).takes c (s.landedAt n).runUnits st inj).valid = (s.fuse.unitAt r.units (s.fuse.pos c) st).isSome := by
  have hf : (s.landedAt n).fuse = s.fuse := by rw [s.landedAt_landsTo n]
  have hr' : (s.landedAt n).run = some r := by rw [s.landedAt_landsTo n, hr]
  rw [State.takes_valid, State.runUnits_of_run hr', hf]

theorem State.takes_landedAt_tag {s : State} {r : RunState} {c st u : Nat} (n : Nat) (inj : Bool) (hr : s.run = some r)
    (hu : s.fuse.unitAt r.units (s.fuse.pos c) st = some u) : ((s.landedAt n).takes c (s.landedAt n).runUnits st inj).tag = u := by
  have hf : (s.landedAt n).fuse = s.fuse := by rw [s.landedAt_landsTo n]
  have hr' : (s.landedAt n).run = some r := by rw [s.landedAt_landsTo n, hr]
  refine State.takes_tag inj ?_
  rwa [State.runUnits_of_run hr', hf]

section
variable {s : State} {n c : Nat} (rt late : Nat) (hc : c < 160) (hi : s.issues n c = true)
include hc hi

/-- No unit is due: the core steps from where it was, and with no round under way its return lane sends nothing. -/
theorem stepCore_landedAt_of_none (hu : s.dueUnit c (s.core c).stepNo = none) :
    ((s.landedAt n).stepCore n false rt late c ((s.landedAt n).core c)).1.work =
      { (s.core c).work with
        wbufActive := (s.core c).fwd, fwd := (s.landedAt n).takes c (s.landedAt n).runUnits (s.core c).stepNo false
        stepNo := (s.core c).stepNo + 1, lastStep := some n } ∧
    ((s.core c).round = none → ((s.landedAt n).stepCore n false rt late c ((s.landedAt n).core c)).1.ret = {}) := by
  have hself : (s.landedAt n).core c = s.core c := core_landedAt_eq_self hc hi fun u tb hu' => by simp [hu] at hu'
  rw [hself, stepCore_of_none false rt late ((s.dueUnit_landedAt n c _).trans hu)]
  obtain ⟨hw, broken, k, hk, hret⟩ := stepCore_go_spec (s.landedAt n) n false rt c (s.core c) (s.core c).stepNo (s.landedAt n).runUnits none
  exact ⟨hw, fun hround => hret.trans (returnStep_ret_of_idle _ _ _ _ _ _ (hk.trans hround))⟩

/-- The due unit has not landed and its fetch can be made: the core stops. -/
theorem stepCore_landedAt_of_late {u : Nat} (hu : s.dueUnit c (s.core c).stepNo = some u) (hk : (s.core c).hasUnit u = false)
    (hb : ∀ tb, s.injTable false = some tb → s.landBroken c u false tb = none) :
    (s.landedAt n).stepCore n false rt late c ((s.landedAt n).core c) =
      ({ s.core c with late := some (1 + late % 3, none), stopped := some n }, none) := by
  have hself : (s.landedAt n).core c = s.core c := core_landedAt_eq_self hc hi fun v tb hv htb => by
    obtain rfl : u = v := Option.some.inj (hu.symm.trans hv)
    exact hb tb htb
  rw [hself, stepCore_of_not_hasUnit false rt late ((s.dueUnit_landedAt n c _).trans hu) hk]

/-- The due unit is asked for and its fetch cannot be made: it has landed, and the core steps. -/
theorem stepCore_landedAt_of_broken {u : Nat} {tb : Table} (hu : s.dueUnit c (s.core c).stepNo = some u)
    (hq : (s.core c).injq.any (fun i => i.unit == u && !i.forNext) = true) (htb : s.injTable false = some tb)
    (hb : (s.landBroken c u false tb).isSome = true) :
    ((s.landedAt n).stepCore n false rt late c ((s.landedAt n).core c)).1.stopped = none ∧
      ((s.landedAt n).stepCore n false rt late c ((s.landedAt n).core c)).1.stepNo = (s.core c).stepNo + 1 := by
  have hland := s.core_landedAt_landsTo n c
  have hdue : (s.landedAt n).dueUnit c ((s.landedAt n).core c).stepNo = some u := by rw [s.dueUnit_landedAt, hland.stepNo, hu]
  rw [stepCore_of_hasUnit false rt late hdue (hasUnit_core_landedAt hc hi hu hq htb hb)]
  obtain ⟨hw, -⟩ := stepCore_go_spec (s.landedAt n) n false rt c ((s.landedAt n).core c) ((s.landedAt n).core c).stepNo
    (s.landedAt n).runUnits (some u)
  exact ⟨(congrArg Core.Work.stopped hw).trans (hland.stopped.trans (State.stopped_of_issues hi)),
    (congrArg Core.Work.stepNo hw).trans (congrArg (· + 1) hland.stepNo)⟩

end

/-- Settles O25: what a STEP leaves on an issuing core is what stepCore says of it after the landings, in each of the three cases. -/
theorem stepSwapsAndSends : Obligations.StepSwapsAndSends := by
  intro n late rt s h
  obtain ⟨t, hexec, hmem, hcore⟩ := execStepChurn_spec h late
  refine ⟨t, hexec false, hexec true, fun a => congrArg (Sparse.get unlisted · a) hmem, fun c hc hi => ?_⟩
  obtain ⟨l, hl⟩ := hcore c hc hi
  rw [hl]
  refine ⟨fun hu hround => ?_, fun u hu hk hb => ?_, fun u tb hu hq htb hb => stepCore_landedAt_of_broken rt late hc hi hu hq htb hb⟩
  · obtain ⟨hw, hret⟩ := stepCore_landedAt_of_none rt late hc hi hu
    have hfwd := congrArg Core.Work.fwd hw
    refine ⟨congrArg Core.Work.stepNo hw, congrArg Core.Work.lastStep hw, congrArg Core.Work.wbufActive hw, congrArg Core.Work.sregs hw,
      congrArg Core.Work.pail hw, congrArg Core.Work.acc hw, hret hround, fun r hr => ⟨?_, fun u hu => ?_⟩⟩
    · rw [← State.takes_landedAt_valid n c _ false hr]
      exact iff_of_eq (congrArg (·.valid = true) hfwd)
    · exact (congrArg Held.tag hfwd).trans (State.takes_landedAt_tag n false hr hu)
  · rw [stepCore_landedAt_of_late rt late hc hi hu hk hb]
    exact ⟨rfl, rfl, rfl, rfl⟩

end Sys2Proof.Machine

namespace Sys2Proof.Tests
open Sys2Proof.Machine

/-- An injection table whose entries stand at the start of scratchpad. -/
def injectTable : Table :=
  { ut := 0, op := false, handle := 0, act := 0, base := 0, base2 := 0, count := 1
    plan := { ut := 0, opKeep := false, add := false, doneSem := 0, wOff := 0, wMul := 0, wMod := 0, tOff := 0, tMul := 0, tMod := 0
              blockMask := 0, rowMaskInit := 0, rsvOk := true } }

/-- The core before the STEP of unit 0, which it has asked for; the table's entry for that unit is damaged. -/
def steppingDamaged : State :=
  { stepping 1 with prog := (stepping 1).prog.map (fun p => { p with tables := [injectTable] }), bytePar := [(spadBase 0, true)] }

/-- The clause of a unit whose fetch cannot be made speaks of something. -/
theorem meets_StepSwapsAndSends_unfetchable : slotRuns steppingDamaged 0 (stepWord false 0) = true ∧ steppingDamaged.issues 0 0 = true ∧
    steppingDamaged.dueUnit 0 (steppingDamaged.core 0).stepNo = some 0 ∧ (steppingDamaged.core 0).hasUnit 0 = false ∧
    (steppingDamaged.core 0).injq.any (fun i => i.unit == 0 && !i.forNext) = true ∧ steppingDamaged.injTable false = some injectTable ∧
    (steppingDamaged.landBroken 0 0 false injectTable).isSome = true := by decide +kernel

end Sys2Proof.Tests
end

section
/-! PROOFS. Delivered and injected units (03 R91, R669; 04 R124; 07 R222). It is said once what a record, the end of a command and the end of
waits leave alone, what the recording of a read leaves alone, and what each operation on an injection queue leaves of a unit. -/

namespace Sys2Proof.Machine

/-! ### Records, events and the ends of commands (17 R546 to R552) -/

/-- What records, events and the ends of commands leave alone: memory, the cores, the device-global semaphores. -/
structure State.Data where
  mem : List Host.Cell
  cores : Sparse Core
  gsems : Sparse Nat

/-- Memory, the cores and the device-global semaphores. -/
def State.data (s : State) : State.Data := ⟨s.mem, s.cores, s.gsems⟩

theorem foldl_data {α : Type} {f : State → α → State} (hf : ∀ s x, (f s x).data = s.data) (l : List α) (s : State) :
    (l.foldl f s).data = s.data :=
  List.foldlRecOn (motive := fun t => t.data = s.data) l f rfl fun t ht x _ => (hf t x).trans ht

@[simp] theorem State.setCring_data (s : State) (r : Nat) (k : CRing) : (s.setCring r k).data = s.data := rfl

@[simp] theorem State.setEring_data (s : State) (e : Nat) (k : ERing) : (s.setEring e k).data = s.data := rfl

@[simp] theorem State.modCmd_data (s : State) (i : Nat) (f : Cmd → Cmd) : (s.modCmd i f).data = s.data := rfl

@[simp] theorem State.hostWrite_data (s : State) (a : Nat) (bs : List MByte) (o : Owner) : (s.hostWrite a bs o).data = s.data := by
  simp only [State.hostWrite]
  split <;> rfl

@[simp] theorem State.writeRecord_data (s : State) (e : Nat) (rec : List Byte) : (s.writeRecord e rec).data = s.data := by
  simp [State.writeRecord]

theorem State.post_data {s t : State} {e : Nat} {rec : List Byte} (h : s.post e rec = some t) : t.data = s.data := by
  simp only [State.post] at h
  split at h
  · cases h
    exact s.writeRecord_data e rec
  · split at h <;> cases h
    rfl

@[simp] theorem State.postEvent_data (s : State) (e kind source status : Nat) (detail : List Byte) :
    (s.postEvent e kind source status detail).data = s.data := by
  simp only [State.postEvent]
  split
  next h => exact (State.post_data h :)
  next => rfl

@[simp] theorem State.endCmd_data (s : State) (id : Nat) : (s.endCmd id).data = s.data := by
  simp only [State.endCmd]
  split
  · rfl
  · split
    · rfl
    · split <;> rfl

theorem State.postWait_data {s t : State} {w : WaitRec} (h : s.postWait w = some t) : t.data = s.data := by
  simp only [State.postWait] at h
  split at h
  next hp =>
    cases h
    simp [State.post_data hp]
  next => cases h

theorem flushList_data (l : List WaitRec) (s : State) : (flushList l s).data = s.data := by
  induction l generalizing s with
  | nil => rfl
  | cons w t ih =>
    unfold flushList
    split
    next h => rw [ih, State.postWait_data h]
    next => exact ih _

theorem State.addWait_data (s : State) (w : WaitRec) : (s.addWait w).data = s.data := flushList_data ..

@[simp] theorem State.tryPost_data (s : State) (id : Nat) : (s.tryPost id).data = s.data := by
  unfold State.tryPost
  split
  · split
    · split
      · exact State.addWait_data ..
      · rfl
    · rfl
  · rfl

@[simp] theorem State.complete_data (s : State) (id : Nat) (found : List Nat) (detail : List Byte) :
    (s.complete id found detail).data = s.data := by simp [State.complete]

theorem State.waitsMet_data (s : State) : s.waitsMet.data = s.data := by
  refine foldl_data (fun s c => ?_) _ s
  split
  · exact s.complete_data ..
  · rfl

/-! ### Reads by a party outside the compute plane (12 R371, R376; 07 R209) -/

theorem State.wordRead_data (s : State) (w : Nat) : (s.wordRead w).data = s.data := by
  simp only [State.wordRead]
  split
  · rfl
  · split <;> rfl
  · exact State.postEvent_data ..
  · rfl

/-- The recording of a read changes no byte. -/
theorem State.noteRead_mem (s : State) (a n : Nat) : (s.noteRead a n).mem = s.mem := by
  simp only [State.noteRead]
  split
  · exact congrArg State.Data.mem (foldl_data State.wordRead_data _ s)
  · split <;> rfl

theorem State.foldl_noteRead_mem {α : Type} (a n : α → Nat) (l : List α) (s : State) :
    (l.foldl (fun s p => s.noteRead (a p) (n p)) s).mem = s.mem :=
  List.foldlRecOn (motive := fun t : State => t.mem = s.mem) l _ rfl fun t ht p _ => (t.noteRead_mem (a p) (n p)).trans ht

/-! ### A change of a device-global semaphore (10 R310, R311) -/

/-- The first change of a semaphore in its period starts at the semaphore's value. -/
theorem netOf_addNet_of_none {l : List SemNet} {idx : Nat} (h : netOf l idx = none) (cur : Nat) (amount : Int) :
    netOf (addNet l idx cur amount) idx = some ⟨idx, cur, amount⟩ := by
  have hany : l.any (fun c => c.idx == idx) = false := by simpa [netOf] using h
  rw [netOf] at h
  simp [addNet, hany, netOf, h]

theorem State.gsemChange_cores (s : State) (idx : Nat) (amount : Int) : (s.gsemChange idx amount).cores = s.cores := by
  unfold State.gsemChange
  split <;> rfl

theorem State.gsemChange_mem (s : State) (idx : Nat) (amount : Int) : (s.gsemChange idx amount).mem = s.mem := by
  unfold State.gsemChange
  split <;> rfl

/-- The device-global semaphores after the first addition to one of them in its period. -/
theorem State.get_gsems_gsemChange {s : State} {idx : Nat} (h : netOf s.gsemNet idx = none) {n : Nat} (hn : n ≠ 0) (j : Nat) :
    Sparse.get 0 (s.gsemChange idx n).gsems j =
      if j = idx then min (Sparse.get 0 s.gsems idx + n) (2 ^ 32 - 1) else Sparse.get 0 s.gsems j := by
  rw [State.gsemChange, if_neg (by exact_mod_cast hn)]
  simp only [netOf_addNet_of_none h, Sparse.get_set, Option.map_some, Option.getD_some, SemNet.value]
  norm_cast

/-! ### The injection queue (03 R91, R669) -/

/-- An entry for the unit, after the entries for that unit are changed, is one that the change has made. -/
theorem mem_map_ite_unit {l : List InjUnit} {f : InjUnit → InjUnit} {u : Nat} {fn : Bool} {x : InjUnit}
    (hx : x ∈ l.map (fun i => if i.unit = u ∧ i.forNext = fn then f i else i)) (hu : x.unit = u) (hfn : x.forNext = fn) : ∃ i, x = f i := by
  obtain ⟨i, -, rfl⟩ := List.mem_map.1 hx
  split at hu
  next h => exact ⟨i, if_pos h⟩
  next h => exact absurd ⟨hu, by rwa [if_neg h] at hfn⟩ h

/-- The same of one core's queue, changed where the unit stands. -/
theorem State.mem_injq_modInj {s : State} {c u : Nat} {fn : Bool} {f : InjUnit → InjUnit} {x : InjUnit}
    (hx : x ∈ ((s.modInj c u fn f).core c).injq) (hu : x.unit = u) (hfn : x.forNext = fn) : ∃ i, x = f i := by
  rw [State.modInj, State.core_setCore, if_pos rfl] at hx
  exact mem_map_ite_unit hx hu hfn

/-- Every entry for a unit that lands is marked so, with what its fetch found. -/
theorem State.landed_of_mem_landUnit {s : State} {c u cond : Nat} {fn : Bool} {d : UnitData} {x : InjUnit}
    (hx : x ∈ ((s.landUnit c u fn d cond).core c).injq) (hu : x.unit = u) (hfn : x.forNext = fn) : x.landed = true ∧ x.cond = cond := by
  rw [State.landUnit, State.core_setCore, if_pos rfl] at hx
  obtain ⟨i, rfl⟩ := mem_map_ite_unit hx hu hfn
  exact ⟨rfl, rfl⟩

/-- A unit lands with the data given. -/
theorem State.get_units_landUnit (s : State) (c u : Nat) (d : UnitData) (cond : Nat) :
    Sparse.get ⟨[], [], false⟩ (s.landUnit c u false d cond).units u = d := Sparse.get_set_self ..

/-- An undamaged entry whose parts all lie in range can be fetched through. -/
theorem State.landBroken_eq_none {s : State} {c u : Nat} {tb : Table} (fn : Bool) (hbad : s.spadBad c (tb.base2 + 16 * (u / 4)) 16 = false)
    (hok : ∀ p ∈ (s.unitParts c tb u).1 ++ (s.unitParts c tb u).2, s.rangeOk false c p.1 (p.1 + p.2 - 1) = true) :
    s.landBroken c u fn tb = none := by
  have hall := List.all_eq_true.2 hok
  simp [State.landBroken, hbad, hall]

/-- Through a damaged entry the unit lands poisoned. -/
theorem State.landBroken_of_spadBad {s : State} {c u : Nat} {tb : Table} (fn : Bool) (hbad : s.spadBad c (tb.base2 + 16 * (u / 4)) 16 = true) :
    ∃ k d, s.landBroken c u fn tb = some ((s.setCore c k).landUnit c u fn d 1) ∧ d.poison = true := by
  simp only [State.landBroken, hbad, if_true]
  exact ⟨_, _, rfl, rfl⟩

/-- The data of a unit whose parts, all of them clean, are read by core c. -/
def State.fetchedUnit (s : State) (c : Nat) (parts : List (Nat × Nat) × List (Nat × Nat)) : UnitData :=
  let bytes := fun (p : Nat × Nat) => s.bytesAt (resolveSelf c p.1) p.2
  ⟨parts.1.flatMap bytes, parts.2.flatMap bytes, false⟩

/-- The fetch of a unit through a sound entry, all of whose parts are clean: its bytes are kept, and its entries are marked as read. -/
theorem State.injRead_of_clean {s : State} {c : Nat} {i : InjUnit} {tb : Table} (hfn : i.forNext = false)
    (hland : s.landBroken c i.unit i.forNext tb = none)
    (hclean : ∀ p ∈ (s.unitParts c tb i.unit).1 ++ (s.unitParts c tb i.unit).2, s.anyBad (resolveSelf c p.1) p.2 = false) :
    ∃ t : State, t.mem = s.mem ∧ s.injRead c i tb [] none =
      { t.modInj c i.unit false (fun i => { i with asked := true }) with
        units := Sparse.set ⟨[], [], false⟩ t.units i.unit (s.fetchedUnit c (s.unitParts c tb i.unit)), noProgress := 0 } := by
  have hbad : ((s.unitParts c tb i.unit).1 ++ (s.unitParts c tb i.unit).2).any (fun p => s.anyBad (resolveSelf c p.1) p.2) = false := by
    simpa only [List.any_eq_false, Bool.not_eq_true] using hclean
  refine ⟨_, State.foldl_noteRead_mem (fun p : Nat × Nat => resolveSelf c p.1) Prod.snd
    ((s.unitParts c tb i.unit).1 ++ (s.unitParts c tb i.unit).2) s, ?_⟩
  rw [hfn] at hland
  simp only [State.injRead, hfn, hland, State.discarded, Option.map_none, State.upset, List.foldl_nil, hbad, Bool.false_eq_true, if_false]
  rfl

/-! ### The commands (R91, R124, R222) -/

theorem State.byteAt_congr {s t : State} (h : t.mem = s.mem) (b : Nat) : t.byteAt b = s.byteAt b := congrArg (Sparse.get unlisted · b) h

/-- Core c forgets a delivery. -/
def State.forgetDelivery (s : State) (c id : Nat) : State :=
  s.setCore c { s.core c with deliveries := (s.core c).deliveries.filter (fun x => x.id != id) }

/-- A delivered unit that names a semaphore, its writes acknowledged in earlier cycles, is forgotten and adds 1 to it. -/
theorem execDeliverySignal_of_done {s : State} {c id i : Nat} {d : DeliveryOp} (hl : s.clk.lost = false)
    (hd : (s.core c).deliveries.find? (fun d => d.id == id) = some d) (ho : d.outst = 0) (ht : d.doneAt < s.epoch) (hi : d.done = some i) :
    execDeliverySignal c id s = .next ((s.forgetDelivery c id).gsemChange i 1).waitsMet := by
  rw [execDeliverySignal, live_of _ _ hl]
  simp only [hd, ho, ht, hi, and_self, if_true]
  rfl

/-- What an addition to a device-global semaphore leaves, the waits that it meets over. -/
theorem State.gsemChange_waitsMet_spec (s : State) (i : Nat) (amount : Int) :
    (s.gsemChange i amount).waitsMet.mem = s.mem ∧ (s.gsemChange i amount).waitsMet.cores = s.cores ∧
      (s.gsemChange i amount).waitsMet.gsems = (s.gsemChange i amount).gsems := by
  have h := (s.gsemChange i amount).waitsMet_data
  exact ⟨(congrArg State.Data.mem h).trans (s.gsemChange_mem i amount), (congrArg State.Data.cores h).trans (s.gsemChange_cores i amount),
    congrArg State.Data.gsems h⟩

/-- A read request that finds a fetch ready at an injector serves its queue 7 with the fetch of the next unit, and the other
queues' turn stays. -/
theorem execReadRequest_of_injReady {s : State} {c : Nat} {i : InjUnit} {tb : Table} (hl : s.clk.lost = false) (hc : s.clocked c = true)
    (hs : s.meshRegs.service = true) (hr : s.injReady c = true) (hi : (s.core c).nextAsk = some i) (ht : s.injTable i.forNext = some tb)
    (id : Nat) (upset : List (Nat × Nat)) (hdr : Option Nat) :
    execReadRequest c 7 id upset hdr s = .next ((s.setCore c (s.core c)).injRead c i tb upset hdr) := by
  rw [execReadRequest, live_of _ _ hl]
  simp [hc, hs, hr, hi, ht, State.ladleGrant]

/-- A packet that no router damages arrives as it was sent. -/
theorem State.payload_nil (s : State) (bs : List MByte) (router : Nat) : s.payload bs [] router = (s, bs) := rfl

theorem anyMarked_markAll_false (bs : List Byte) : anyMarked (markAll false bs) = false := by
  simp [anyMarked, markAll]

section
variable {s : State} {c u : Nat} {tb : Table} {i : InjUnit} (hl : s.clk.lost = false) (ht : s.injTable false = some tb)
  (hc : s.clocked c = true) (hi : (s.core c).injq.find? (fun x => x.unit == u && x.forNext == false && !x.landed) = some i)
include hl ht hc hi

/-- A unit that has been read, and whose packets come through whole, lands with the data read. -/
theorem execInjectedUnitLanded_of_asked (ha : i.asked = true) (hlost : i.lost = false) (router : Nat) :
    ∃ cond, execInjectedUnitLanded c u false ⟨[], router, false⟩ s =
      .next (s.landUnit c u false (Sparse.get ⟨[], [], false⟩ s.units u) cond) := by
  rw [execInjectedUnitLanded, live_of _ _ hl]
  simp only [ht, hi, hc, ha, hlost, State.payload_nil, anyMarked_markAll_false, Bool.not_true, Bool.false_eq_true, if_false, Bool.false_and,
    Bool.or_false]
  exact ⟨_, rfl⟩

/-- A unit that has not been read, through an entry that is damaged, lands at once and poisoned. -/
theorem execInjectedUnitLanded_of_damaged (ha : i.asked = false) (hbad : s.spadBad c (tb.base2 + 16 * (u / 4)) 16 = true) (way : Way) :
    ∃ k d, execInjectedUnitLanded c u false way s = .next ((s.setCore c k).landUnit c u false d 1) ∧ d.poison = true := by
  obtain ⟨k, d, e, hpoison⟩ := State.landBroken_of_spadBad false hbad
  refine ⟨k, d, ?_, hpoison⟩
  rw [execInjectedUnitLanded, live_of _ _ hl]
  simp only [ht, hi, hc, ha, e, Option.getD_some, Bool.not_true, Bool.not_false, Bool.false_eq_true, if_false, if_true]

end

/-- Settles O30, for a delivery's signal, the fetch of a sound unit, the landing of a fetched unit and that of a damaged entry's: each command
is one operation on the state, and that operation's rules say what it leaves of the semaphore, the queue, the unit and memory. -/
theorem unitsDeliverAndLand : Obligations.UnitsDeliverAndLand := by
  refine ⟨fun c id i s d hl hd ho ht hi hnet => ?_, fun c id s i tb hl hc hs hr hi ht hfn => ?_,
    fun c u router s tb i hl ht hc hi ha hlost => ?_, fun c u router bad s tb i hl ht hc hi ha hbad => ?_⟩
  · obtain ⟨hmem, hcores, hgsems⟩ := (s.forgetDelivery c id).gsemChange_waitsMet_spec i 1
    have hget := State.get_gsems_gsemChange (s := s.forgetDelivery c id) hnet one_ne_zero
    refine ⟨_, execDeliverySignal_of_done hl hd ho ht hi, State.byteAt_congr hmem, ?_, ?_, fun j hj => ?_⟩
    · rw [State.core, hcores]
      exact congrArg Core.deliveries (Sparse.get_set_self ..)
    · rw [hgsems]
      exact (hget i).trans (if_pos rfl)
    · rw [hgsems]
      exact (hget j).trans (if_neg hj)
  · intro parts bytes hsound hparts
    have hland : (s.setCore c (s.core c)).landBroken c i.unit i.forNext tb = none :=
      State.landBroken_eq_none _ hsound fun p hp => (hparts p hp).1
    obtain ⟨t, ht', e⟩ := State.injRead_of_clean hfn hland fun p hp => (hparts p hp).2
    refine ⟨_, (execReadRequest_of_injReady hl hc hs hr hi ht id [] none).trans (congrArg _ e), State.byteAt_congr ht',
      fun x hx hu hf => ?_, Sparse.get_set_self ..⟩
    obtain ⟨j, rfl⟩ := State.mem_injq_modInj hx hu hf
    rfl
  · obtain ⟨cond, e⟩ := execInjectedUnitLanded_of_asked hl ht hc hi ha hlost router
    exact ⟨_, e, fun _ => rfl, fun x hx hu hf => (State.landed_of_mem_landUnit hx hu hf).1, State.get_units_landUnit ..⟩
  · obtain ⟨k, d, e, hpoison⟩ := execInjectedUnitLanded_of_damaged hl ht hc hi ha hbad ⟨bad, router, false⟩
    refine ⟨_, e, fun _ => rfl, fun x hx hu hf => ?_, ?_⟩
    · obtain ⟨hlanded, hcond⟩ := State.landed_of_mem_landUnit hx hu hf
      exact ⟨hlanded, hcond ▸ rfl⟩
    · exact (congrArg UnitData.poison ((s.setCore c k).get_units_landUnit c u d 1)).trans hpoison

end Sys2Proof.Machine
end

section
/-! PROOFS. The vector slot's results (06 R163 to R194, 08 R244 to R247). Each shared operation is said once to leave its result due; each table
of commands is tied row by row to the operation that its rows issue, with the word of a lane as the table gives it. -/

namespace Sys2Proof.Machine

open Sys2Proof.Claims

/-! ### Lanes as mask bits (R165) -/

theorem getLsbD_maskOf (p : Nat → Bool) {i : Nat} (hi : i < 128) : (maskOf p).getLsbD i = p i := by
  rw [maskOf, BitVec.getLsbD_setWidth, BitVec.getLsbD_ofBoolListLE]
  simp [hi]

/-! ### What the shared operations leave due -/

section
variable (s : State) (n : Nat) (v : VFields) (c : Nat) (k : Core)

theorem Core.vector_lanesDue (lat item : Nat) (srcs : List VSrc) (ms : List Nat) (op : Core → Nat → Nat → W32) :
    LanesDue s n lat v srcs ms (fun c a i => op a c i) c k (Core.vector s n lat item v srcs ms op c k) := by
  refine ⟨_, _, _, due_land _ _ _ _ _ _ (vecReads_kept ..) (vecReads_queue ..) (vecReads_stallDue ..), ?_, fun i hi => ⟨?_, ?_⟩⟩
  · rw [List.any_map]
    rfl
  · cases v.zero
    · exact getLsbD_maskOf _ hi
    · exact (BitVec.getLsbD_allOnes ..).trans (decide_eq_true hi)
  · simp [hi]

theorem Core.compare_maskDue (p : W32 → W32 → Bool) : MaskDue s n v p c k (Core.compare s n v p c k) := by
  refine ⟨_, _, due_land _ _ _ _ _ _ (vecReads_kept ..) (vecReads_queue ..) (vecReads_stallDue ..), ?_, fun i hi => getLsbD_maskOf _ hi⟩
  simp

/-- A reduction leaves its one word due in every lane, 10 counts after issue. -/
theorem Core.reduce_due (f : List (Bool × W32) → W32) :
    CoreDue k (Core.reduce s n v f c k) (n + 9) n (.land (.slot v.vd (BitVec.allOnes 128)
      (List.replicate 128 (f ((List.range 128).map fun i => (k.active s.free c n v.mask i, k.src s.free c n v.va i))))
      (k.slotPoison v.va.slot || k.maskPois v.mask))) :=
  due_land _ _ _ _ _ _ (vecReads_kept ..) (vecReads_queue ..) (vecReads_stallDue ..)

theorem Core.maskOp_due (md ma mb : Nat) (f : BitVec 128 → BitVec 128 → BitVec 128) :
    CoreDue k (Core.maskOp s n md ma mb f c k) (n + 3) n
      (.land (.mask md (f (k.readMask s.free c n ma) (k.readMask s.free c n mb)) (k.maskPois ma || k.maskPois mb))) :=
  due_land _ _ _ _ _ _ (vecReads_kept ..) (vecReads_queue ..) (vecReads_stallDue ..)

end

/-! ### Commands by the operation they issue -/

/-- The command is a slot command that issues f on the word of opcode op. -/
def VIssues (mk : Nat → Bool → VFields → Instr) (op : Nat) (f : Nat → VFields → State → Nat → Core → Core) : Prop :=
  ∀ n l v s, exec (mk n l v) s = fetched s n (vWord op v) (.next (s.slot n l (f n v)))

theorem VIssues.gives {mk : Nat → Bool → VFields → Instr} {op : Nat} {f : Nat → VFields → State → Nat → Core → Core}
    (h : VIssues mk op f) {n : Nat} {v : VFields} {s : State} {P : Nat → Core → Core → Prop} (hP : ∀ c k, P c k (f n v s c k)) :
    SlotGives (fun l => mk n l v) (vWord op v) s n P :=
  slot_gives (f n v) (fun l => h n l v s) fun c _ => hP c _

/-- A row of a table of one-source commands: the command issues, as an item of the contract table, the row's word in each lane. -/
def IssuesUnary (e : (Nat → Bool → VFields → Instr) × Nat × Nat × (W32 → W32)) : Prop :=
  ∃ item f, (VIssues e.1 e.2.1 fun n v s => Core.vec1 s n e.2.2.1 item v f) ∧ ∀ a, f a = e.2.2.2 a

/-- The same of two sources. -/
def IssuesBinary (e : (Nat → Bool → VFields → Instr) × Nat × Nat × (W32 → W32 → W32)) : Prop :=
  ∃ item f, (VIssues e.1 e.2.1 fun n v s => Core.vec2 s n e.2.2.1 item v f) ∧ ∀ a b, f a b = e.2.2.2 a b

/-! ### Words of one source (R176, R245) -/

theorem isNaN32_iff (a : W32) : isNaN32 a = true ↔ f32 a = .nan := by simp [isNaN32]

theorem and_signless (a : W32) : a &&& 0x7FFFFFFF#32 = BitVec.ofNat 32 (a.toNat % 2 ^ 31) := by
  apply BitVec.eq_of_toNat_eq
  have hm : (0x7FFFFFFF#32).toNat = 2 ^ 31 - 1 := by decide
  rw [BitVec.toNat_and, hm, Nat.and_two_pow_sub_one_eq_mod, BitVec.toNat_ofNat]
  omega

theorem xor_sign (a : W32) : a ^^^ 0x80000000#32 = BitVec.ofNat 32 (a.toNat + 2 ^ 31) := by
  apply BitVec.eq_of_toNat_eq
  have hmod : (a.toNat ^^^ 2 ^ 31) % 2 ^ 31 = a.toNat % 2 ^ 31 := by
    rw [Nat.xor_mod_two_pow, Nat.mod_self, Nat.xor_zero]
  have hdiv : (a.toNat ^^^ 2 ^ 31) / 2 ^ 31 = a.toNat / 2 ^ 31 ^^^ 1 := Nat.xor_div_two_pow ..
  have ha := a.isLt
  have hs : (0x80000000#32).toNat = 2 ^ 31 := by decide
  rw [BitVec.toNat_xor, hs, BitVec.toNat_ofNat]
  obtain h | h : a.toNat / 2 ^ 31 = 0 ∨ a.toNat / 2 ^ 31 = 1 := by omega
  · rw [h, Nat.zero_xor] at hdiv
    omega
  · rw [h, Nat.xor_self] at hdiv
    omega

theorem clampInt_natAbs (i : Int) : clampInt 32 i.natAbs = min (2 ^ 31 - 1) (i.natAbs : Int) := by
  simp only [clampInt]
  omega

theorem not_eq_ofNat (a : W32) : ~~~a = BitVec.ofNat 32 (2 ^ 32 - 1 - a.toNat) := by
  apply BitVec.eq_of_toNat_eq
  rw [BitVec.toNat_not, BitVec.toNat_ofNat]
  omega

/-- Each one-source command issues the word that the table gives. -/
theorem laneUnary_issues : ∀ e ∈ laneUnary, IssuesUnary e := by
  simp only [laneUnary, List.forall_mem_cons]
  refine ⟨?fabs, ?fneg, ?fsqrt, ?f2i, ?f2iz, ?i2f, ?iabs, ?vnot, List.forall_mem_nil _⟩
  case fabs => exact ⟨9, _, fun _ _ _ _ => rfl, fun a => if_congr (isNaN32_iff a) rfl (and_signless a)⟩
  case fneg => exact ⟨9, _, fun _ _ _ _ => rfl, fun a => if_congr (isNaN32_iff a) rfl (xor_sign a)⟩
  case fsqrt => exact ⟨10, _, fun _ _ _ _ => rfl, fun _ => rfl⟩
  case iabs => exact ⟨9, _, fun _ _ _ _ => rfl, fun a => congrArg (BitVec.ofInt 32) (clampInt_natAbs a.toInt)⟩
  case vnot => exact ⟨9, _, fun _ _ _ _ => rfl, not_eq_ofNat⟩
  case f2i | f2iz | i2f => exact ⟨9, _, fun _ _ _ _ => rfl, fun _ => rfl⟩

/-! ### Words of two sources (R66, R175, R176, R245) -/

theorem satOp_eq_int32 (f : Int → Int → Int) (a b : W32) : satOp f a b = int32 (f a.toInt b.toInt) := rfl

/-- Where the exact result is an INT32, saturation leaves it. -/
theorem satOp_eq_ofInt {f : Int → Int → Int} {a b : W32} (h : -2 ^ 31 ≤ f a.toInt b.toInt) (h' : f a.toInt b.toInt < 2 ^ 31) :
    satOp f a b = BitVec.ofInt 32 (f a.toInt b.toInt) := by
  rw [satOp_eq_int32, int32, min_eq_right (by omega), max_eq_right h]

theorem satOp_min (a b : W32) : satOp min a b = BitVec.ofInt 32 (min a.toInt b.toInt) := by
  have ha := a.toInt_lt
  have ha' := a.le_toInt
  have hb' := b.le_toInt
  exact satOp_eq_ofInt (by omega) (by omega)

theorem satOp_max (a b : W32) : satOp max a b = BitVec.ofInt 32 (max a.toInt b.toInt) := by
  have ha := a.toInt_lt
  have ha' := a.le_toInt
  have hb := b.toInt_lt
  exact satOp_eq_ofInt (by omega) (by omega)

theorem shiftLeft_eq_ofNat (a : W32) (r : Nat) : a <<< r = BitVec.ofNat 32 (a.toNat * 2 ^ r) := by
  apply BitVec.eq_of_toNat_eq
  rw [BitVec.toNat_shiftLeft, BitVec.toNat_ofNat, Nat.shiftLeft_eq]

theorem shiftRight_eq_ofNat (a : W32) (r : Nat) : a >>> r = BitVec.ofNat 32 (a.toNat / 2 ^ r) := by
  apply BitVec.eq_of_toNat_eq
  rw [BitVec.toNat_ushiftRight, BitVec.toNat_ofNat, Nat.shiftRight_eq_div_pow,
    Nat.mod_eq_of_lt ((Nat.div_le_self ..).trans_lt a.isLt)]

theorem sshiftRight_eq_ofInt (a : W32) (r : Nat) : a.sshiftRight r = BitVec.ofInt 32 (a.toInt / 2 ^ r) := by
  rw [BitVec.sshiftRight_eq, Int.shiftRight_eq_div_pow, Nat.cast_pow, Nat.cast_ofNat]

/-- A rotation puts the bits that leave at the top below the others, which are all zero there. -/
theorem rotateLeft_eq_ofNat (a : W32) {r : Nat} (hr : r < 32) :
    a.rotateLeft r = BitVec.ofNat 32 (a.toNat * 2 ^ r + a.toNat / 2 ^ (32 - r)) := by
  apply BitVec.eq_of_toNat_eq
  have hp : 2 ^ (32 - r) * 2 ^ r = 2 ^ 32 := by rw [← pow_add, Nat.sub_add_cancel hr.le]
  have hlow : a.toNat / 2 ^ (32 - r) < 2 ^ r := Nat.div_lt_of_lt_mul (hp ▸ a.isLt)
  have hhigh : a.toNat * 2 ^ r % 2 ^ 32 = (a.toNat % 2 ^ (32 - r)) <<< r := by rw [← hp, Nat.mul_mod_mul_right, Nat.shiftLeft_eq]
  have hlt : (a.toNat % 2 ^ (32 - r)) <<< r + a.toNat / 2 ^ (32 - r) < 2 ^ 32 := by
    have hm : a.toNat % 2 ^ (32 - r) + 1 ≤ 2 ^ (32 - r) := Nat.mod_lt _ (by positivity)
    calc (a.toNat % 2 ^ (32 - r)) <<< r + a.toNat / 2 ^ (32 - r)
        < (a.toNat % 2 ^ (32 - r) + 1) * 2 ^ r := by rw [Nat.shiftLeft_eq, add_mul, one_mul]; omega
      _ ≤ 2 ^ 32 := hp ▸ Nat.mul_le_mul_right _ hm
  rw [BitVec.toNat_rotateLeft, Nat.mod_eq_of_lt hr, BitVec.toNat_ofNat, Nat.shiftLeft_eq, hhigh, Nat.shiftRight_eq_div_pow,
    ← Nat.shiftLeft_add_eq_or_of_lt hlow, Nat.add_mod, hhigh, Nat.add_mod_mod, Nat.mod_eq_of_lt hlt]

/-- Each two-source command issues the word that the table gives. -/
theorem laneBinary_issues : ∀ e ∈ laneBinary, IssuesBinary e := by
  simp only [laneBinary, List.forall_mem_cons]
  refine ⟨?fadd, ?fsub, ?fmul, ?fmin, ?fmax, ?fdiv, ?iadd, ?isub, ?imul, ?imin, ?imax, ?vand, ?vor, ?vxor, ?vshl, ?vshr, ?vsar, ?rol,
    ?madd, ?mullo, ?mulhi, List.forall_mem_nil _⟩
  case fdiv => exact ⟨10, _, fun _ _ _ _ => rfl, fun _ _ => rfl⟩
  case iadd | isub | imul => exact ⟨9, _, fun _ _ _ _ => rfl, satOp_eq_int32 _⟩
  case imin => exact ⟨9, _, fun _ _ _ _ => rfl, satOp_min⟩
  case imax => exact ⟨9, _, fun _ _ _ _ => rfl, satOp_max⟩
  case vshl => exact ⟨9, _, fun _ _ _ _ => rfl, fun a b => shiftLeft_eq_ofNat a (b.toNat % 32)⟩
  case vshr => exact ⟨9, _, fun _ _ _ _ => rfl, fun a b => shiftRight_eq_ofNat a (b.toNat % 32)⟩
  case vsar => exact ⟨9, _, fun _ _ _ _ => rfl, fun a b => sshiftRight_eq_ofInt a (b.toNat % 32)⟩
  case rol => exact ⟨9, _, fun _ _ _ _ => rfl, fun a b => rotateLeft_eq_ofNat a (Nat.mod_lt b.toNat (by decide))⟩
  case fadd | fsub | fmul | fmin | fmax | vand | vor | vxor | madd | mullo | mulhi => exact ⟨9, _, fun _ _ _ _ => rfl, fun _ _ => rfl⟩

/-- Settles O4: each command issues its table's word in each lane. -/
theorem laneOperationResults : Obligations.LaneOperationResults := by
  refine ⟨fun e he n v s => ?_, fun e he n v s => ?_, fun n v s => slot_gives _ (fun _ => rfl) fun _ _ => Core.vector_lanesDue ..⟩
  · obtain ⟨item, f, h, hf⟩ := laneUnary_issues e he
    obtain rfl : f = e.2.2.2 := funext hf
    exact h.gives fun _ _ => Core.vector_lanesDue ..
  · obtain ⟨item, f, h, hf⟩ := laneBinary_issues e he
    obtain rfl : f = e.2.2.2 := funext₂ hf
    exact h.gives fun _ _ => Core.vector_lanesDue ..

/-! ### Transcendental operations (R188 to R191) -/

/-- Each transcendental command issues its operation's word, readable 12 counts later. -/
theorem laneTranscendental_issues : ∀ e ∈ laneTranscendental,
    VIssues e.1 e.2.1 fun n v s => Core.vec1 s n 12 11 v (transResult e.2.2) := by
  simp only [laneTranscendental, List.forall_mem_cons]
  refine ⟨?exp2, ?exp, ?log2, ?ln, ?rsqrt, ?sinpi, ?cospi, ?tanh, ?sigm, ?erf, List.forall_mem_nil _⟩
  case exp2 | exp | log2 | ln | rsqrt | sinpi | cospi | tanh | sigm | erf => exact fun _ _ _ _ => rfl

/-- Where the spec gives an exact result, the word is that result rounded (R189, R190). -/
theorem transResult_of_exact {op : TransOp} {a : W32} {x : Num} (h : transExact op (f32 a) = some x) : transResult op a = toF32 x := by
  rw [transResult, h]

/-- Settles O5: each command issues the word that `transResult` gives the operand, and that word is the exact result where there is one. -/
theorem transcendentalResults : Obligations.TranscendentalResults := by
  refine fun e he => ⟨fun n v s => ?_, fun a x h => transResult_of_exact h⟩
  exact (laneTranscendental_issues e he).gives fun _ _ => Core.vector_lanesDue ..

/-! ### Lane movement (R178, R181, R182, R194) -/

/-- Settles O6: each command issues a vector operation on the word that the statement names. -/
theorem laneMovementResults : Obligations.LaneMovementResults := by
  refine fun n v s => ⟨?sel, ?perm, ?laneidx, ?genrd, ?frnd⟩
  case sel | perm | laneidx | genrd | frnd => exact slot_gives _ (fun _ => rfl) fun _ _ => Core.vector_lanesDue ..

/-! ### Compares (R65, R167) -/

theorem fcmp_of_not_nan {a b : W32} (ha : f32 a ≠ .nan) (hb : f32 b ≠ .nan) : fcmpEq a b = decide (valKey a = valKey b) ∧
    fcmpLt a b = decide (valKey a < valKey b) ∧ fcmpLe a b = decide (valKey a ≤ valKey b) := by
  simp [fcmpEq, fcmpLt, fcmpLe, isNaN32, ha, hb]

theorem fcmpLt_eq_lt (a b : W32) : fcmpLt a b = (f32 a).lt (f32 b) := by
  by_cases h : f32 a = .nan ∨ f32 b = .nan
  · obtain ⟨-, hlt, -⟩ := fcmp_nan h
    rw [hlt]
    rcases h with h | h <;> simp [h]
  · obtain ⟨ha, hb⟩ := not_or.1 h
    obtain ⟨-, hlt, -⟩ := fcmp_of_not_nan ha hb
    rw [hlt, f32_lt_f32 (not_lt.1 (mt (f32_eq_nan_iff a).2 ha)) (not_lt.1 (mt (f32_eq_nan_iff b).2 hb))]

/-- At most is the converse of above, where neither is a NaN. -/
theorem fcmpLe_eq (a b : W32) : fcmpLe a b = (f32 a != .nan && f32 b != .nan && !(f32 b).lt (f32 a)) := by
  rw [← fcmpLt_eq_lt]
  by_cases h : f32 a = .nan ∨ f32 b = .nan
  · obtain ⟨-, -, hle⟩ := fcmp_nan h
    rcases h with h | h <;> simp [hle, h]
  · obtain ⟨ha, hb⟩ := not_or.1 h
    obtain ⟨-, -, hle⟩ := fcmp_of_not_nan ha hb
    obtain ⟨-, hlt, -⟩ := fcmp_of_not_nan hb ha
    simp [hle, hlt, ha, hb, ← decide_not]

/-- Equal is neither below nor above, where neither is a NaN. -/
theorem fcmpEq_eq (a b : W32) :
    fcmpEq a b = (f32 a != .nan && f32 b != .nan && !(f32 a).lt (f32 b) && !(f32 b).lt (f32 a)) := by
  rw [← fcmpLt_eq_lt, ← fcmpLt_eq_lt]
  by_cases h : f32 a = .nan ∨ f32 b = .nan
  · obtain ⟨heq, -, -⟩ := fcmp_nan h
    rcases h with h | h <;> simp [heq, h]
  · obtain ⟨ha, hb⟩ := not_or.1 h
    obtain ⟨heq, hlt, -⟩ := fcmp_of_not_nan ha hb
    obtain ⟨-, hgt, -⟩ := fcmp_of_not_nan hb ha
    have hkey : valKey a = valKey b ↔ ¬ valKey a < valKey b ∧ ¬ valKey b < valKey a := by omega
    rw [heq, hlt, hgt, decide_eq_decide.2 hkey, bne_iff_ne.2 ha, bne_iff_ne.2 hb, Bool.decide_and, decide_not, decide_not]
    rfl

theorem not_fcmpEq_eq (a b : W32) :
    (!fcmpEq a b) = (f32 a == .nan || f32 b == .nan || (f32 a).lt (f32 b) || (f32 b).lt (f32 a)) := by
  simp [fcmpEq_eq, bne]

theorem beq_eq_beq_toNat (a b : W32) : (a == b) = (a.toNat == b.toNat) :=
  Bool.eq_iff_iff.2 (by rw [beq_iff_eq, beq_iff_eq, BitVec.toNat_inj])

/-- A row of the table of compares: the command issues the row's comparison. -/
def IssuesCompare (e : (Nat → Bool → VFields → Instr) × Nat × (W32 → W32 → Bool)) : Prop :=
  ∃ p, (VIssues e.1 e.2.1 fun n v s => Core.compare s n v p) ∧ ∀ a b, p a b = e.2.2 a b

/-- Each compare issues the comparison that the table gives. -/
theorem compares_issue : ∀ e ∈ compares, IssuesCompare e := by
  simp only [compares, List.forall_mem_cons]
  refine ⟨?fcmpeq, ?fcmpne, ?fcmplt, ?fcmple, ?icmpeq, ?icmpne, ?icmplt, ?icmple, ?ucmplt, ?ucmple, List.forall_mem_nil _⟩
  case fcmpeq => exact ⟨_, fun _ _ _ _ => rfl, fcmpEq_eq⟩
  case fcmpne => exact ⟨_, fun _ _ _ _ => rfl, not_fcmpEq_eq⟩
  case fcmplt => exact ⟨_, fun _ _ _ _ => rfl, fcmpLt_eq_lt⟩
  case fcmple => exact ⟨_, fun _ _ _ _ => rfl, fcmpLe_eq⟩
  case icmpeq => exact ⟨_, fun _ _ _ _ => rfl, beq_eq_beq_toNat⟩
  case icmpne => exact ⟨_, fun _ _ _ _ => rfl, fun a b => congrArg not (beq_eq_beq_toNat a b)⟩
  case icmplt | icmple | ucmplt | ucmple => exact ⟨_, fun _ _ _ _ => rfl, fun _ _ => rfl⟩

/-- Settles O8: each compare issues its table's comparison. -/
theorem compareResults : Obligations.CompareResults := by
  intro e he n v s
  obtain ⟨p, h, hp⟩ := compares_issue e he
  obtain rfl : p = e.2.2 := funext₂ hp
  exact h.gives fun _ _ => Core.compare_maskDue ..

/-! ### Lane reductions (R183 to R187) -/

/-- One level of the tree over 2 m lanes. -/
theorem pairUp_map_range (f : W32 → W32 → W32) (x : Nat → W32) (m : Nat) :
    pairUp f ((List.range (2 * m)).map x) = (List.range m).map fun i => f (x (2 * i)) (x (2 * i + 1)) := by
  induction m generalizing x with
  | zero => rfl
  | succ m ih =>
    have h := ih fun i => x (i + 2)
    rw [show 2 * (m + 1) = 2 * m + 1 + 1 by omega, List.range_succ_eq_map, List.range_succ_eq_map, List.range_succ_eq_map]
    simp only [List.map_cons, List.map_map, pairUp, Function.comp_def, Nat.succ_eq_add_one]
    exact congrArg _ h

/-- One level takes the lanes of level k of the tree to those of level k + 1. -/
theorem pairUp_tree (f : W32 → W32 → W32) (x : Nat → W32) (k m : Nat) :
    pairUp f ((List.range (2 * m)).map (tree f x k)) = (List.range m).map (tree f x (k + 1)) := pairUp_map_range f _ m

theorem laneTree_eq_tree (f : W32 → W32 → W32) (x : Nat → W32) : laneTree f ((List.range 128).map x) = tree f x 7 0 := by
  have h := pairUp_tree f x
  rw [laneTree, show (List.range 128).map x = (List.range (2 * 64)).map (tree f x 0) from rfl, h 0 64, h 1 32, h 2 16, h 3 8, h 4 4, h 5 2,
    h 6 1]
  rfl

/-- The tree with the identity in the inactive lanes (R185). -/
theorem treeOf_eq_tree (ident : W32) (f : W32 → W32 → W32) (act : Nat → Bool) (x : Nat → W32) :
    treeOf ident f ((List.range 128).map fun i => (act i, x i)) = tree f (fun i => if act i then x i else ident) 7 0 := by
  rw [treeOf, List.map_map, ← laneTree_eq_tree]
  rfl

/-- A row of the table of reductions: the command issues the tree of the row's identity and operation. -/
def IssuesTree (e : (Nat → Bool → VFields → Instr) × Nat × W32 × (W32 → W32 → W32)) : Prop :=
  ∃ f, (VIssues e.1 e.2.1 fun n v s => Core.reduce s n v (treeOf e.2.2.1 f)) ∧ ∀ a b, f a b = e.2.2.2 a b

/-- Each reduction issues the tree that the table gives. -/
theorem reductions_issue : ∀ e ∈ reductions, IssuesTree e := by
  simp only [reductions, List.forall_mem_cons]
  refine ⟨?rfsum, ?risum, ?rfmax, ?rfmin, ?rimax, ?rimin, List.forall_mem_nil _⟩
  case risum => exact ⟨_, fun _ _ _ _ => rfl, satOp_eq_int32 _⟩
  case rimax => exact ⟨_, fun _ _ _ _ => rfl, satOp_max⟩
  case rimin => exact ⟨_, fun _ _ _ _ => rfl, satOp_min⟩
  case rfsum | rfmax | rfmin => exact ⟨_, fun _ _ _ _ => rfl, fun _ _ => rfl⟩

/-- With no active lane RIDXMAX gives all ones (R187). -/
theorem indexOfMax_of_inactive {l : List (Bool × W32)} (h : ∀ p ∈ l, p.1 = false) : indexOfMax l = 0xFFFFFFFF := by
  have hz : ∀ p ∈ l.zipIdx, p.1.1 = false := fun p hp => h p.1 (List.fst_mem_of_mem_zipIdx hp)
  have hfind : l.zipIdx.find? (fun p => p.1.1 && isNaN32 p.1.2) = none :=
    List.find?_eq_none.2 fun p hp => by simp [hz p hp]
  simp only [indexOfMax, hfind]
  split
  next q hq =>
    refine absurd hq (List.foldlRecOn (motive := fun b => b ≠ some q) _ _ (Option.some_ne_none q).symm fun b hb p hp => ?_)
    simpa [hz p hp] using hb
  next => rfl

/-- The first active lane that holds a NaN is RIDXMAX's answer (R187). -/
theorem indexOfMax_of_first_nan {l : List (Bool × W32)} {i : Nat} (hi : i < l.length) (hact : l[i].1 = true) (hnan : f32 l[i].2 = .nan)
    (hfirst : ∀ j (hj : j < i), l[j].1 = true → f32 l[j].2 ≠ .nan) : indexOfMax l = BitVec.ofNat 32 i := by
  have hfind : l.zipIdx.find? (fun p => p.1.1 && isNaN32 p.1.2) = some (l[i], i) := by
    refine List.find?_eq_some_iff_getElem.2 ⟨?_, i, by simpa using hi, by simp, fun j hj => ?_⟩
    · simp [hact, isNaN32, hnan]
    · simpa [isNaN32, imp_iff_not_or] using hfirst j hj
  simp only [indexOfMax, hfind]

/-- Settles O9: each reduction issues its table's tree, and the lanes that RIDXMAX looks at are the 128 of the source. -/
theorem reductionResults : Obligations.ReductionResults := by
  refine ⟨fun e he n v s => ?_, fun n v s => ?_⟩
  · obtain ⟨f, h, hf⟩ := reductions_issue e he
    obtain rfl : f = e.2.2.2 := funext₂ hf
    refine h.gives fun _ _ => ?_
    rw [← treeOf_eq_tree]
    exact Core.reduce_due ..
  · have h : VIssues .ridxmax 0x56 fun n v s => Core.reduce s n v indexOfMax := fun _ _ _ _ => rfl
    refine h.gives fun c k => ⟨_, Core.reduce_due .., fun hoff => indexOfMax_of_inactive ?_, fun i hi hact hnan hfirst => ?_⟩
    · simpa using hoff
    · refine indexOfMax_of_first_nan (by simpa using hi) (by simpa using hact) (by simpa using hnan) fun j hj => ?_
      simpa using hfirst j hj

/-! ### Masks and the vector length (R163, R167, R246, R247) -/

/-- A row of the table of mask operations: the command issues an operation on masks that gives the row's bit. -/
def IssuesMaskOp (e : (Nat → Bool → Nat → Nat → Nat → Instr) × Nat × (Bool → Bool → Bool)) : Prop :=
  ∃ f : BitVec 128 → BitVec 128 → BitVec 128, (∀ a b i, i < 128 → (f a b).getLsbD i = e.2.2 (a.getLsbD i) (b.getLsbD i)) ∧
    ∀ n l md ma mb s, exec (e.1 n l md ma mb) s =
      fetched s n (mWord e.2.1 md ma mb) (.next (s.slot n l fun s => Core.maskOp s n md ma mb f))

theorem maskForms_issue : ∀ e ∈ maskForms, IssuesMaskOp e := by
  simp only [maskForms, List.forall_mem_cons]
  refine ⟨⟨(· &&& ·), fun a b i _ => BitVec.getLsbD_and, fun _ _ _ _ _ _ => rfl⟩,
    ⟨(· ||| ·), fun a b i _ => BitVec.getLsbD_or, fun _ _ _ _ _ _ => rfl⟩,
    ⟨(· ^^^ ·), fun a b i _ => BitVec.getLsbD_xor, fun _ _ _ _ _ _ => rfl⟩,
    ⟨fun a b => a &&& ~~~b, fun a b i hi => ?_, fun _ _ _ _ _ _ => rfl⟩, List.forall_mem_nil _⟩
  rw [BitVec.getLsbD_and, BitVec.getLsbD_not, decide_eq_true hi, Bool.true_and]

/-- Settles O10: each mask operation works bit by bit, MRANGE's bound of 128 takes in every bit, and SETVL's clamp lies in 1 to 128. -/
theorem maskAndLengthResults : Obligations.MaskAndLengthResults := by
  refine ⟨fun e he n md ma mb s => ?_, fun n md sa s => ?_, fun n sa s => ?_⟩
  · obtain ⟨f, hf, h⟩ := maskForms_issue e he
    exact slot_gives _ (fun l => h n l md ma mb s) fun c _ => ⟨_, Core.maskOp_due .., hf _ _⟩
  · refine slot_gives _ (fun _ => rfl) fun c _ =>
      ⟨_, due_land _ _ _ _ _ _ (checkReads_kept ..) (checkReads_queue ..) (checkReads_stallDue ..), fun i hi => ?_⟩
    rw [getLsbD_maskOf _ hi]
    exact decide_eq_decide.2 (by omega)
  · refine slot_gives _ (fun _ => rfl) fun c _ =>
      ⟨_, due_push _ _ _ (checkReads_kept ..) (checkReads_queue ..) (checkReads_stallDue ..), ?_⟩
    omega

end Sys2Proof.Machine
end

section
/-! PROOFS. The memory list stays canonical (12_memory.md, 07 R200): its addresses rise strictly and no listed byte is what an unlisted
address reads as. An operation f of the model has one lemma: f_mem where it leaves the memory list as it is, f_wf where it writes and keeps
the list's form. A command's meaning has f_keepsWf; exec_keepsWf puts these together over the commands. -/

namespace Sys2Proof.Machine

/-! ### Choices, folds and outcomes -/

@[simp] theorem State.mem_ite (c : Prop) [Decidable c] (a b : State) : (if c then a else b).mem = if c then a.mem else b.mem :=
  apply_ite State.mem c a b

@[simp] theorem Memory.wf_ite (c : Prop) [Decidable c] (m m' : List Host.Cell) :
    Memory.wf (if c then m else m') = if c then Memory.wf m else Memory.wf m' := apply_ite Memory.wf c m m'

@[simp] theorem foldl_mem {α : Type} {f : State → α → State} (hf : ∀ s x, (f s x).mem = s.mem) (l : List α) (s : State) :
    (l.foldl f s).mem = s.mem := by
  induction l generalizing s with
  | nil => rfl
  | cons x t ih => rw [List.foldl_cons, ih, hf]

theorem foldl_wf {α : Type} {f : State → α → State} (hf : ∀ s x, Memory.wf s.mem = true → Memory.wf (f s x).mem = true) (l : List α)
    {s : State} (h : Memory.wf s.mem = true) : Memory.wf (l.foldl f s).mem = true :=
  List.foldlRecOn (motive := fun t => Memory.wf t.mem = true) l f h fun t ht x _ => hf t x ht

/-- An optional outcome leaves the memory as it is where both the outcome and what stands in for it do. -/
theorem getD_mem {s u : State} {o : Option State} (ho : ∀ t, o = some t → t.mem = s.mem) (hu : u.mem = s.mem) :
    (o.getD u).mem = s.mem := by
  cases o with
  | none => exact hu
  | some t => exact ho t rfl

/-- A next state has its memory in canonical form where the state before has. -/
def KeepsWf (s : State) (o : Host.Outcome State Fault Refusal) : Prop :=
  Memory.wf s.mem = true → ∀ t, o = .next t → Memory.wf t.mem = true

theorem KeepsWf.next {s t : State} (h : Memory.wf s.mem = true → Memory.wf t.mem = true) : KeepsWf s (.next t) := by
  rintro hs _ ⟨⟩
  exact h hs

/-- A next state with the memory of the state before. -/
theorem KeepsWf.same {s t : State} (h : t.mem = s.mem) : KeepsWf s (.next t) := .next fun hs => h ▸ hs

theorem KeepsWf.ite {s : State} {o o' : Host.Outcome State Fault Refusal} {c : Prop} [Decidable c] (h : KeepsWf s o)
    (h' : KeepsWf s o') : KeepsWf s (if c then o else o') := by
  split
  · exact h
  · exact h'

theorem KeepsWf.live {s : State} {o : Host.Outcome State Fault Refusal} (h : KeepsWf s o) : KeepsWf s (live s o) :=
  .ite (.next id) h

theorem KeepsWf.fetched {s : State} {o : Host.Outcome State Fault Refusal} {n : Nat} {w : SlotWord} (h : KeepsWf s o) :
    KeepsWf s (fetched s n w o) :=
  .ite (.next id) h

/-! ### Cores, rings and commands (17, 18) -/

@[simp] theorem foldl_setCore_mem {α : Type} (c : State → α → Nat) (k : State → α → Core) (l : List α) (s : State) :
    (l.foldl (fun s x => s.setCore (c s x) (k s x)) s).mem = s.mem := foldl_mem (fun s x => s.setCore_mem (c s x) (k s x)) l s

@[simp] theorem State.mapCores_mem (s : State) (f : Nat → Core → Core) : (s.mapCores f).mem = s.mem := rfl

@[simp] theorem State.mapRegions_mem (s : State) (f : Nat → Region → Region) : (s.mapRegions f).mem = s.mem := rfl

@[simp] theorem State.issue_mem (s : State) (n : Nat) (f : State → Nat → Core → Core) : (s.issue n f).mem = s.mem := rfl

@[simp] theorem State.hostWrite_mem (s : State) (a : Nat) (bs : List MByte) (o : Owner) : (s.hostWrite a bs o).mem = s.mem :=
  congrArg State.Data.mem (s.hostWrite_data a bs o)

@[simp] theorem State.postEvent_mem (s : State) (e kind source status : Nat) (detail : List Byte) :
    (s.postEvent e kind source status detail).mem = s.mem := congrArg State.Data.mem (s.postEvent_data e kind source status detail)

@[simp] theorem State.writeRecord_mem (s : State) (e : Nat) (rec : List Byte) : (s.writeRecord e rec).mem = s.mem :=
  congrArg State.Data.mem (s.writeRecord_data e rec)

@[simp] theorem State.flush_mem (s : State) : s.flush.mem = s.mem := congrArg State.Data.mem (flushList_data s.waitRecs _)

@[simp] theorem State.addWait_mem (s : State) (w : WaitRec) : (s.addWait w).mem = s.mem := congrArg State.Data.mem (s.addWait_data w)

@[simp] theorem State.tryPost_mem (s : State) (id : Nat) : (s.tryPost id).mem = s.mem := congrArg State.Data.mem (s.tryPost_data id)

@[simp] theorem State.complete_mem (s : State) (id : Nat) (found : List Nat) (detail : List Byte) :
    (s.complete id found detail).mem = s.mem := congrArg State.Data.mem (s.complete_data id found detail)

@[simp] theorem State.waitsMet_mem (s : State) : s.waitsMet.mem = s.mem := congrArg State.Data.mem s.waitsMet_data

@[simp] theorem drain_mem (e n : Nat) (s : State) : (drain e n s).mem = s.mem := by
  induction n generalizing s with
  | zero => rfl
  | succ n ih =>
    simp only [drain]
    split
    · rfl
    · simp [ih, State.writeRecord_mem]

@[simp] theorem State.drainRing_mem (s : State) (e : Nat) : (s.drainRing e).mem = s.mem := by simp [State.drainRing]

@[simp] theorem State.recordVisible_mem (s : State) (e : Nat) : (s.recordVisible e).mem = s.mem := by simp [State.recordVisible]

@[simp] theorem State.ringError_mem (s : State) (r err : Nat) : (s.ringError r err).mem = s.mem := by simp [State.ringError]

@[simp] theorem State.takeHead_mem (s : State) (r : Nat) (d : Desc) : (s.takeHead r d).1.mem = s.mem := rfl

@[simp] theorem refuseReserved_mem (n : Nat) (s : State) : (refuseReserved n s).mem = s.mem := by
  induction n generalizing s with
  | zero => rfl
  | succ n ih =>
    unfold refuseReserved
    split
    · rfl
    · split
      · rfl
      · simp [ih]

/-- A delivered command keeps the canonical form where its row's meaning does. -/
theorem State.deliver_wf {f : State → Desc → Nat → State} (hf : ∀ s d id, Memory.wf s.mem = true → Memory.wf (f s d id).mem = true)
    {s : State} (r : Nat) (row : Row) (h : Memory.wf s.mem = true) : Memory.wf (s.deliver r row f).mem = true := by
  have hs : Memory.wf (refuseReserved 512 s).mem = true := by rwa [refuseReserved_mem]
  simp only [State.deliver]
  split
  · split
    · exact hf _ _ _ hs
    · exact hs
  · exact hs

@[simp] theorem State.block_mem (s : State) (id : Nat) : (s.block id).mem = s.mem := by
  unfold State.block
  split <;> rfl

/-! ### Semaphores and the passing of time (09, 10, 16) -/

@[simp] theorem State.csemChange_mem (s : State) (c idx : Nat) (amount : Int) : (s.csemChange c idx amount).mem = s.mem := rfl

@[simp] theorem State.gsemConsume_mem (s : State) (idx amount : Nat) : (s.gsemConsume idx amount).mem = s.mem := by
  simp [State.gsemConsume, State.gsemChange_mem]

@[simp] theorem State.runCore_wf {s : State} (c : Nat) (h : Memory.wf s.mem = true) : Memory.wf (s.runCore c).mem = true := by
  unfold State.runCore
  exact foldl_wf (fun _ w => putBytes_wf w.1 _) _ h

@[simp] theorem State.announce_mem (s : State) : s.announce.mem = s.mem := rfl

@[simp] theorem State.endEpisode_mem (s : State) : s.endEpisode.mem = s.mem := by
  simp only [State.endEpisode]
  split
  · simp
  · rfl

@[simp] theorem State.noteFirst_mem (s : State) : s.noteFirst.mem = s.mem := by
  unfold State.noteFirst
  split <;> rfl

@[simp] theorem State.stopIssue_mem (s : State) : s.stopIssue.mem = s.mem := by simp [State.stopIssue]

@[simp] theorem State.instrParity_mem (s : State) (n : Nat) : (s.instrParity n).mem = s.mem := by simp [State.instrParity]

@[simp] theorem State.noteBundle_mem (s : State) (c : Nat) : (s.noteBundle c).mem = s.mem := by simp [State.noteBundle]

@[simp] theorem State.period_wf {s : State} (bundle : Bool) (cs : List Nat) (h : Memory.wf s.mem = true) :
    Memory.wf (s.period bundle cs).mem = true := by
  have hrun : ∀ t : State, Memory.wf t.mem = true → Memory.wf (cs.foldl State.runCore t).mem = true :=
    fun t => foldl_wf (fun _ c => State.runCore_wf c) cs
  simp [State.period, State.gsemChange_mem, hrun, h]

@[simp] theorem State.copyOld_mem (s : State) : s.copyOld.mem = s.mem := by simp [State.copyOld]

@[simp] theorem State.passIdle_wf {s : State} (h : Memory.wf s.mem = true) : Memory.wf s.passIdle.mem = true := by
  simp [State.passIdle, h]

@[simp] theorem State.passClocks_mem (s : State) : s.passClocks.mem = s.mem := by simp [State.passClocks]

@[simp] theorem State.noteCrossings_mem (s before : State) : (s.noteCrossings before).mem = s.mem := by simp [State.noteCrossings]

@[simp] theorem State.pass_wf {s : State} (h : Memory.wf s.mem = true) : Memory.wf s.pass.mem = true := by simp [State.pass, h]

@[simp] theorem State.passes_wf (n : Nat) {s : State} (h : Memory.wf s.mem = true) : Memory.wf (State.passes n s).mem = true := by
  induction n generalizing s with
  | zero => exact h
  | succ n ih => simp [State.passes, ih, h]

@[simp] theorem State.endBundle_wf {s : State} (n : Nat) (h : Memory.wf s.mem = true) : Memory.wf (s.endBundle n).mem = true := by
  simp only [State.endBundle]
  split
  · exact h
  · split <;> simp [h]

@[simp] theorem State.strike_mem (n : Nat) (s : State) (h : Hit) : (State.strike n s h).mem = s.mem := by
  cases h <;> simp [State.strike]

@[simp] theorem State.strikes_mem (s : State) (n : Nat) (hits : List Hit) : (s.strikes n hits).mem = s.mem := by
  simp [State.strikes]

@[simp] theorem State.slot_wf {s : State} (n : Nat) (last : Bool) (f : State → Nat → Core → Core) (h : Memory.wf s.mem = true) :
    Memory.wf (s.slot n last f).mem = true := by
  simp [State.slot, h]

/-! ### Churn and Griby ports (03, 15) -/

@[simp] theorem State.landUnit_mem (s : State) (c unit : Nat) (forNext : Bool) (u : UnitData) (cond : Nat) :
    (s.landUnit c unit forNext u cond).mem = s.mem := rfl

theorem State.landBroken_mem {s s' : State} {core unit : Nat} {forNext : Bool} {t : Table}
    (h : s.landBroken core unit forNext t = some s') : s'.mem = s.mem := by
  simp only [State.landBroken] at h
  split at h
  · cases h; rfl
  · split at h <;> cases h
    rfl

@[simp] theorem State.landDue_mem (s : State) (c : Nat) : (s.landDue c).mem = s.mem := by
  unfold State.landDue
  split
  · split
    · rfl
    · exact getD_mem (fun _ => State.landBroken_mem) rfl
  · rfl

@[simp] theorem State.putDelivery_mem (s : State) (n c : Nat) (d : Option (Table × RetUnit)) : (s.putDelivery n c d).mem = s.mem := by
  unfold State.putDelivery
  split <;> rfl

theorem execStepChurn_keepsWf (n : Nat) (last retStart : Bool) (rt late : Nat) (hits : List Hit) (s : State) :
    KeepsWf s (execStepChurn n last retStart rt late hits s) := by
  refine .fetched ?_
  extract_lets cs s0 res s1 s2 s3 live lo s4 s5
  have h0 : s0.mem = s.mem := by simp [s0]
  have h3 : s3.mem = s.mem := by simp [s3, s2, s1, h0]
  have h5 : s5.mem = s.mem := by simp [s5, s4, h3]
  exact .ite (.same (by simp [h0])) (.next fun h => by simp [h5, h])

theorem execDeliverySignal_keepsWf (core id : Nat) (s : State) : KeepsWf s (execDeliverySignal core id s) := by
  refine .live (.same ?_)
  split
  · split
    · split <;> simp [State.gsemChange_mem]
    · rfl
  · rfl

@[simp] theorem State.sendSlot_mem (s : State) (n : Nat) (sl : GSlot) (p : Port) : (s.sendSlot n sl p).mem = s.mem := by
  unfold State.sendSlot
  exact foldl_mem (fun t i => t.emit_mem (.item n i)) _ _

@[simp] theorem pump_mem (n k : Nat) (s : State) : (pump n k s).mem = s.mem := by
  induction k generalizing s with
  | zero => rfl
  | succ k ih =>
    simp only [pump]
    split
    · split
      · simp [ih]
      · rfl
    · rfl

@[simp] theorem State.pumpPort_mem (s : State) (n : Nat) : (s.pumpPort n).mem = s.mem := pump_mem n 64 s

@[simp] theorem State.sendItem_mem (s : State) (n : Nat) (i : LaneItem) : (s.sendItem n i).mem = s.mem := by simp [State.sendItem]

@[simp] theorem State.sendOn_mem (s : State) (n : Nat) (m : Msg) : (s.sendOn n m).mem = s.mem := by simp [State.sendOn]

theorem State.sendMsg_mem {s t : State} {flow : Nat} {m : Msg} (h : s.sendMsg flow m = some t) : t.mem = s.mem := by
  obtain ⟨n, -, rfl⟩ := Option.map_eq_some_iff.1 h
  exact s.sendOn_mem n m

/-! ### Remote semaphores of the cores, memory controllers (10, 12) -/

@[simp] theorem State.runOutcome_mem (s : State) (c o : Nat) : (s.runOutcome c o).mem = s.mem := by simp [State.runOutcome]

@[simp] theorem State.remoteIssue_mem (s : State) (o : RemoteBy) (w : W64) (glob : Bool) (idx : Nat) (amount : Int) :
    (s.remoteIssue o w glob idx amount).1.mem = s.mem := by
  simp only [State.remoteIssue]
  split
  · rfl
  · split
    next h => exact (State.sendMsg_mem h :)
    next => rfl

@[simp] theorem State.remoteCore_mem (n sa sb idx : Nat) (glob sub : Bool) (s : State) (c : Nat) :
    (State.remoteCore n sa sb idx glob sub s c).mem = s.mem := by
  simp [State.remoteCore]

@[simp] theorem State.remoteSlot_wf {s : State} (n : Nat) (last glob : Bool) (idx sa sb : Nat) (sub : Bool) (h : Memory.wf s.mem = true) :
    Memory.wf (s.remoteSlot n last glob idx sa sb sub).mem = true := by
  simp [State.remoteSlot, h]

theorem execSemrd_keepsWf (n : Nat) (last glob : Bool) (idx sd : Nat) (s : State) : KeepsWf s (execSemrd n last glob idx sd s) := by
  refine .fetched ?_
  split <;> exact .next fun h => by simp [h]

theorem execLdi_keepsWf (n : Nat) (last : Bool) (q sa : Nat) (hits : List Hit) (s : State) :
    KeepsWf s (execLdi n last q sa hits s) := by
  refine .fetched ?_
  extract_lets s1 any s2 s3
  have h1 : s1.mem = s.mem := by simp [s1]
  have h3 : s3.mem = s.mem := by simp [s3, s2, h1]
  exact .ite (.same (by simp [h1])) (.next fun h => by simp [h3, h])

@[simp] theorem State.memEvent_mem (s : State) (u status a : Nat) : (s.memEvent u status a).mem = s.mem := by simp [State.memEvent]

@[simp] theorem State.wordRead_mem (s : State) (w : Nat) : (s.wordRead w).mem = s.mem := by
  simp only [State.wordRead]
  split
  · rfl
  · split <;> simp
  · simp
  · simp

@[simp] theorem State.upsetOne_wf {s : State} (e : Nat × Nat) (h : Memory.wf s.mem = true) : Memory.wf (s.upsetOne e).mem = true := by
  simp [State.upsetOne, putBytes_wf, h]

@[simp] theorem State.upset_wf {s : State} (l : List (Nat × Nat)) (h : Memory.wf s.mem = true) : Memory.wf (s.upset l).mem = true :=
  foldl_wf (fun _ e => State.upsetOne_wf e) l h

@[simp] theorem State.wordPoisoned_mem (s : State) (w : Nat) : (s.wordPoisoned w).mem = s.mem := by simp [State.wordPoisoned]

@[simp] theorem State.noteWrite_wf {s : State} (a : Nat) (bs : List MByte) (h : Memory.wf s.mem = true) :
    Memory.wf (s.noteWrite a bs).mem = true := by
  have hstore : Memory.wf (s.storeBytes a bs).mem = true := State.storeBytes_memWf a bs h
  simp [State.noteWrite, hstore]

@[simp] theorem State.readStruct_mem (s : State) (a n : Nat) : (s.readStruct a n).2.2.mem = s.mem := s.noteRead_mem a n

/-! ### Ladle transfers (07, 08) -/

@[simp] theorem State.setQueue_mem (s : State) (c q : Nat) (l : LadleQ) : (s.setQueue c q l).mem = s.mem := rfl

@[simp] theorem State.putTransfer_mem (s : State) (c q : Nat) (t : Transfer) : (s.putTransfer c q t).mem = s.mem := rfl

@[simp] theorem State.batchDone_mem (s : State) (cmd b : Nat) : (s.batchDone cmd b).mem = s.mem := rfl

@[simp] theorem State.issuerNote_mem (s : State) (c : Nat) (t : Transfer) (bit : Option Nat) (found : List Nat) :
    (s.issuerNote c t bit found).mem = s.mem := by
  unfold State.issuerNote
  split
  · split <;> rfl
  · simp
  · simp
  · rfl

@[simp] theorem State.refuseTransfer_mem (s : State) (c q kind : Nat) (t : Transfer) : (s.refuseTransfer c q kind t).mem = s.mem := by
  simp [State.refuseTransfer]

@[simp] theorem State.cvStart_mem (s : State) (c q : Nat) (t : Transfer) : (s.cvStart c q t).mem = s.mem := by
  unfold State.cvStart
  refine foldl_mem (fun s n => ?_) _ s
  dsimp only
  split <;> rfl

@[simp] theorem State.cvWrite_mem (s : State) (n : Nat) (x : Snoop) (value : Nat) : (s.cvWrite n x value).mem = s.mem := by
  simp only [State.cvWrite]
  split
  · simp
  · rfl

@[simp] theorem cvRun_mem (n k : Nat) (s : State) : (cvRun n k s).mem = s.mem := by
  induction k generalizing s with
  | zero => rfl
  | succ k ih =>
    simp only [cvRun]
    split
    · rfl
    · split <;> simp [ih]

@[simp] theorem State.cvAbsorb_mem (s : State) (c q id p : Nat) (bs : List MByte) : (s.cvAbsorb c q id p bs).mem = s.mem := by
  unfold State.cvAbsorb
  refine foldl_mem (fun s n => ?_) _ s
  split <;> simp

@[simp] theorem State.dropTransfer_mem (s : State) (c q id : Nat) : (s.dropTransfer c q id).mem = s.mem := by
  simp [State.dropTransfer]

@[simp] theorem State.endTransfer_mem (s : State) (c q : Nat) (t : Transfer) (o : Nat) : (s.endTransfer c q t o).mem = s.mem := by
  simp [State.endTransfer]

@[simp] theorem State.meshError_mem (s : State) (header : Bool) (router k : Nat) : (s.meshError header router k).mem = s.mem := rfl

theorem State.discarded_mem {s t : State} {hdr : Option Nat} (h : s.discarded hdr = some t) : t.mem = s.mem := by
  obtain ⟨r, -, rfl⟩ := Option.map_eq_some_iff.1 h
  rfl

@[simp] theorem State.payload_mem (s : State) (bs : List MByte) (bad : List Nat) (router : Nat) :
    (s.payload bs bad router).1.mem = s.mem := by
  simp only [State.payload]
  split <;> rfl

@[simp] theorem State.modInj_mem (s : State) (c unit : Nat) (forNext : Bool) (f : InjUnit → InjUnit) :
    (s.modInj c unit forNext f).mem = s.mem := rfl

@[simp] theorem State.injRead_wf {s : State} (c : Nat) (i : InjUnit) (t : Table) (upset : List (Nat × Nat)) (hdr : Option Nat)
    (h : Memory.wf s.mem = true) : Memory.wf (s.injRead c i t upset hdr).mem = true := by
  unfold State.injRead
  split
  next hb => rwa [State.landBroken_mem hb]
  next =>
    split
    next hd => simpa [State.discarded_mem hd] using h
    next => simp [State.foldl_noteRead_mem, h]

@[simp] theorem State.pieceRead_wf {s : State} (c q : Nat) (t : Transfer) (upset : List (Nat × Nat)) (hdr : Option Nat)
    (h : Memory.wf s.mem = true) : Memory.wf (s.pieceRead c q t upset hdr).mem = true := by
  simp only [State.pieceRead]
  split
  next hd => simpa [State.discarded_mem hd] using h
  next => simp [State.noteRead_mem, h]

theorem State.peerWrite_mem {s t : State} {flow peer addr : Nat} {bs : List MByte} {o : Owner}
    (h : s.peerWrite flow peer addr bs o = some t) : t.mem = s.mem := by
  simp only [State.peerWrite] at h
  split at h
  next hm => cases h; exact (State.sendMsg_mem hm :)
  next => cases h

@[simp] theorem State.flushMsg_mem (s : State) (c q : Nat) (t : Transfer) : (s.flushMsg c q t).1.mem = s.mem := by
  unfold State.flushMsg
  split
  · split
    next h => exact State.peerWrite_mem h
    next => rfl
  · rfl

@[simp] theorem State.addRun_mem (s : State) (c q a : Nat) (t : Transfer) (bs : List MByte) : (s.addRun c q a t bs).1.mem = s.mem := by
  simp only [State.addRun]
  split
  · split <;> simp
  · rfl

@[simp] theorem State.peerPiece_mem (s : State) (c q : Nat) (t : Transfer) (dst : Nat) (bs : List MByte) :
    (s.peerPiece c q t dst bs).mem = s.mem := by
  simp only [State.peerPiece]
  split
  · rfl
  · split
    · split <;> simp
    · split <;> simp

@[simp] theorem State.addParity_mem (s : State) (o : Owner) (bad : Bool) : (s.addParity o bad).mem = s.mem := by
  unfold State.addParity
  split
  · split <;> rfl
  · rfl

@[simp] theorem State.storeOutcome_mem (s : State) (o : Owner) (out : Nat) : (s.storeOutcome o out).mem = s.mem := by
  unfold State.storeOutcome
  split
  · simp only
    split <;> simp
  · rfl

@[simp] theorem State.storeToPeer_mem (s : State) (o : Owner) (a : Nat) (bs : List MByte) : (s.storeToPeer o a bs).mem = s.mem := by
  unfold State.storeToPeer
  split
  · split
    · split
      · rfl
      · split
        · exact getD_mem (fun _ => State.peerWrite_mem) (s.storeOutcome_mem _ 4)
        · simp
    · rfl
  · rfl

@[simp] theorem State.forwarded_mem (s : State) (n : Nat) (m : Msg) : (s.forwarded n m).mem = s.mem := by simp [State.forwarded]

@[simp] theorem State.answer_mem (s : State) (m : Msg) (outcome : Nat) : (s.answer m outcome).mem = s.mem := by
  unfold State.answer
  split
  next h => exact (State.sendMsg_mem h :)
  next => rfl

@[simp] theorem State.messageAcked_mem (s : State) (id : Nat) : (s.messageAcked id).mem = s.mem := by
  unfold State.messageAcked
  split
  · simp
  · rfl

@[simp] theorem State.acked_mem (s : State) (o : Owner) : (s.acked o).mem = s.mem := by
  cases o <;> simp only [State.acked]
  case transfer => split <;> rfl
  case store => split <;> rfl
  case cmd => simp
  case record => simp
  case message => simp
  all_goals rfl

@[simp] theorem State.writeEnds_mem (s : State) (tag o : Nat) : (s.writeEnds tag o).mem = s.mem := by
  simp only [State.writeEnds]
  split
  · rfl
  · split
    · simp
    · split
      · split <;> simp
      · simp

@[simp] theorem State.signalSem_mem (s : State) (glob : Bool) (c idx amount : Nat) : (s.signalSem glob c idx amount).mem = s.mem := by
  simp [State.signalSem, State.gsemChange_mem]

theorem execLadleTransferStart_keepsWf (core q : Nat) (s : State) : KeepsWf s (execLadleTransferStart core q s) := by
  refine .live (.same ?_)
  split
  · rfl
  · simp

theorem execReadRequest_keepsWf (core q id : Nat) (upset : List (Nat × Nat)) (hdr : Option Nat) (s : State) :
    KeepsWf s (execReadRequest core q id upset hdr s) := by
  refine .live (.next fun h => ?_)
  split
  · exact h
  · dsimp only
    split
    · split
      · split <;> simp [h]
      · exact h
    · split <;> simp [h]

theorem execReadResponse_keepsWf (id : Nat) (bad : List Nat) (router : Nat) (hdr : Bool) (s : State) :
    KeepsWf s (execReadResponse id bad router hdr s) := by
  refine .live (.same ?_)
  split
  · dsimp only
    split
    · rfl
    · split
      · rfl
      · split
        · simp
        · split
          · simp
          · simp
  · rfl

theorem execWritePacket_keepsWf (id : Nat) (bad : List Nat) (router : Nat) (hdr : Bool) (s : State) :
    KeepsWf s (execWritePacket id bad router hdr s) := by
  refine .live (.next fun h => ?_)
  split
  · simp [State.noteRead_mem, h]
  · simp [h]
  · exact h

theorem execWriteAcknowledgement_keepsWf (x : Arrival) (s : State) : KeepsWf s (execWriteAcknowledgement x s) := by
  refine .live (.next fun h => ?_)
  split
  · dsimp only
    split
    · exact h
    · rwa [getD_mem (fun _ hd => (State.discarded_mem hd :)) (State.acked_mem _ _)]
  · split
    · split
      · exact h
      · split
        next hd => simpa [State.discarded_mem hd] using putBytes_wf _ _ h
        next => simpa using putBytes_wf _ _ h
    · exact h

theorem execLadleSignal_keepsWf (core q id : Nat) (s : State) : KeepsWf s (execLadleSignal core q id s) := by
  refine .live (.same ?_)
  split
  · rfl
  · simp

/-! ### Rings (17) -/

@[simp] theorem State.hostStores_wf {s : State} (l : List Host.Cell) (h : Memory.wf s.mem = true) :
    Memory.wf (s.hostStores l).mem = true := by
  refine List.foldlRecOn (motive := fun m => Memory.wf m = true) l _ h fun m hm c _ => ?_
  split
  · exact Sparse.wf_set _ _ hm
  · exact hm

theorem execDoorbell_keepsWf (r value : Nat) (host : List Host.Cell) (s : State) : KeepsWf s (execDoorbell r value host s) :=
  .live (.next fun h => by simp [h])

@[simp] theorem State.writeCringCtl_mem (s : State) (r v : Nat) : (s.writeCringCtl r v).mem = s.mem := by simp [State.writeCringCtl]

theorem execEventRingEnable_keepsWf (e value : Nat) (s : State) : KeepsWf s (execEventRingEnable e value s) := .live (.same (by simp))

theorem execEventRingHeadWrite_keepsWf (e value : Nat) (s : State) : KeepsWf s (execEventRingHeadWrite e value s) :=
  .live (.same (by simp))

theorem execArmed_keepsWf (e value : Nat) (s : State) : KeepsWf s (execArmed e value s) := .live (.same (by simp))

/-! ### Clocks (16) -/

theorem execReferenceSwitch_keepsWf (value : Nat) (s : State) : KeepsWf s (execReferenceSwitch value s) := .live (.same (by simp))

theorem execClkEnCrm_keepsWf (value : Nat) (s : State) : KeepsWf s (execClkEnCrm value s) := .live (.same (by simp))

theorem execClkEnGrb_keepsWf (value : Nat) (s : State) : KeepsWf s (execClkEnGrb value s) := .live (.same (by simp))

theorem execClkEnMisc_keepsWf (value : Nat) (s : State) : KeepsWf s (execClkEnMisc value s) := .live (.same (by simp))

theorem execCfgBusChange_keepsWf (value : Nat) (s : State) : KeepsWf s (execCfgBusChange value s) := .live (.same (by simp))

@[simp] theorem State.acceptChange_mem (s : State) (step cfg n : Nat) (hw : Bool) : (s.acceptChange step cfg n hw).mem = s.mem := rfl

theorem execSynchronisedChangeRequest_keepsWf (value : Nat) (s : State) : KeepsWf s (execSynchronisedChangeRequest value s) := by
  refine .live (.same ?_)
  split
  · rfl
  · dsimp only
    split <;> rfl

@[simp] theorem State.deviceChange_mem (s : State) (step : Nat) : (s.deviceChange step).mem = s.mem := by
  unfold State.deviceChange
  split
  · rfl
  · split
    · simp
    · rfl

theorem execLockCheck_keepsWf (s : State) : KeepsWf s (execLockCheck s) := by
  refine .live (.same ?_)
  split
  · simp
  · rfl

theorem execChangeHold_keepsWf (s : State) : KeepsWf s (execChangeHold s) := by
  refine .live (.same ?_)
  split
  · simp
  · rfl

theorem execClockSwitch_keepsWf (s : State) : KeepsWf s (execClockSwitch s) := by
  refine .live (.same ?_)
  split
  · simp
  · rfl

theorem execStoppedChangeRequest_keepsWf (value : Nat) (s : State) : KeepsWf s (execStoppedChangeRequest value s) :=
  .live (.same (by simp))

theorem execHoldCounterClear_keepsWf (value : Nat) (s : State) : KeepsWf s (execHoldCounterClear value s) := .live (.same (by simp))

@[simp] theorem State.gaugeRegion_mem (drifts temps : List Nat) (s : State) (r : Nat) :
    (State.gaugeRegion drifts temps s r).mem = s.mem := by simp [State.gaugeRegion]

@[simp] theorem State.gaugeSample_mem (s : State) (drifts temps : List Nat) : (s.gaugeSample drifts temps).mem = s.mem := by
  simp [State.gaugeSample]

/-! ### Commands of the host, remote semaphore operations (10, 18) -/

theorem execLadleCopy_keepsWf (r : Nat) (s : State) : KeepsWf s (execLadleCopy r s) := by
  refine .live (.next fun h => ?_)
  split
  · exact h
  · exact State.deliver_wf (fun s d id h => by simp [h]) r _ h

theorem execSemaphoreWait_keepsWf (r : Nat) (s : State) : KeepsWf s (execSemaphoreWait r s) := by
  refine .live (.next (State.deliver_wf (fun s d id h => ?_) r _))
  split <;> simp [h]

@[simp] theorem State.semCommand_mem (s : State) (sub : Bool) (d : Desc) (id : Nat) : (s.semCommand sub d id).mem = s.mem := by
  unfold State.semCommand
  split
  · simp
  · simp [State.gsemChange_mem]

theorem execSemaphoreAdd_keepsWf (r : Nat) (s : State) : KeepsWf s (execSemaphoreAdd r s) := by
  refine .live (.next fun h => ?_)
  split
  · exact h
  · exact State.deliver_wf (fun s d id h => by simp [h]) r _ h

theorem execSemaphoreSubtract_keepsWf (r : Nat) (s : State) : KeepsWf s (execSemaphoreSubtract r s) := by
  refine .live (.next fun h => ?_)
  split
  · exact h
  · exact State.deliver_wf (fun s d id h => by simp [h]) r _ h

theorem execFenceRelease_keepsWf (r : Nat) (s : State) : KeepsWf s (execFenceRelease r s) := by
  refine .live (.same ?_)
  split
  · simp
  · rfl

@[simp] theorem State.remoteEnd_mem (s : State) (op : RemoteOp) (o : Nat) : (s.remoteEnd op o).mem = s.mem := by
  simp only [State.remoteEnd]
  split
  · simp
  · simp
  · split <;> simp
  · simp

@[simp] theorem State.applyRemote_mem (s : State) (core idx : Nat) (amount : Int) : (s.applyRemote core idx amount).1.mem = s.mem := by
  unfold State.applyRemote
  split
  · rfl
  · split
    · simp [State.gsemChange_mem]
    · split <;> simp

theorem execRemoteSemaphorePacket_keepsWf (x : Arrival) (s : State) : KeepsWf s (execRemoteSemaphorePacket x s) := by
  refine .live (.same ?_)
  split
  · dsimp only
    split
    · rfl
    · split
      next h => exact (State.discarded_mem h :)
      next => split <;> simp
  · rfl

theorem execSemaphoreAcknowledgement_keepsWf (x : Arrival) (s : State) : KeepsWf s (execSemaphoreAcknowledgement x s) := by
  refine .live (.same ?_)
  split
  · split
    · split
      · rfl
      · split
        next h => exact (State.discarded_mem h :)
        next => simp
    · rfl
  · rfl

theorem execRemoteOperationTimeout_keepsWf (id : Nat) (s : State) : KeepsWf s (execRemoteOperationTimeout id s) := by
  refine .live (.same ?_)
  split
  · simp
  · split <;> simp

/-! ### Press jobs (14) -/

@[simp] theorem State.pressCount_mem (s : State) (c k : Nat) : (s.pressCount c k).mem = s.mem := rfl

@[simp] theorem State.pressErr_mem (s : State) (b : Nat) : (s.pressErr b).mem = s.mem := rfl

@[simp] theorem State.modJob_mem (s : State) (cmd : Nat) (f : PressJob → PressJob) : (s.modJob cmd f).mem = s.mem := rfl

@[simp] theorem State.pressRead_mem (s : State) (j : PressJob) (b : Nat) : (s.pressRead j b).2.2.mem = s.mem := by
  simp [State.pressRead, State.noteRead_mem]

@[simp] theorem State.pressCtl_mem (s : State) (peer chunk tag addr arg : Nat) (body : List MByte) :
    (s.pressCtl peer chunk tag addr arg body).mem = s.mem :=
  getD_mem (fun _ => State.sendMsg_mem) rfl

@[simp] theorem State.pressUndefined_wf {s : State} (j : PressJob) (h : Memory.wf s.mem = true) :
    Memory.wf (s.pressUndefined j).mem = true := by
  unfold State.pressUndefined
  exact foldl_wf (fun _ b => putBytes_wf (j.dst + b * _) _) _ h

@[simp] theorem State.pressEnd_wf {s : State} (j : PressJob) (pos cause : Nat) (heard : Bool) (h : Memory.wf s.mem = true) :
    Memory.wf (s.pressEnd j pos cause heard).mem = true := by simp [State.pressEnd, h]

@[simp] theorem State.pressGroupFailed_mem (s : State) (g : Nat) : (s.pressGroupFailed g).mem = s.mem := by
  simp [State.pressGroupFailed]

@[simp] theorem State.pressFail_wf {s : State} (cmd cause : Nat) (h : Memory.wf s.mem = true) :
    Memory.wf (s.pressFail cmd cause).mem = true := by
  unfold State.pressFail
  split
  · exact h
  · simp [h]

@[simp] theorem State.pressTouch_mem (s : State) (cmd : Nat) : (s.pressTouch cmd).mem = s.mem := rfl

theorem State.pressLeave_mem {s t : State} {m : Msg} (h : s.pressLeave m = some t) : t.mem = s.mem := by
  obtain ⟨u, hu, rfl⟩ := Option.map_eq_some_iff.1 h
  exact (State.sendMsg_mem hu :)

@[simp] theorem State.pressPut_wf {s : State} (cmd : Nat) (m : Msg) (h : Memory.wf s.mem = true) :
    Memory.wf (s.pressPut cmd m).mem = true := by
  have hleave : ((s.pressLeave m).getD s).mem = s.mem := getD_mem (fun _ => State.pressLeave_mem) rfl
  simp [State.pressPut, hleave, h]

@[simp] theorem State.pressSend_wf {s : State} (j : PressJob) (lap b : Nat) (body : List Byte) (poison : Bool)
    (h : Memory.wf s.mem = true) : Memory.wf (s.pressSend j lap b body poison).mem = true := State.pressPut_wf _ _ h

@[simp] theorem State.pressGrant_mem (s : State) (peer count : Nat) : (s.pressGrant peer count).mem = s.mem := by
  simp [State.pressGrant]

@[simp] theorem State.grantNeighbours_mem (s : State) (ring : List Nat) (p self : Nat) : (s.grantNeighbours ring p self).mem = s.mem := by
  simp [State.grantNeighbours]

@[simp] theorem State.skimOwn_mem (s : State) (j : PressJob) (b scale : Nat) (words : List W32) (total : Option PressRec) :
    (s.skimOwn j b scale words total).mem = s.mem := by
  unfold State.skimOwn
  split <;> rfl

@[simp] theorem State.skimChild_mem (s : State) (cmd : Nat) (r : PressRec) : (s.skimChild cmd r).mem = s.mem := rfl

@[simp] theorem State.skimCompare_mem (s : State) (j : PressJob) (a : SkimAcc) (t : PressRec) : (s.skimCompare j a t).mem = s.mem := by
  simp [State.skimCompare]

@[simp] theorem State.skimTry_wf {s : State} (cmd b : Nat) (h : Memory.wf s.mem = true) : Memory.wf (s.skimTry cmd b).mem = true := by
  unfold State.skimTry
  split
  · exact h
  · split
    · exact h
    · split
      · exact h
      · dsimp only
        split
        · simp [h]
        · split
          next hm => simpa [State.sendMsg_mem hm] using h
          next => simp [h]

@[simp] theorem State.skimSweep_mem (s : State) : s.skimSweep.mem = s.mem := rfl

@[simp] theorem State.pressResult_mem (s : State) (j : PressJob) (r : PressRec) : (s.pressResult j r).mem = s.mem := rfl

@[simp] theorem State.lap3_wf {s : State} (j : PressJob) (r : PressRec) (h : Memory.wf s.mem = true) :
    Memory.wf (s.lap3 j r).mem = true := by
  simp [State.lap3, h]

@[simp] theorem State.lap2_wf {s : State} (j : PressJob) (recv : Option PressRec) (b code : Nat) (poison par : Bool)
    (hs : Memory.wf s.mem = true) : Memory.wf (s.lap2 j recv b code poison par).mem = true := by
  unfold State.lap2
  extract_lets x s1 bad c total own r1 k ws h r2 s2 s3 s4
  have h1 : s1.mem = s.mem := by simp [s1, x]
  have h3 : s3.mem = s.mem := by simp [s3, s2, h1]
  have h4 : Memory.wf s4.mem = true := by simp [s4, h3, hs]
  simp [h1, h4, hs]

@[simp] theorem State.lap1_wf {s : State} (j : PressJob) (b code : Nat) (poison par : Bool) (h : Memory.wf s.mem = true) :
    Memory.wf (s.lap1 j b code poison par).mem = true := by
  unfold State.lap1
  extract_lets x s1 code bad
  have h1 : s1.mem = s.mem := by simp [s1, x]
  simp [h1, h]

@[simp] theorem State.pressBegin_wf {s : State} (j : PressJob) (c : Nat) (h : Memory.wf s.mem = true) :
    Memory.wf (s.pressBegin j c).mem = true := by
  refine foldl_wf (fun t b ht => ?_) _ h
  split <;> simp [ht]

@[simp] theorem State.pressGo_wf {s : State} (cmd : Nat) (h : Memory.wf s.mem = true) : Memory.wf (s.pressGo cmd).mem = true := by
  unfold State.pressGo
  split
  · exact h
  · exact foldl_wf (fun t c ht => by simp [ht]) _ h

@[simp] theorem State.pressStart_wf {s : State} (cmd : Nat) (h : Memory.wf s.mem = true) : Memory.wf (s.pressStart cmd).mem = true := by
  unfold State.pressStart
  split
  · exact h
  · simp [h]

@[simp] theorem State.pressLinkFailed_wf {s : State} (n : Nat) (h : Memory.wf s.mem = true) :
    Memory.wf (s.pressLinkFailed n).mem = true := by
  unfold State.pressLinkFailed
  exact foldl_wf (fun _ (j : PressJob) => State.pressFail_wf j.cmd 2) _ h

/-! ### Runs, contexts and binds (08, 11, 18) -/

@[simp] theorem State.startRun_mem (s : State) (cmd entry pc n : Nat) (inj : Option Nat) (args : List W64) (early : Bool) :
    (s.startRun cmd entry pc n inj args early).mem = s.mem := by
  simp [State.startRun]

@[simp] theorem State.earlyAtDelivery_mem (s : State) (n : Nat) : (s.earlyAtDelivery n).mem = s.mem := by
  unfold State.earlyAtDelivery
  split <;> rfl

theorem execRun_keepsWf (r : Nat) (s : State) : KeepsWf s (execRun r s) := by
  refine .live (.next (State.deliver_wf (fun s d id h => ?_) r _))
  extract_lets count early s1 inj detail drop
  have hrefused : Memory.wf ((drop s1).complete id [1] detail).mem = true := by rwa [State.complete_mem]
  split
  · exact hrefused
  · split
    · rwa [State.complete_mem]
    · extract_lets entry tbl
      split
      · exact hrefused
      · rwa [State.earlyAtDelivery_mem, State.startRun_mem]

@[simp] theorem State.cutRun_mem (s : State) : s.cutRun.mem = s.mem := by
  unfold State.cutRun
  split
  · simp
  · rfl

@[simp] theorem State.beginContext_mem (s : State) : s.beginContext.mem = s.mem := by
  simp only [State.beginContext]
  split <;> simp

@[simp] theorem State.clearContext_mem (s : State) (reseed : Option W64) (bind : Bool) : (s.clearContext reseed bind).mem = s.mem := by
  simp [State.clearContext]

@[simp] theorem State.bindWrite_wf {s : State} (id : Nat) (w : Nat × List MByte) (h : Memory.wf s.mem = true) :
    Memory.wf (s.bindWrite id w).mem = true := by
  simp [State.bindWrite, h]

@[simp] theorem State.foldl_bindWrite_wf {s : State} (id : Nat) (l : List (Nat × List MByte)) (h : Memory.wf s.mem = true) :
    Memory.wf (l.foldl (fun s w => s.bindWrite id w) s).mem = true := foldl_wf (fun _ w => State.bindWrite_wf id w) l h

@[simp] theorem State.finishRun_mem (s : State) : s.finishRun.mem = s.mem := by
  simp only [State.finishRun]
  split
  · simp
  · simp

theorem execRunCompletion_keepsWf (s : State) : KeepsWf s (execRunCompletion s) := by
  refine .live (.same ?_)
  split
  · rfl
  · simp

@[simp] theorem State.readAll_mem (s : State) (l : List (Nat × Nat)) : (s.readAll l).1.mem = s.mem := by
  simp [State.readAll, State.foldl_noteRead_mem]

@[simp] theorem State.planBind_mem (s : State) (d : Desc) (head : Bool) : (s.planBind d head).1.mem = s.mem := by
  unfold State.planBind
  split
  · rfl
  · dsimp only
    split
    · simp
    · split
      · simp
      · split
        · simp
        · split
          · simp
          · split
            · simp
            · split <;> simp

@[simp] theorem State.beginBind_mem (s : State) (d : Desc) (id kind : Nat) (p : Plan2) : (s.beginBind d id kind p).mem = s.mem := by
  simp [State.beginBind]

theorem execBindProgram_keepsWf (r : Nat) (s : State) : KeepsWf s (execBindProgram r s) := by
  refine .live (.next fun h => ?_)
  split
  · exact h
  · refine State.deliver_wf (fun s d id h => ?_) r _ h
    split
    · simp [h]
    · dsimp only
      split <;> simp [h]

theorem execRePlacement_keepsWf (r : Nat) (s : State) : KeepsWf s (execRePlacement r s) := by
  refine .live (.next fun h => ?_)
  split
  · exact h
  · refine State.deliver_wf (fun s d id h => ?_) r _ h
    split
    · simp [h]
    · dsimp only
      split <;> simp [h]

theorem execPlacementAtBoundary_keepsWf (s : State) : KeepsWf s (execPlacementAtBoundary s) := by
  refine .live (.same ?_)
  split
  · split
    · rfl
    · dsimp only
      split <;> simp
  · rfl

theorem execContextStart_keepsWf (s : State) : KeepsWf s (execContextStart s) := by
  refine .live (.next fun h => ?_)
  split
  · exact h
  · simp [h]

/-! ### Links and messages (15) -/

@[simp] theorem State.failPort_wf {s : State} (n cause : Nat) (h : Memory.wf s.mem = true) :
    Memory.wf (s.failPort n cause).mem = true := by simp [State.failPort, h]

@[simp] theorem State.portDown_mem (s : State) (n : Nat) : (s.portDown n).mem = s.mem := by simp [State.portDown]

@[simp] theorem State.tryTrain_mem (s : State) (n : Nat) : (s.tryTrain n).mem = s.mem := by simp [State.tryTrain]

@[simp] theorem State.portCtl_mem (s : State) (n value : Nat) : (s.portCtl n value).mem = s.mem := by simp [State.portCtl]

theorem State.arrive_mem {s t : State} {x : Rx} (h : s.arrive x = some t) : t.mem = s.mem := by
  simp only [State.arrive] at h
  split at h <;> cases h
  rfl

/-- What arrives keeps the canonical form where its meaning does. -/
theorem State.onArrival_wf {f : State → State} (hf : ∀ s, Memory.wf s.mem = true → Memory.wf (f s).mem = true) {s : State} (x : Rx)
    (h : Memory.wf s.mem = true) : Memory.wf (s.onArrival x f).mem = true := by
  unfold State.onArrival
  split
  next ha => exact hf _ (State.arrive_mem ha ▸ h)
  next => exact h

theorem execNakItem_keepsWf (x : Rx) (seq : Nat) (s : State) : KeepsWf s (execNakItem x seq s) := by
  refine .live (.next (State.onArrival_wf (fun s h => ?_) x))
  have hsent : ∀ (l : List (Nat × GSlot)) (u : State),
      (l.foldl (fun v e => v.emit (.slot x.port e.1 e.2.whey (e.2.bytes v.free e.1))) u).mem = u.mem :=
    fun l u => foldl_mem (fun v e => v.emit_mem _) l u
  simp [hsent, h]

@[simp] theorem State.gotSlots_mem (s : State) (n : Nat) (whey : Bool) (slots : Nat) : (s.gotSlots n whey slots).mem = s.mem := by
  simp [State.gotSlots]

@[simp] theorem State.forward_mem (s : State) (n : Nat) (m : Msg) : (s.forward n m).mem = s.mem := by
  simp only [State.forward]
  split
  · rfl
  · simp

@[simp] theorem State.carryOut_mem (s : State) (m : Msg) : (s.carryOut m).mem = s.mem := rfl

theorem execWriteMsg_keepsWf (x : Rx) (body : List Byte) (s : State) : KeepsWf s (execWriteMsg x body s) := by
  refine .live (.next fun h => ?_)
  split
  · exact h
  · split
    · exact h
    · refine State.onArrival_wf (fun s h => ?_) x h
      dsimp only
      split
      · simp [h]
      · split <;> simp [h]

theorem execSemMsg_keepsWf (x : Rx) (hops dst src incarn tag arg : Nat) (s : State) :
    KeepsWf s (execSemMsg x hops dst src incarn tag arg s) := by
  refine .live (.next fun h => ?_)
  split
  · exact h
  · refine State.onArrival_wf (fun s h => ?_) x h
    dsimp only
    split
    · simp [h]
    · split <;> simp [h]

/-! ### Calibration, tests and the mesh (15, 19, 20) -/

@[simp] theorem State.afterTest_mem (s : State) (t : LoopTest) : (s.afterTest t).mem = s.mem := by simp [State.afterTest]

@[simp] theorem State.endLoop_mem (s : State) (t : LoopTest) (len : Nat) (back : List Byte) (lane : Nat) :
    (s.endLoop t len back lane).mem = s.mem := by
  simp only [State.endLoop]
  split <;> simp

@[simp] theorem State.calProgram_mem (s : State) (c : Cmd) (bad : Option Nat) : (s.calProgram c bad).mem = s.mem := by
  simp only [State.calProgram]
  split
  · simp
  · split <;> simp

theorem execCalibrationTestOperationEnd_keepsWf (bad : Option Nat) (back : List Byte) (lane : Nat) (drifts temps : List Nat) (s : State) :
    KeepsWf s (execCalibrationTestOperationEnd bad back lane drifts temps s) := by
  refine .live (.next fun h => ?_)
  split
  · exact h
  · dsimp only
    split
    · simp [h]
    · simp [h]
    · split <;> simp [h]
    · simp [h]
    · exact h

theorem execReflect_keepsWf (value : Nat) (s : State) : KeepsWf s (execReflect value s) := .live (.same (by simp))

theorem execServiceRequest_keepsWf (value : Nat) (s : State) : KeepsWf s (execServiceRequest value s) := by
  refine .live (.same ?_)
  split
  · rfl
  · split <;> rfl

/-! ### Reset and start-up (19) -/

/-- A device reset leaves of the memory list what stands in host memory (R601, log 3): a part of a canonical list is canonical. -/
@[simp] theorem State.afterReset_wf {s : State} (h : Memory.wf s.mem = true) : Memory.wf s.afterReset.mem = true := filter_wf _ h

theorem execDeviceReset_keepsWf (s : State) : KeepsWf s (execDeviceReset s) := .next State.afterReset_wf

theorem execDeviceResetRequest_keepsWf (value : Nat) (s : State) : KeepsWf s (execDeviceResetRequest value s) :=
  .live (.next fun h => by simp [h])

@[simp] theorem crossStep_mem (cross : List (Nat × Nat)) (s : State) (p : Nat × Nat × Nat) : (crossStep cross s p).mem = s.mem := by
  simp [crossStep]

@[simp] theorem State.startFail_mem (s : State) (code : Nat) : (s.startFail code).mem = s.mem := rfl

/-! ### Ingest jobs (13) -/

@[simp] theorem State.clipWrites_mem (s : State) (e c : Nat) (ws : List (Nat × List Byte)) : (s.clipWrites e c ws).mem = s.mem := rfl

@[simp] theorem State.writeClip_mem (s : State) (e : Nat) (p : Profile) (codec : Nat) (d : Desc) (filt : List Byte) (c pic : Nat)
    (frames : List OutPic) : (s.writeClip e p codec d filt c pic frames).mem = s.mem := by
  unfold State.writeClip
  exact (State.clipWrites_mem _ _ _ _).trans (State.setEngine_mem _ _ _)

@[simp] theorem State.dropClip_mem (s : State) (e : Nat) : (s.dropClip e).mem = s.mem := rfl

@[simp] theorem runClips_mem (p : Profile) (codec : Nat) (d : Desc) (filt : List Byte) (e : Nat) (pics : List OutPic) (n c : Nat) (s : State) :
    (runClips p codec d filt e pics n c s).1.mem = s.mem := by
  induction n generalizing c s with
  | zero => rfl
  | succ n ih =>
    unfold runClips
    extract_lets first frames s1
    have h1 : s1.mem = s.mem := by simp [s1]
    split
    · exact h1
    · rw [ih, h1]

@[simp] theorem State.passThrough_mem (s : State) (e : Nat) (p : Profile) (pkts : List (List Byte)) :
    (s.passThrough e p pkts).mem = s.mem := by
  unfold State.passThrough
  exact (State.clipWrites_mem _ _ _ _).trans (State.setEngine_mem _ _ _)

@[simp] theorem State.staged_wf {s : State} (p : Profile) (e : Nat) (bs : List MByte) (h : Memory.wf s.mem = true) :
    Memory.wf (s.staged p e bs).mem = true := by
  unfold State.staged
  exact foldl_wf (fun t i ht => by simp [State.noteRead_mem, ht]) _ h

@[simp] theorem State.runIngest_wf {s : State} (e : Nat) (p : Profile) (d : Desc) (filt : List Byte) (par : Option Nat) (cut : Cut)
    (h : Memory.wf s.mem = true) : Memory.wf (s.runIngest e p d filt par cut).mem = true := by
  unfold State.runIngest
  extract_lets a n all good poisoned pkts units codec dec pics span whole stop copied r g partly failed s1 s2 found early seen
  have hr : r.1.mem = s.mem := runClips_mem p codec d filt e pics stop 0 s
  have hcopied : ∀ t k, Memory.wf t.mem = true → Memory.wf (copied t k).mem = true := fun t k ht => by
    simp [copied, State.noteRead_mem, ht]
  have h1 : s1.mem = s.mem := by simp [s1, hr]
  have h2 : s2.mem = s.mem := by simp [s2, h1]
  split
  · simp [g, hcopied, hr, h]
  · simp [g, hcopied, h2, h]

theorem execIngestJobAssign_keepsWf (par : Option Nat) (cut : Cut) (s : State) : KeepsWf s (execIngestJobAssign par cut s) := by
  refine .live (.next fun h => ?_)
  split
  · split
    · exact h
    · simp [h]
  · exact h

theorem execClipSignal_keepsWf (e : Nat) (s : State) : KeepsWf s (execClipSignal e s) := by
  refine .live (.same ?_)
  split
  · split
    · rfl
    · dsimp only
      split <;> simp
  · rfl

/-! ### Control flow of the core program (08) -/

theorem execIdleEnd_keepsWf (n : Nat) (s : State) : KeepsWf s (execIdleEnd n s) := .live (.next (State.passes_wf _))

@[simp] theorem State.steer_wf {s : State} (n : Nat) (last isLoop : Bool) (outc : Nat → Core → Nat) (act : Nat → Core → Core)
    (reads : List (Nat × Nat)) (h : Memory.wf s.mem = true) : Memory.wf (s.steer n last isLoop outc act reads).mem = true := by
  unfold State.steer
  extract_lets cs mine before all differ pick now first s1 s2
  have h2 : s2.mem = s.mem := by simp [s2, s1]
  exact State.slot_wf _ _ _ (h2 ▸ h)

@[simp] theorem State.branchIf_wf {s : State} (n : Nat) (last : Bool) (sa sb target : Nat) (p : W64 → W64 → Bool)
    (h : Memory.wf s.mem = true) : Memory.wf (s.branchIf n last sa sb target p).mem = true := State.steer_wf _ _ _ _ _ _ h

theorem execLoopCountExpiry_keepsWf (n : Nat) (s : State) : KeepsWf s (execLoopCountExpiry n s) :=
  .live (.same (State.noteFirst_mem _))

theorem execEndProg_keepsWf (n : Nat) (last : Bool) (s : State) : KeepsWf s (execEndProg n last s) := by
  refine .fetched (.next fun h => ?_)
  simp [h]

theorem execInjectedUnitLanded_keepsWf (core unit : Nat) (forNext : Bool) (way : Way) (s : State) :
    KeepsWf s (execInjectedUnitLanded core unit forNext way s) := by
  refine .live (.same ?_)
  split
  · have hbroken : ∀ t, ((s.landBroken core unit forNext t).getD s).mem = s.mem := fun _ => getD_mem (fun _ => State.landBroken_mem) rfl
    simp [hbroken]
  · rfl

/-! ### The Stirrer and the check-value units (13) -/

@[simp] theorem State.stirStart_mem (s : State) (id : Nat) (d : Desc) : (s.stirStart id d).1.mem = s.mem := by
  simp only [State.stirStart]
  split
  · rfl
  · split
    · simp
    · split
      · simp
      · split
        · simp
        · split
          · simp
          · split <;> simp

@[simp] theorem stirNext_mem (l : List Nat) (s : State) : (stirNext l s).mem = s.mem := by
  induction l generalizing s with
  | nil => rfl
  | cons id t ih =>
    unfold stirNext
    split
    · exact ih s
    next c _ =>
      have hstart := s.stirStart_mem id c.desc
      split
      · rfl
      · split
        next h =>
          rw [ih, State.complete_mem]
          simpa only [h] using hstart
        next h => simpa only [h] using hstart

theorem execStirrerCredit_keepsWf (par : Bool) (s : State) : KeepsWf s (execStirrerCredit par s) := by
  refine .live (.same ?_)
  split
  · rfl
  · split
    · rfl
    · simp

theorem execStirrerBatchFull_keepsWf (b : Nat) (s : State) : KeepsWf s (execStirrerBatchFull b s) := by
  refine .live (.same ?_)
  split
  · rfl
  · simp

@[simp] theorem State.writeCvCtl_mem (s : State) (n x : Nat) : (s.writeCvCtl n x).mem = s.mem := by simp [State.writeCvCtl]

@[simp] theorem State.feed_mem (s : State) (n k : Nat) (x : Fed) : (s.feed n k x).mem = s.mem := by simp [State.feed]

/-! ### Maintenance and host accesses to memory (12, 17) -/

@[simp] theorem State.afterQuiesce_wf {s : State} (h : Memory.wf s.mem = true) : Memory.wf s.afterQuiesce.mem = true := by
  have hgo : ∀ l : List Nat, Memory.wf (l.foldl (fun s c => s.pressGo c) s).mem = true :=
    fun l => foldl_wf (fun _ c => State.pressGo_wf c) l h
  simp [State.afterQuiesce, hgo]

theorem execQuiesce_keepsWf (k value : Nat) (s : State) : KeepsWf s (execQuiesce k value s) := .live (.next fun h => by simp [h])

@[simp] theorem State.maintWrite_mem (s : State) (value : Nat) : (s.maintWrite value).mem = s.mem := by
  unfold State.maintWrite
  split <;> rfl

@[simp] theorem State.maintGo_mem (s : State) (cmd value : Nat) : (s.maintGo cmd value).mem = s.mem := by simp [State.maintGo]

@[simp] theorem State.rowLost_wf {s : State} (words : List (Nat × Nat)) (h : Memory.wf s.mem = true) :
    Memory.wf (s.rowLost words).mem = true := by
  unfold State.rowLost
  exact foldl_wf (fun _ w => putBytes_wf (8 * w.1) _) _ h

@[simp] theorem State.useBanks_mem (s : State) (a n : Nat) : (s.useBanks a n).mem = s.mem := by simp [State.useBanks]

@[simp] theorem State.hostWord_wf (a : Nat) (data : List (Option MByte)) {s : State} (w : Nat) (h : Memory.wf s.mem = true) :
    Memory.wf (State.hostWord a data s w).mem = true := by
  unfold State.hostWord
  extract_lets n s1 bad ws s2 s3 s4
  have h1 : s1.mem = s.mem := by simp [s1]
  have h2 : Memory.wf s2.mem = true := State.storeBytes_memWf (8 * w) ws (h1 ▸ h :)
  have h3 : s3.mem = s2.mem := by simp [s3]
  have h4 : s4.mem = s2.mem := by simp [s4, h3]
  simp [h4, h2, h]

@[simp] theorem State.hostPayload_mem (s : State) (data : HostData) (way : Way) : (s.hostPayload data way).1.mem = s.mem := by
  simp [State.hostPayload]

theorem execStoreSignal_keepsWf (core id : Nat) (s : State) : KeepsWf s (execStoreSignal core id s) := by
  refine .live (.same ?_)
  split
  · simp
  · rfl

/-! ### Commands and messages of the Press (14) -/

theorem execPressJob_keepsWf (x : PressHead) (s : State) : KeepsWf s (execPressJob x s) := by
  refine .live (.next (State.deliver_wf (fun s d id h => ?_) x.ring _))
  dsimp only
  split <;> simp [h]

@[simp] theorem State.groupLoad_mem (s : State) (c : Cmd) : (s.groupLoad c).mem = s.mem := by simp [State.groupLoad]

theorem execPressGroupTableLoad_keepsWf (r : Nat) (s : State) : KeepsWf s (execPressGroupTableLoad r s) := by
  refine .live (.next fun h => ?_)
  split
  · simp [h]
  · refine State.deliver_wf (fun s d id h => ?_) r _ h
    dsimp only
    split
    · simp [h]
    · split
      · simp [h]
      · split <;> simp [h]

@[simp] theorem State.shardLoad_mem (s : State) (c : Cmd) : (s.shardLoad c).mem = s.mem := by simp [State.shardLoad]

theorem execShardGroupTableLoad_keepsWf (r : Nat) (s : State) : KeepsWf s (execShardGroupTableLoad r s) := by
  refine .live (.next fun h => ?_)
  split
  · simp [h]
  · refine State.deliver_wf (fun s d id h => ?_) r _ h
    dsimp only
    split
    · simp [h]
    · split
      · simp [h]
      · split <;> simp [h]

@[simp] theorem State.pressMismatch_wf {s : State} (j : PressJob) (m : Msg) (cause : Nat) (h : Memory.wf s.mem = true) :
    Memory.wf (s.pressMismatch j m cause).mem = true := by
  simp [State.pressMismatch, h]

@[simp] theorem State.pressReturn_mem (s : State) (m : Msg) (block : Nat) : (s.pressReturn m block).mem = s.mem := by
  simp [State.pressReturn]

/-- A lap's message keeps the canonical form where its job's part does. -/
theorem State.pressIn_wf {f : State → PressJob → Msg → State}
    (hf : ∀ s j m, Memory.wf s.mem = true → Memory.wf (f s j m).mem = true) {s : State} (x : Rx) (lap block : Nat) (body : List Byte)
    (h : Memory.wf s.mem = true) : Memory.wf (s.pressIn x lap block body f).mem = true := by
  unfold State.pressIn
  split
  · exact h
  · dsimp only
    split
    · exact h
    · refine State.onArrival_wf (fun s h => ?_) x h
      split
      · simp [h]
      · split
        · simp [h]
        · split
          · split <;> simp [hf, h]
          · simp [h]

theorem State.eachPart_wf {f : State → PressJob → Nat → List Byte → State}
    (hf : ∀ s j b x, Memory.wf s.mem = true → Memory.wf (f s j b x).mem = true) {s : State} (j : PressJob) (l : List (Nat × List Byte))
    (h : Memory.wf s.mem = true) : Memory.wf (s.eachPart j l f).mem = true := by
  refine foldl_wf (fun t x ht => ?_) l h
  split
  · exact hf _ _ _ _ ht
  · exact ht

theorem execScaleLapMessage_keepsWf (x : Rx) (block : Nat) (body : List Byte) (par : Bool) (s : State) :
    KeepsWf s (execScaleLapMessage x block body par s) :=
  .live (.next (State.pressIn_wf (fun _ j _ => State.eachPart_wf (fun _ j _ _ => State.lap1_wf j _ _ _ _) j _) x 1 block body))

theorem execSumLapRecord_keepsWf (x : Rx) (block : Nat) (body : List Byte) (par : Bool) (s : State) :
    KeepsWf s (execSumLapRecord x block body par s) :=
  .live (.next (State.pressIn_wf (fun _ j _ => State.eachPart_wf (fun _ j _ _ => State.lap2_wf j _ _ _ _ _) j _) x 2 block body))

theorem execResultLapRecord_keepsWf (x : Rx) (block : Nat) (body : List Byte) (par : Bool) (s : State) :
    KeepsWf s (execResultLapRecord x block body par s) := by
  refine .live (.next (State.pressIn_wf (fun _ j _ => State.eachPart_wf (fun s j b y h => ?_) j _) x 3 block body))
  simp [h]

/-- A control message keeps the canonical form where its meaning does. -/
theorem State.ctlIn_wf {f : State → State} (hf : ∀ s, Memory.wf s.mem = true → Memory.wf (f s).mem = true) {s : State} (x : Rx) (op : Nat)
    (m : Msg) (h : Memory.wf s.mem = true) : Memory.wf (s.ctlIn x op m f).mem = true := by
  unfold State.ctlIn
  split
  · exact h
  · refine State.onArrival_wf (fun s h => ?_) x h
    simp [hf, h]

@[simp] theorem pressDrain_wf (peer n : Nat) {s : State} (h : Memory.wf s.mem = true) : Memory.wf (pressDrain peer n s).mem = true := by
  induction n generalizing s with
  | zero => exact h
  | succ n ih =>
    unfold pressDrain
    dsimp only
    split
    · exact h
    · split
      · exact h
      · split
        · simp [ih, h]
        · exact ih (by rwa [getD_mem (fun _ hl => (State.pressLeave_mem hl :)) rfl])

theorem execReturnMsg_keepsWf (x : Rx) (hops dst src incarn tag addr arg : Nat) (body : List Byte) (s : State) :
    KeepsWf s (execReturnMsg x hops dst src incarn tag addr arg body s) := by
  refine .live (.next (State.ctlIn_wf (fun s h => ?_) x 3 _))
  split <;> exact h

theorem execSkimMsg_keepsWf (x : Rx) (hops dst src incarn tag addr arg : Nat) (body : List Byte) (s : State) :
    KeepsWf s (execSkimMsg x hops dst src incarn tag addr arg body s) := by
  refine .live (.next (State.ctlIn_wf (fun s h => ?_) x 4 _))
  split
  · exact h
  · simp [h]

theorem execPressResend_keepsWf (cmd : Nat) (s : State) : KeepsWf s (execPressResend cmd s) := by
  refine .live (.next fun h => ?_)
  split
  · split <;> simp [h]
  · exact h

theorem execPressTimeout_keepsWf (cmd : Nat) (s : State) : KeepsWf s (execPressTimeout cmd s) := by
  refine .live (.next fun h => ?_)
  split
  · simp [h]
  · exact h

theorem execPressJobComplete_keepsWf (cmd : Nat) (s : State) : KeepsWf s (execPressJobComplete cmd s) := by
  refine .live (.same ?_)
  split
  · split
    · rfl
    · dsimp only
      split <;> simp
  · rfl

theorem execAckMsg_keepsWf (x : Rx) (hops dst src incarn tag arg : Nat) (s : State) :
    KeepsWf s (execAckMsg x hops dst src incarn tag arg s) := by
  refine .live (.next (State.onArrival_wf (fun s h => ?_) x))
  dsimp only
  split
  · simp [h]
  · split
    · simp [h]
    · split
      · simp [h]
      · split
        · simp [h]
        · split
          · simp [h]
          · exact foldl_wf (fun _ (j : PressJob) => State.pressFail_wf j.cmd _) _ (by simp [h])

/-! ### Security, management, test port (21) -/

@[simp] theorem State.secStart_mem (s : State) : s.secStart.mem = s.mem := by
  unfold State.secStart
  split
  · split <;> rfl
  · rfl

@[simp] theorem State.attGo_mem (s : State) : s.attGo.mem = s.mem := by simp [State.attGo]

@[simp] theorem State.bootGo_mem (s : State) : s.bootGo.mem = s.mem := by simp [State.bootGo]

@[simp] theorem State.writeSecCtl_mem (s : State) (v : Nat) : (s.writeSecCtl v).mem = s.mem := by simp [State.writeSecCtl]

@[simp] theorem State.secNext_mem (s : State) : s.secNext.mem = s.mem := by simp [State.secNext]

theorem execAttestationDone_keepsWf (err : Bool) (s : State) : KeepsWf s (execAttestationDone err s) := by
  refine .live (.same ?_)
  split
  · simp
  · rfl

theorem execBootCheckEnd_keepsWf (err : Bool) (s : State) : KeepsWf s (execBootCheckEnd err s) := by
  refine .live (.same ?_)
  split
  · simp [State.noteRead_mem]
  · rfl

@[simp] theorem State.mgmtNext_mem (s : State) : s.mgmtNext.1.mem = s.mem := rfl

@[simp] theorem mgmtReadGo_mem (n : Nat) (s : State) (l : List Byte) : (mgmtReadGo n s l).1.mem = s.mem := by
  induction n generalizing s l with
  | zero => rfl
  | succ n ih => rw [mgmtReadGo, ih, State.mgmtNext_mem]

/-! ### Registers (22) -/

/-- A register write that is a command of the model keeps the canonical form where the command does. -/
theorem via_wf {s : State} {f : State → Host.Outcome State Fault Refusal} (hf : KeepsWf s (f s)) (h : Memory.wf s.mem = true) :
    Memory.wf (via s f).mem = true := by
  unfold via
  split
  next ht => exact hf h _ ht
  next => exact h

@[simp] theorem State.putUci_wf {s : State} (o v : Nat) (h : Memory.wf s.mem = true) : Memory.wf (s.putUci o v).mem = true := by
  unfold State.putUci
  dsimp only
  split
  · exact via_wf (execDeviceResetRequest_keepsWf v s) h
  · split
    · split <;> simp [h]
    · split
      · split
        · simp [h]
        · exact via_wf (execEventRingEnable_keepsWf _ v s) h
        · exact via_wf (execEventRingHeadWrite_keepsWf _ v s) h
        · exact via_wf (execArmed_keepsWf _ v s) h
        · exact h
      · split
        · exact via_wf (execDoorbell_keepsWf _ v [] s) h
        · exact h

@[simp] theorem State.putClk_wf {s : State} (o v : Nat) (h : Memory.wf s.mem = true) : Memory.wf (s.putClk o v).mem = true := by
  unfold State.putClk
  dsimp only
  split
  · exact h
  · split
    · exact via_wf (execReferenceSwitch_keepsWf v s) h
    · exact via_wf (execCfgBusChange_keepsWf v s) h
    · split
      · exact via_wf (execSynchronisedChangeRequest_keepsWf v s) h
      · exact h
    · simp [h]
    · exact h
    · split
      · exact via_wf (execStoppedChangeRequest_keepsWf v s) h
      · exact h
    · exact via_wf (execClkEnCrm_keepsWf v s) h
    · exact via_wf (execClkEnGrb_keepsWf v s) h
    · exact via_wf (execClkEnMisc_keepsWf v s) h
    · split
      · exact via_wf (execHoldCounterClear_keepsWf v s) h
      · exact h
    · exact h

@[simp] theorem State.putLadleQ_mem (s : State) (c n v : Nat) : (s.putLadleQ c n v).mem = s.mem := by simp [State.putLadleQ]

@[simp] theorem State.putCore_mem (s : State) (c o v : Nat) : (s.putCore c o v).mem = s.mem := by
  simp only [State.putCore]
  split
  · simp
  · split <;> simp

@[simp] theorem State.putMem_wf {s : State} (o v : Nat) (h : Memory.wf s.mem = true) : Memory.wf (s.putMem o v).mem = true := by
  simp only [State.putMem]
  split
  · have hquiesce := via_wf (execQuiesce_keepsWf (o / 0x1000) v s) h
    simp [hquiesce, h]
  · split <;> simp [h]

@[simp] theorem State.setGrbCtl_mem (s : State) (v : Nat) : (s.setGrbCtl v).mem = s.mem := rfl

@[simp] theorem State.putGrb_mem (s : State) (o v : Nat) : (s.putGrb o v).mem = s.mem := by simp [State.putGrb]

@[simp] theorem State.putCrm_mem (s : State) (o v : Nat) : (s.putCrm o v).mem = s.mem := by
  simp only [State.putCrm]
  split
  · split <;> simp
  · simp

@[simp] theorem State.putPrs_mem (s : State) (o v : Nat) : (s.putPrs o v).mem = s.mem := by
  simp only [State.putPrs]
  split <;> simp

@[simp] theorem State.putCel_mem (s : State) (o v : Nat) : (s.putCel o v).mem = s.mem := by simp [State.putCel]

@[simp] theorem State.putSec_mem (s : State) (o v : Nat) : (s.putSec o v).mem = s.mem := by
  simp only [State.putSec]
  split
  · simp
  · split <;> simp

@[simp] theorem State.putTst_wf {s : State} (o v : Nat) (h : Memory.wf s.mem = true) : Memory.wf (s.putTst o v).mem = true := by
  simp only [State.putTst]
  split
  · simp [h]
  · split
    · exact h
    · simp [h]
    · exact h
    · exact via_wf (execServiceRequest_keepsWf v s) h
    · exact h
    · exact via_wf (execReflect_keepsWf v s) h
    · exact h

@[simp] theorem State.regPut_wf {s : State} (o v : Nat) (h : Memory.wf s.mem = true) : Memory.wf (s.regPut o v).mem = true := by
  simp [State.regPut, h]

@[simp] theorem State.cfgWrite_wf {s : State} (off w value : Nat) (h : Memory.wf s.mem = true) :
    Memory.wf (s.cfgWrite off w value).mem = true := by
  unfold State.cfgWrite
  split
  · simp [h]
  · exact h

@[simp] theorem cfgDrain_wf (l : List (Nat × Nat × Nat)) {s : State} (h : Memory.wf s.mem = true) : Memory.wf (cfgDrain l s).mem = true := by
  induction l generalizing s with
  | nil => exact h
  | cons a t ih => simp [cfgDrain, ih, h]

@[simp] theorem State.cfgResume_wf {s : State} (h : Memory.wf s.mem = true) : Memory.wf s.cfgResume.mem = true := cfgDrain_wf _ h

theorem execStoppedChangeRestart_keepsWf (s : State) : KeepsWf s (execStoppedChangeRestart s) := by
  refine .live (.next fun h => ?_)
  split
  · split
    · exact h
    · dsimp only
      split <;> simp [h]
  · exact h

@[simp] theorem State.tick_wf {s : State} (h : Memory.wf s.mem = true) : Memory.wf s.tick.mem = true := by simp [State.tick, h]

/-! ### Commands that write a range, a batch of words or what several jobs leave -/

theorem execBulkTankReady_keepsWf (fitted : List Nat) (s : State) : KeepsWf s (execBulkTankReady fitted s) :=
  .live (.next fun h => by simp [clear_wf, h])

theorem execMemoryRead_keepsWf (a n : Nat) (way : ReadWay) (s : State) : KeepsWf s (execMemoryRead a n way s) :=
  .live (.next fun h => by simp [State.noteRead_mem, h])

theorem execMemoryWrite_keepsWf (a : Nat) (data : HostData) (way : Way) (s : State) : KeepsWf s (execMemoryWrite a data way s) := by
  refine .live (.next fun h => ?_)
  have hp : Memory.wf (s.hostPayload data way).1.mem = true := by rwa [State.hostPayload_mem]
  have hwords := fun l => foldl_wf (fun _ w => State.hostWord_wf a (s.hostPayload data way).2 w) l hp
  have hruns := fun l => foldl_wf (fun _ (x : Nat × List MByte) => State.noteWrite_wf x.1 x.2) l hp
  simp [hwords, hruns, h]

theorem execTriggerFire_keepsWf (s : State) : KeepsWf s (execTriggerFire s) := by
  refine .live (.next fun h => ?_)
  split
  · exact h
  · refine foldl_wf (fun t j ht => ?_) _ h
    split <;> simp [ht]

theorem execAbortMsg_keepsWf (x : Rx) (hops dst src incarn tag addr arg : Nat) (s : State) :
    KeepsWf s (execAbortMsg x hops dst src incarn tag addr arg s) := by
  refine .live (.next (State.ctlIn_wf (fun s h => ?_) x 2 _))
  have hends : ∀ p c (l : List PressJob) (u : State), Memory.wf u.mem = true →
      Memory.wf (l.foldl (fun s j => s.pressEnd j p c true) u).mem = true :=
    fun p c l _ => foldl_wf (fun _ j => State.pressEnd_wf j p c true) l
  simp [hends, h]

/-! ### Every command, every step -/

/-- Every command keeps the canonical form. Most compose operations with a lemma above; those with a case split of their own have theirs. -/
theorem exec_keepsWf (s : State) : ∀ i, KeepsWf s (exec i s)
  -- slots of the core program
  | .mop .. | .fadd .. | .fsub .. | .fmul .. | .fma .. | .fmin .. | .fmax .. | .fabs .. | .fneg .. | .fcmpeq .. | .fcmpne .. | .fcmplt ..
  | .fcmple .. | .sel .. | .fdiv .. | .fsqrt .. | .exp2 .. | .exp .. | .log2 .. | .ln .. | .rsqrt .. | .sinpi .. | .cospi .. | .tanh ..
  | .sigm .. | .erf .. | .f2i .. | .f2iz .. | .i2f .. | .frnd .. | .iadd .. | .isub .. | .imul .. | .imin .. | .imax .. | .iabs ..
  | .icmpeq .. | .icmpne .. | .icmplt .. | .icmple .. | .vand .. | .vor .. | .vxor .. | .vnot .. | .vshl .. | .vshr .. | .vsar ..
  | .rol .. | .madd .. | .mullo .. | .mulhi .. | .ucmplt .. | .ucmple .. | .laneidx .. | .perm .. | .genrd .. | .rfsum .. | .risum ..
  | .rfmax .. | .rfmin .. | .rimax .. | .rimin .. | .ridxmax .. | .mand .. | .mor .. | .mxor .. | .mandn .. | .mrange .. | .setvl ..
  | .add .. | .sub .. | .mul .. | .and .. | .or .. | .xor .. | .shl .. | .shr .. | .sar .. | .min .. | .max .. | .slt .. | .sltu ..
  | .seq .. | .li .. | .addi .. | .andi .. | .ori .. | .xori .. | .shli .. | .shri .. | .sari .. | .lui .. | .ld .. | .lds .. | .st ..
  | .rdsr .. | .idle .. | .br .. | .fill .. | .store .. | .movsv .. | .movvs .. | .setas .. | .mpop .. | .semwait .. | .semadd ..
  | .semsub .. => .fetched (.next (State.slot_wf _ _ _))
  | .nop .. => .fetched (.next fun h => State.slot_wf _ _ _ (by simpa using h))
  | .beq .. | .bne .. | .blt .. | .bge .. => .fetched (.next (State.branchIf_wf _ _ _ _ _ _))
  | .loop .. => .fetched (.next (State.steer_wf _ _ _ _ _ _))
  | .rsemadd .. | .rsemsub .. => .fetched (.next (State.remoteSlot_wf _ _ _ _ _ _ _))
  -- commands that compose the operations above
  | .descriptorRead .. | .commandRingEnable .. | .commandRingDisable .. | .referenceSwitchComplete ..
  | .standbyPllLock .. | .holdStop .. | .holdRelease .. | .holdResume .. | .throttleRaise .. | .throttleClear .. | .stretch ..
  | .hourlyGaugeSample .. | .globalSemaphoreUpdate .. | .deadlockDetectorFire .. | .portUpRequest .. | .portDownRequest .. | .linkUp ..
  | .linkFailure .. | .startUp .. | .flitReplay .. | .ingestJobComplete .. | .checkValueBlockStart .. | .stackQuiesced ..
  | .maintenanceOperationEnd .. | .refresh .. | .temperatureRead .. | .scrub ..
  | .attestationRequest .. | .bootCheckRequest .. | .setdasa .. | .entdaa .. | .privateWrite .. | .privateRead ..
  | .railTelemetryUpdate .. | .registerWrite .. => .live (.next fun h => by simp [h])
  | .sppr .. | .hppr .. | .spares .. | .ieee1500 .. => .live (.same (State.maintGo_mem ..))
  | .feedb .. | .feedh .. | .feedw .. => .live (.same (State.feed_mem ..))
  | .semWaitMet .. | .referenceLoss .. | .loopbackByteTimeout .. | .mopQueueStart .. => .live (.same rfl)
  | .jtagBypass .. | .jtagIdcode .. | .samplePreload .. | .jtagExtest .. | .jtagClamp .. | .jtagHighz .. => .same rfl
  -- deliveries from a ring and arrivals at a port that compose them
  | .fence .. | .contextSwitch .. | .calRead .. | .calWrite .. | .gaugeSample .. | .loopback .. | .ingestJob .. | .stirrerEpoch ..
    => .live (.next (State.deliver_wf (fun _ _ _ h => by simp [h]) _ _))
  | .creditItem .. | .laneAck .. | .headerItem .. | .identityItem .. | .uncorrectableCodeword ..
    => .live (.next (State.onArrival_wf (fun _ h => by simp [h]) _))
  | .grantMsg .. => .live (.next (State.ctlIn_wf (fun _ h => by simp [h]) _ _ _))
  -- commands with a lemma of their own
  | .bulkTankReady fitted => execBulkTankReady_keepsWf fitted s
  | .memoryRead a n way => execMemoryRead_keepsWf a n way s
  | .memoryWrite a data way => execMemoryWrite_keepsWf a data way s
  | .triggerFire => execTriggerFire_keepsWf s
  | .abortMsg x hops dst src incarn tag addr arg => execAbortMsg_keepsWf x hops dst src incarn tag addr arg s
  | .bindProgram r => execBindProgram_keepsWf r s
  | .rePlacement r => execRePlacement_keepsWf r s
  | .placementAtBoundary => execPlacementAtBoundary_keepsWf s
  | .run r => execRun_keepsWf r s
  | .runCompletion => execRunCompletion_keepsWf s
  | .ladleCopy r => execLadleCopy_keepsWf r s
  | .pressJob x => execPressJob_keepsWf x s
  | .pressGroupTableLoad r => execPressGroupTableLoad_keepsWf r s
  | .shardGroupTableLoad r => execShardGroupTableLoad_keepsWf r s
  | .semaphoreWait r => execSemaphoreWait_keepsWf r s
  | .semaphoreAdd r => execSemaphoreAdd_keepsWf r s
  | .semaphoreSubtract r => execSemaphoreSubtract_keepsWf r s
  | .contextStart => execContextStart_keepsWf s
  | .fenceRelease r => execFenceRelease_keepsWf r s
  | .doorbell r value host => execDoorbell_keepsWf r value host s
  | .eventRingEnable e value => execEventRingEnable_keepsWf e value s
  | .eventRingHeadWrite e value => execEventRingHeadWrite_keepsWf e value s
  | .armed e value => execArmed_keepsWf e value s
  | .deviceReset => execDeviceReset_keepsWf s
  | .deviceResetRequest value => execDeviceResetRequest_keepsWf value s
  | .serviceRequest value => execServiceRequest_keepsWf value s
  | .referenceSwitch value => execReferenceSwitch_keepsWf value s
  | .cfgBusChange value => execCfgBusChange_keepsWf value s
  | .synchronisedChangeRequest value => execSynchronisedChangeRequest_keepsWf value s
  | .lockCheck => execLockCheck_keepsWf s
  | .changeHold => execChangeHold_keepsWf s
  | .clockSwitch => execClockSwitch_keepsWf s
  | .stoppedChangeRequest value => execStoppedChangeRequest_keepsWf value s
  | .stoppedChangeRestart => execStoppedChangeRestart_keepsWf s
  | .clkEnCrm value => execClkEnCrm_keepsWf value s
  | .clkEnGrb value => execClkEnGrb_keepsWf value s
  | .clkEnMisc value => execClkEnMisc_keepsWf value s
  | .holdCounterClear value => execHoldCounterClear_keepsWf value s
  | .quiesce k value => execQuiesce_keepsWf k value s
  | .reflect value => execReflect_keepsWf value s
  | .attestationDone err => execAttestationDone_keepsWf err s
  | .bootCheckEnd err => execBootCheckEnd_keepsWf err s
  | .writeAcknowledgement x => execWriteAcknowledgement_keepsWf x s
  | .idleEnd n => execIdleEnd_keepsWf n s
  | .loopCountExpiry n => execLoopCountExpiry_keepsWf n s
  | .endProg n last => execEndProg_keepsWf n last s
  | .storeSignal core id => execStoreSignal_keepsWf core id s
  | .semrd n last glob idx sd => execSemrd_keepsWf n last glob idx sd s
  | .stepChurn n last retStart rt late hits => execStepChurn_keepsWf n last retStart rt late hits s
  | .ldi n last q sa hits => execLdi_keepsWf n last q sa hits s
  | .injectedUnitLanded core unit forNext way => execInjectedUnitLanded_keepsWf core unit forNext way s
  | .deliverySignal core id => execDeliverySignal_keepsWf core id s
  | .ladleTransferStart core q => execLadleTransferStart_keepsWf core q s
  | .ladleSignal core q id => execLadleSignal_keepsWf core q id s
  | .remoteOperationTimeout id => execRemoteOperationTimeout_keepsWf id s
  | .readRequest core q id upset hdr => execReadRequest_keepsWf core q id upset hdr s
  | .readResponse id bad router hdr => execReadResponse_keepsWf id bad router hdr s
  | .writePacket id bad router hdr => execWritePacket_keepsWf id bad router hdr s
  | .writeMsg x body => execWriteMsg_keepsWf x body s
  | .semMsg x hops dst src incarn tag arg => execSemMsg_keepsWf x hops dst src incarn tag arg s
  | .ackMsg x hops dst src incarn tag arg => execAckMsg_keepsWf x hops dst src incarn tag arg s
  | .scaleLapMessage x block body par => execScaleLapMessage_keepsWf x block body par s
  | .sumLapRecord x block body par => execSumLapRecord_keepsWf x block body par s
  | .resultLapRecord x block body par => execResultLapRecord_keepsWf x block body par s
  | .returnMsg x hops dst src incarn tag addr arg body => execReturnMsg_keepsWf x hops dst src incarn tag addr arg body s
  | .skimMsg x hops dst src incarn tag addr arg body => execSkimMsg_keepsWf x hops dst src incarn tag addr arg body s
  | .pressResend cmd => execPressResend_keepsWf cmd s
  | .pressTimeout cmd => execPressTimeout_keepsWf cmd s
  | .pressJobComplete cmd => execPressJobComplete_keepsWf cmd s
  | .nakItem x seq => execNakItem_keepsWf x seq s
  | .ingestJobAssign par cut => execIngestJobAssign_keepsWf par cut s
  | .clipSignal e => execClipSignal_keepsWf e s
  | .stirrerCredit par => execStirrerCredit_keepsWf par s
  | .stirrerBatchFull b => execStirrerBatchFull_keepsWf b s
  | .remoteSemaphorePacket x => execRemoteSemaphorePacket_keepsWf x s
  | .semaphoreAcknowledgement x => execSemaphoreAcknowledgement_keepsWf x s
  | .calibrationTestOperationEnd bad back lane drifts temps => execCalibrationTestOperationEnd_keepsWf bad back lane drifts temps s

theorem step_keepsWf (s : State) : KeepsWf s (step s) := by
  unfold step
  split
  · exact .next State.tick_wf
  next c rest _ => exact exec_keepsWf { s with pending := rest } c

/-- Settles O59: a step runs the front command or lets a period pass, and each keeps the canonical form. -/
theorem memoryStaysCanonical : Obligations.MemoryStaysCanonical := fun s t h hst => step_keepsWf s h t hst

end Sys2Proof.Machine
end

section
/-! PROOFS. Ladle transfers (07 R212 to R223, 15 R455). What each operation on a queue, a semaphore and the mesh leaves of the queues, of the
cores and of memory is said once; then what a start, a piece's request, its response and a signal do. -/

namespace Sys2Proof.Machine

/-! ### Queues and their transfers (R217) -/

@[simp] theorem State.queue_setQueue_self (s : State) (c q : Nat) (l : LadleQ) : (s.setQueue c q l).queue c q = l := by
  simp [State.queue, State.setQueue]

/-- A core replaced by one with the same queues. -/
theorem State.queue_setCore_of_ladle {s : State} {c : Nat} {k : Core} (h : k.ladle = (s.core c).ladle) (j q : Nat) :
    (s.setCore c k).queue j q = s.queue j q := by
  unfold State.queue
  rw [State.core_setCore]
  split
  next hj => rw [h, hj]
  next => rfl

theorem Core.FetchErrs.ladle {a b : Core} (h : a.FetchErrs b) : b.ladle = a.ladle := by rw [h]

theorem State.queue_congr {s t : State} (h : t.cores = s.cores) (c q : Nat) : t.queue c q = s.queue c q := by
  rw [State.queue, State.queue, State.core, State.core, h]

theorem State.transfer_congr {s t : State} {c q : Nat} (h : t.queue c q = s.queue c q) (id : Nat) : t.transfer c q id = s.transfer c q id := by
  rw [State.transfer, State.transfer, h]

theorem State.id_of_transfer {s : State} {c q id : Nat} {x : Transfer} (h : s.transfer c q id = some x) : x.id = id := by
  simpa using List.find?_some h

/-- An outstanding transfer replaced in its queue is found there as replaced. -/
theorem State.transfer_putTransfer {s : State} {c q id : Nat} {x y : Transfer} (h : s.transfer c q id = some x) (hy : y.id = id) :
    (s.putTransfer c q y).transfer c q id = some y := by
  have hp : (fun t : Transfer => t.id == id) ∘ (fun t => if t.id = y.id then y else t) = fun t => t.id == id := by
    funext t
    by_cases ht : t.id = y.id
    · simp [ht]
    · simp [ht]
  rw [State.transfer] at h
  rw [State.transfer, State.putTransfer, State.queue_setQueue_self, List.find?_map, hp, h, Option.map_some,
    if_pos ((State.id_of_transfer h).trans hy.symm)]

/-! ### What leaves the queues alone -/

theorem State.issuerNote_queue (s : State) (c : Nat) (t : Transfer) (b : Option Nat) (found : List Nat) (j q : Nat) :
    (s.issuerNote c t b found).queue j q = s.queue j q := by
  unfold State.issuerNote
  split
  · split
    · exact State.queue_setCore_of_ladle (by rfl) j q
    · rfl
  · exact State.queue_congr (congrArg State.Data.cores (s.complete_data ..)) j q
  · rfl
  · rfl

theorem State.refuseTransfer_queue (s : State) (c q kind : Nat) (t : Transfer) (j p : Nat) :
    (s.refuseTransfer c q kind t).queue j p = s.queue j p :=
  (State.issuerNote_queue ..).trans (State.queue_setCore_of_ladle (ladleFail_fetchErrs ..).ladle j p)

theorem State.cvStart_cores (s : State) (c q : Nat) (t : Transfer) : (s.cvStart c q t).cores = s.cores := by
  refine List.foldlRecOn (motive := fun u : State => u.cores = s.cores) _ _ rfl fun u hu n _ => ?_
  dsimp only
  split <;> exact hu

theorem State.noteRead_queue {s : State} {a : Nat} (h : inWordMem a = false) (n j q : Nat) : (s.noteRead a n).queue j q = s.queue j q := by
  rw [State.noteRead, if_neg (by simp [h])]
  dsimp only
  split
  · exact State.queue_setCore_of_ladle ((spadCheck_fetchErrs ..).setCond _).ladle j q
  · rfl

theorem State.noteRead_mesh {s : State} {a : Nat} (h : inWordMem a = false) (n : Nat) :
    (s.noteRead a n).mesh = s.mesh ∧ (s.noteRead a n).meshId = s.meshId := by
  rw [State.noteRead, if_neg (by simp [h])]
  dsimp only
  split <;> exact ⟨rfl, rfl⟩

/-! ### Check-value units with no part in a transfer (R421) -/

/-- A table's value is its default or one of the listed values. -/
theorem Sparse.get_eq_or_mem {α : Type} (d : α) (m : Sparse α) (i : Nat) : Sparse.get d m i = d ∨ (i, Sparse.get d m i) ∈ m := by
  induction m with
  | nil => exact .inl rfl
  | cons e t ih =>
    obtain ⟨k, v⟩ := e
    unfold Sparse.get
    split
    next h => exact .inr (h ▸ List.mem_cons_self)
    next => exact ih.imp_right (List.mem_cons_of_mem _)

theorem State.snoops_of_not_cvPending {s : State} {c q id : Nat} (h : s.cvPending c q id = false) (n : Nat) :
    (s.cv n).snoops.any (fun x => x.core == c && x.queue == q && x.id == id) = false := by
  obtain hn | hn := Sparse.get_eq_or_mem {} s.cvs n
  · rw [State.cv, hn]
    rfl
  · exact Bool.not_eq_true _ ▸ List.any_eq_false.1 h _ hn

theorem State.cvAbsorb_of_not_cvPending {s : State} {c q id : Nat} (h : s.cvPending c q id = false) (p : Nat) (bs : List MByte) :
    s.cvAbsorb c q id p bs = s :=
  List.foldlRecOn (motive := fun t => t = s) _ _ rfl fun t ht n _ => by
    rw [ht, State.snoops_of_not_cvPending h]
    rfl

theorem State.dropTransfer_of_not_cvPending {s : State} {c q id : Nat} (h : s.cvPending c q id = false) :
    s.dropTransfer c q id = s.setQueue c q { s.queue c q with out := (s.queue c q).out.filter (fun x => x.id != id) } := by
  rw [State.dropTransfer, if_neg (by simp [h])]

/-! ### Sets of bits, semaphores of a core (R310, R311) -/

theorem bitOf_setBit_self (v i : Nat) : bitOf (setBit v i) i = true := by
  unfold setBit
  split
  next h => exact h
  next h =>
    have hpos : 0 < 2 ^ i := by positivity
    have hdiv : (v + 2 ^ i) / 2 ^ i = v / 2 ^ i + 1 := Nat.add_div_right _ hpos
    simp only [bitOf, decide_eq_true_eq] at h ⊢
    omega

/-- The semaphores of a core after the first addition to one of them in its period. -/
theorem Core.get_sems_semChange {k : Core} {idx : Nat} (h : netOf k.semNet idx = none) {n : Nat} (hn : n ≠ 0) (j : Nat) :
    Sparse.get 0 (k.semChange idx n).sems j =
      if j = idx then min (Sparse.get 0 k.sems idx + n) (2 ^ 32 - 1) else Sparse.get 0 k.sems j := by
  rw [Core.semChange, if_neg (by exact_mod_cast hn)]
  simp only [netOf_addNet_of_none h, Sparse.get_set, Option.map_some, Option.getD_some, SemNet.value]
  norm_cast

theorem Core.ladle_semChange (k : Core) (idx : Nat) (amount : Int) : (k.semChange idx amount).ladle = k.ladle := by
  unfold Core.semChange
  split <;> rfl

/-- What an addition to a core's semaphore leaves, the waits that it meets over. -/
theorem State.csemChange_waitsMet_spec (s : State) (c i : Nat) (amount : Int) :
    (s.csemChange c i amount).waitsMet.mem = s.mem ∧ (s.csemChange c i amount).waitsMet.core c = (s.core c).semChange i amount := by
  have h := (s.csemChange c i amount).waitsMet_data
  have hcores : (s.csemChange c i amount).waitsMet.cores = (s.setCore c ((s.core c).semChange i amount)).cores :=
    congrArg State.Data.cores h
  refine ⟨congrArg State.Data.mem h, ?_⟩
  rw [State.core, hcores, ← State.core, State.core_setCore, if_pos rfl]

/-! ### The start of a transfer (R213 to R217) -/

/-- The conditions under which a queue's next transfer leaves the waiting list (R217). -/
theorem execLadleTransferStart_of_waiting {core q : Nat} {s : State} {x : Transfer} {rest : List Transfer} (hl : s.clk.lost = false)
    (hw : (s.queue core q).waiting = x :: rest) (ha : s.fuse.active core = true) (hc : s.clocked core = true) (hs : s.switching = false)
    (hr : s.restarting = false) (hlim : (s.queue core q).out.length < s.queueLimit core q) :
    ∃ k peer,
      let s1 := (s.setCore core k).setQueue core q { s.queue core q with waiting := rest }
      let y := { x with peer := peer }
      execLadleTransferStart core q s = .next (
        if !x.desc.ok then s1.refuseTransfer core q 1 x
        else if !s.ladleRanges core x.desc then s1.refuseTransfer core q 0 x
        else (s1.setQueue core q { s.queue core q with waiting := rest, out := (s.queue core q).out ++ [y] }).cvStart core q y) := by
  rw [execLadleTransferStart, live_of _ _ hl]
  simp only [hw, ha, hc, hs, hr, Nat.not_le.2 hlim, Bool.not_true, Bool.or_self, decide_false, Bool.false_eq_true, if_false]
  exact ⟨_, _, rfl⟩

/-- A transfer of the program that is refused is a condition of its core's run: bit 2 under R213, bit 1 under R214 (R215). -/
theorem State.cond_refuseTransfer (s : State) (c q kind : Nat) {x : Transfer} (hx : x.by_ = .program) :
    bitOf ((s.refuseTransfer c q kind x).core c).cond (1 + kind) = true := by
  rw [State.refuseTransfer, State.issuerNote, hx]
  simp only [State.core_setCore, if_true]
  exact bitOf_setBit_self ..

theorem transferStarts : Claims.TransferStarts := by
  intro core q s x rest hl hw ha hc hs hr hlim
  obtain ⟨k, peer, e⟩ := execLadleTransferStart_of_waiting hl hw ha hc hs hr hlim
  have hrefused (kind : Nat) : (((s.setCore core k).setQueue core q { s.queue core q with waiting := rest }).refuseTransfer core q kind x).queue
      core q = { s.queue core q with waiting := rest } := (State.refuseTransfer_queue ..).trans (State.queue_setQueue_self ..)
  refine ⟨_, e, ?_⟩
  by_cases hok : x.desc.ok = true
  · by_cases hrange : s.ladleRanges core x.desc = true
    · rw [if_neg (by simp [hok]), if_neg (by simp [hrange]), State.queue_congr (State.cvStart_cores ..), State.queue_setQueue_self]
      exact ⟨rfl, State.byteAt_congr (State.cvStart_mem ..), fun _ _ => ⟨_, rfl, rfl, rfl, rfl⟩, by simp [hok, hrange]⟩
    · rw [if_neg (by simp [hok]), if_pos (by simp [hrange]), hrefused]
      refine ⟨rfl, State.byteAt_congr (State.refuseTransfer_mem ..), fun _ h => absurd h hrange, fun _ => ⟨rfl, fun hx => ?_⟩⟩
      rw [if_pos hok]
      exact State.cond_refuseTransfer _ core q 0 hx
  · rw [if_pos (by simp [hok]), hrefused]
    refine ⟨rfl, State.byteAt_congr (State.refuseTransfer_mem ..), fun h => absurd h hok, fun _ => ⟨rfl, fun hx => ?_⟩⟩
    rw [if_neg hok]
    exact State.cond_refuseTransfer _ core q 1 hx

/-! ### The end of a transfer and its signal (R217, R218) -/

/-- A transfer whose pieces are read and whose writes were all acknowledged in earlier cycles is over (R218). -/
theorem State.transferOver_of_acknowledged {s : State} {core q : Nat} {x : Transfer} (hn : x.desc.total ≤ x.next) (hr : x.reading = 0)
    (ho : x.outst = 0) (hm : x.msg = none) (hs : x.signalled = false) (hd : x.doneAt < s.epoch) (hcv : s.cvPending core q x.id = false) :
    s.transferOver core q x = true := by
  have hwalk : (x.desc.run + 127) / 128 * prod (x.desc.levels.map fun l => l.count) ≤ x.next := hn
  simp [State.transferOver, hwalk, hr, ho, hm, hs, hd, hcv]

/-- The first of a queue's transfers with a signal may make it (R218). -/
theorem State.signalTurn_of_head (s : State) {l : LadleQ} {x : Transfer}
    (h : (l.out.filter (fun y => y.desc.semKind != 0 && !y.dropped)).head? = some x) : s.signalTurn l x = true := by
  simp [State.signalTurn, h]

theorem LadleDesc.semKind_le_of_ok {d : LadleDesc} (h : d.ok = true) : d.semKind ≤ 3 := by
  by_contra hk
  unfold LadleDesc.ok at h
  split at h <;> simp_all

theorem LadleDesc.semCore_lt_of_ok {d : LadleDesc} (h : d.ok = true) (hk : d.semKind = 3) : d.semCore < 160 := by
  simp only [LadleDesc.ok, hk, Bool.and_eq_true, decide_eq_true_eq] at h
  exact h.2.1

section
variable {core q id : Nat} {s : State} {x : Transfer} (hl : s.clk.lost = false) (hx : s.transfer core q id = some x)
  (hover : s.transferOver core q x = true) (hturn : s.signalTurn (s.queue core q) x = true) (hc : s.clocked core = true)
  (hdrop : x.dropped = false) (hrst : s.restarting = false) (hadd : x.desc.semAdd ≠ 0)
include hl hx hover hturn hc hdrop hrst hadd

/-- A transfer of the program with a semaphore of its own core adds to it and is over. -/
theorem execLadleSignal_of_core (hby : x.by_ = .program) (hk : x.desc.semKind = 1) :
    execLadleSignal core q id s = .next ((s.dropTransfer core q id).csemChange core x.desc.semIdx x.desc.semAdd).waitsMet := by
  rw [execLadleSignal, live_of _ _ hl]
  simp [hx, hc, hover, hturn, hdrop, hrst, hadd, hk, State.issuerNote, hby, State.signalSem]

/-- The same with a device-global one, while the hub's clock runs (R518). -/
theorem execLadleSignal_of_global (hby : x.by_ = .program) (hk : x.desc.semKind = 2) (hhub : s.semStopped 255 = false) :
    execLadleSignal core q id s = .next ((s.dropTransfer core q id).gsemChange x.desc.semIdx x.desc.semAdd).waitsMet := by
  rw [execLadleSignal, live_of _ _ hl]
  simp [hx, hc, hover, hturn, hdrop, hrst, hadd, hk, hhub, State.issuerNote, hby, State.signalSem]

/-- One that names another core's semaphore sends the add (R317). -/
theorem execLadleSignal_of_remote (hk : x.desc.semKind = 3) :
    ∃ f, execLadleSignal core q id s = .next ((((s.putTransfer core q { x with signalled := true }).modCmd x.cmd f).remoteIssue
      (.transfer core q x.cmd id) (BitVec.ofNat 64 (x.desc.semCore + 2 ^ 22)) false x.desc.semIdx x.desc.semAdd).1) := by
  rw [execLadleSignal, live_of _ _ hl]
  simp only [hx, hc, hover, hturn, hdrop, hrst, hadd, hk, Bool.not_true, Bool.false_and, Bool.or_self, decide_false, Bool.false_eq_true, if_false,
    or_self, OfNat.ofNat_ne_zero, Nat.reduceEqDiff]
  exact ⟨_, rfl⟩

end

/-- A remote operation on this device joins those under way (R317). -/
theorem State.remoteIssue_of_self {s : State} {w : W64} (hw : bitOf w.toNat 22 = true) (b : RemoteBy) (glob : Bool) (idx : Nat) (amount : Int) :
    ∃ op : RemoteOp, (s.remoteIssue b w glob idx amount).1 = { s with remote := s.remote ++ [op], remoteId := s.remoteId + 1 } ∧
      op.self = true ∧ op.core = w.toNat % 256 ∧ op.idx = idx ∧ op.amount = amount := by
  rw [State.remoteIssue]
  simp only [hw, if_true]
  exact ⟨_, rfl, rfl, rfl, rfl, rfl⟩

/-- A transfer that no check-value unit still absorbs leaves its queue: of its core that alone changes, and no byte of memory. -/
theorem State.dropTransfer_spec {s : State} {c q id : Nat} (h : s.cvPending c q id = false) :
    ∃ k, s.dropTransfer c q id = s.setCore c k ∧ k.sems = (s.core c).sems ∧ k.semNet = (s.core c).semNet ∧
      Sparse.get {} k.ladle q = { s.queue c q with out := (s.queue c q).out.filter (fun x => x.id != id) } :=
  ⟨_, State.dropTransfer_of_not_cvPending h, rfl, rfl, Sparse.get_set_self ..⟩

theorem transferSignals : Claims.TransferSignals := by
  intro core q id s x hl hx hnext hread hout hmsg hsig hdone hcv hc hdrop hrst hby hok hadd hhub hhead
  have hover := State.transferOver_of_acknowledged hnext hread hout hmsg hsig hdone hcv
  have hturn := s.signalTurn_of_head hhead
  rw [State.id_of_transfer hx] at hcv
  obtain ⟨k, hdropped, hsems, hsemNet, hq⟩ := State.dropTransfer_spec hcv
  have hkind := LadleDesc.semKind_le_of_ok hok
  obtain hk | hk | hk | hk : x.desc.semKind = 0 ∨ x.desc.semKind = 1 ∨ x.desc.semKind = 2 ∨ x.desc.semKind = 3 := by omega
  case inl =>
    have hmem := List.mem_of_mem_head? hhead
    simp [hk] at hmem
  case inr.inl =>
    have e := execLadleSignal_of_core hl hx hover hturn hc hdrop hrst hadd hby hk
    rw [hdropped] at e
    obtain ⟨hmem, hcore⟩ := (s.setCore core k).csemChange_waitsMet_spec core x.desc.semIdx x.desc.semAdd
    rw [State.core_setCore, if_pos rfl] at hcore
    refine ⟨_, e, State.byteAt_congr hmem, fun _ => ?_, fun _ hnet => ?_, by simp [hk], by simp [hk]⟩
    · rw [State.queue, hcore, Core.ladle_semChange, hq]
    · rw [← hsemNet] at hnet
      rw [hcore, Core.get_sems_semChange hnet hadd, if_pos rfl, hsems]
  case inr.inr.inl =>
    have e := execLadleSignal_of_global hl hx hover hturn hc hdrop hrst hadd hby hk (hhub hk)
    rw [hdropped] at e
    obtain ⟨hmem, hcores, hgsems⟩ := (s.setCore core k).gsemChange_waitsMet_spec x.desc.semIdx x.desc.semAdd
    refine ⟨_, e, State.byteAt_congr hmem, fun _ => ?_, by simp [hk], fun _ hnet => ?_, by simp [hk]⟩
    · rw [State.queue_congr hcores, State.queue, State.core_setCore, if_pos rfl, hq]
    · rw [hgsems]
      exact (State.get_gsems_gsemChange (s := s.setCore core k) hnet hadd _).trans (if_pos rfl)
  case inr.inr.inr =>
    obtain ⟨f, e⟩ := execLadleSignal_of_remote hl hx hover hturn hc hdrop hrst hadd hk
    have hcore := LadleDesc.semCore_lt_of_ok hok hk
    have hw : (BitVec.ofNat 64 (x.desc.semCore + 2 ^ 22)).toNat = x.desc.semCore + 2 ^ 22 := by
      rw [BitVec.toNat_ofNat]
      omega
    have hself : bitOf (BitVec.ofNat 64 (x.desc.semCore + 2 ^ 22)).toNat 22 = true := by
      rw [hw, bitOf, decide_eq_true_eq]
      omega
    obtain ⟨op, e', h1, h2, h3, h4⟩ := State.remoteIssue_of_self (s := (s.putTransfer core q { x with signalled := true }).modCmd x.cmd f) hself
      (.transfer core q x.cmd id) false x.desc.semIdx x.desc.semAdd
    rw [e'] at e
    refine ⟨_, e, fun _ => rfl, fun h => absurd hk h, by simp [hk], by simp [hk], fun _ =>
      ⟨State.transfer_putTransfer (y := { x with signalled := true }) hx (State.id_of_transfer hx :), op, rfl, h1, ?_, h3, h4⟩⟩
    rw [h2, hw]
    omega

/-- Settles O29: a start takes the queue's next transfer out of the waiting list, or refuses it by its own checks; a signal adds to the
semaphore that the transfer names, or sends the add to another core's. -/
theorem transfersStartAndEnd : Obligations.TransfersStartAndEnd := ⟨transferStarts, transferSignals⟩

/-! ### Pieces on the mesh (R212, R222, R223, R455) -/

theorem State.mbytesAt_of_clean {s : State} {a n : Nat} (h : ∀ i, i < n → s.byteBad (a + i) = false) :
    s.mbytesAt a n = (List.range n).map fun i => (s.byteAt (a + i), false) :=
  List.map_congr_left fun i hi => congrArg (Prod.mk _) (h i (List.mem_range.1 hi))

/-- A state with the memory and the queue q of core c of another, and a mesh given. -/
def State.SameTransfers (s u : State) (c q : Nat) (mesh : List (Nat × Packet)) : Prop :=
  u.mem = s.mem ∧ u.queue c q = s.queue c q ∧ u.mesh = mesh ∧ u.meshId = s.meshId

/-- A packet of a transfer is sent and the transfer's counts move: memory stays, the packet is the last on the mesh, the transfer has the new
counts. -/
theorem State.SameTransfers.send_putTransfer {s u : State} {c q id : Nat} {mesh : List (Nat × Packet)} {x y : Transfer}
    (h : s.SameTransfers u c q mesh) (hx : s.transfer c q id = some x) (hy : y.id = id) (p : Packet) :
    (∀ b, ((u.send [p]).putTransfer c q y).byteAt b = s.byteAt b) ∧
      ((u.send [p]).putTransfer c q y).mesh = mesh ++ [(s.meshId, p)] ∧ ((u.send [p]).putTransfer c q y).transfer c q id = some y := by
  obtain ⟨hmem, hq, hmesh, hid⟩ := h
  refine ⟨State.byteAt_congr hmem, ?_, State.transfer_putTransfer (s := u.send [p]) ((State.transfer_congr hq id).trans hx) hy⟩
  rw [← hmesh, ← hid]
  rfl

/-- The next piece of a transfer, all of it clean and outside the stacks and the Bulk tank, goes on the mesh with its bytes, and the transfer
counts it as requested. -/
theorem State.pieceRead_of_clean {s : State} {c q id a : Nat} {x : Transfer} {p : Nat × Nat × Nat} (hid : x.id = id)
    (hp : x.desc.piece x.next = p) (ha : resolveSelf c p.1 = a) (hw : inWordMem a = false)
    (hclean : ∀ i, i < p.2.2 → s.byteBad (a + i) = false) :
    ∃ u : State, s.SameTransfers u c q s.mesh ∧ s.pieceRead c q x [] none =
      (u.send [.data (.transfer c q id) a x.next p.2.1 ((List.range p.2.2).map fun i => (s.byteAt (a + i), false))]).putTransfer c q
        { x with next := x.next + 1, reading := x.reading + 1 } := by
  have hbytes : State.mbytesAt { s with noProgress := 0 } a p.2.2 = (List.range p.2.2).map fun i => (s.byteAt (a + i), false) :=
    State.mbytesAt_of_clean hclean
  have hmark : anyMarked ((List.range p.2.2).map fun i => (s.byteAt (a + i), false)) = false := by simp [anyMarked]
  obtain ⟨hmesh, hmeshId⟩ := State.noteRead_mesh (s := { s with noProgress := 0 }) hw p.2.2
  refine ⟨State.noteRead { s with noProgress := 0 } a p.2.2,
    ⟨State.noteRead_mem .., State.noteRead_queue hw p.2.2 c q, hmesh, hmeshId⟩, ?_⟩
  simp only [State.pieceRead, State.discarded, Option.map_none, State.upset, List.foldl_nil, hid, hp, ha, hbytes, hmark, Bool.false_and,
    Bool.false_eq_true, if_false, Bool.or_false]

/-- The queue that the Ladle serves, with its next piece ready, has the piece read. -/
theorem execReadRequest_of_pieceReady {core q id : Nat} {s : State} {x : Transfer} (hl : s.clk.lost = false)
    (hx : s.transfer core q id = some x) (hi : s.injReady core = false) (hg : s.ladleGrant core = some q) (hp : s.pieceReady core x = true)
    (hc : s.clocked core = true) (hs : s.meshRegs.service = true) (upset : List (Nat × Nat)) (hdr : Option Nat) :
    ∃ k : Core, k.ladle = (s.core core).ladle ∧
      execReadRequest core q id upset hdr s = .next ((s.setCore core k).pieceRead core q x upset hdr) := by
  refine ⟨{ s.core core with ladleTurn := q }, rfl, ?_⟩
  rw [execReadRequest, live_of _ _ hl]
  simp [hx, hi, hg, hp, hc, hs]

/-- A clean response of a transfer on this device, which nothing on its route holds back, sends the write of its bytes on. -/
theorem execReadResponse_of_clean {id core q tid src p dst router : Nat} {bs : List MByte} {s : State} {x : Transfer} (hl : s.clk.lost = false)
    (hid : s.mesh.find? (fun p => p.1 == id) = some (id, .data (.transfer core q tid) src p dst bs)) (hx : s.transfer core q tid = some x)
    (hpeer : x.peer = none) (hheld : s.heldBack id (.data (.transfer core q tid) src p dst bs) = false)
    (hcv : s.cvPending core q tid = false) (hbs : anyMarked bs = false) :
    ∃ u : State, s.SameTransfers u core q (s.mesh.filter (fun p => p.1 != id)) ∧ execReadResponse id [] router false s =
      .next ((u.send [.write (.transfer core q tid) (resolveSelf core dst) bs false]).putTransfer core q
        { x with reading := x.reading - 1, outst := x.outst + 1, moved := x.moved + bs.length }) := by
  refine ⟨{ s with mesh := s.mesh.filter (fun p => p.1 != id), noProgress := 0 }, ⟨rfl, rfl, rfl, rfl⟩, ?_⟩
  have habsorb := State.cvAbsorb_of_not_cvPending (s := { s with mesh := s.mesh.filter (fun p => p.1 != id), noProgress := 0 }) hcv p bs
  have hx' : State.transfer { s with mesh := s.mesh.filter (fun p => p.1 != id), noProgress := 0 } core q tid = some x := hx
  rw [execReadResponse, live_of _ _ hl]
  simp only [hid, hheld, State.payload_nil, habsorb, hx', hbs, hpeer, Bool.false_and, Bool.or_false, Bool.false_eq_true, if_false]

/-- Settles O27: a request that is served puts its piece on the mesh, and a clean response the write of its bytes; each is one packet more, and
moves the transfer's counts by one. -/
theorem transferPiecesTravel : Obligations.TransferPiecesTravel := by
  refine ⟨fun core q id s x hl hx hi hg hp => ?_, fun id core q tid src p dst router bs s x hl hid hx hpeer hheld hcv hbs => ?_⟩
  · intro p a hc hs hclean hw
    have hid := State.id_of_transfer hx
    obtain ⟨k, hk, e⟩ := execReadRequest_of_pieceReady hl hx hi hg hp hc hs [] none
    have hqueue : (s.setCore core k).queue core q = s.queue core q := State.queue_setCore_of_ladle hk core q
    obtain ⟨u, hu, e'⟩ := State.pieceRead_of_clean (s := s.setCore core k) (q := q) hid rfl rfl hw hclean
    obtain ⟨hbytes, hmesh, ht⟩ := hu.send_putTransfer (y := { x with next := x.next + 1, reading := x.reading + 1 })
      ((State.transfer_congr hqueue id).trans hx) hid _
    exact ⟨_, e.trans (congrArg _ e'), hbytes, hmesh, _, ht, rfl, rfl, rfl, rfl⟩
  · have hxid := State.id_of_transfer hx
    obtain ⟨u, hu, e⟩ := execReadResponse_of_clean (router := router) hl hid hx hpeer hheld hcv hbs
    obtain ⟨hbytes, hmesh, ht⟩ := hu.send_putTransfer
      (y := { x with reading := x.reading - 1, outst := x.outst + 1, moved := x.moved + bs.length }) hx hxid _
    exact ⟨_, e, hbytes, hmesh, _, ht, rfl, rfl, rfl, rfl⟩

end Sys2Proof.Machine
end

section
/-! PROOFS. The scalar slot's results (08 R248 to R250). Each row of the tables of register and immediate forms is tied to the operation that
its command issues, with the result as the table gives it. -/

namespace Sys2Proof.Machine

open Sys2Proof.Claims

/-! ### Words and results of 64 bits (R248, R249) -/

theorem rWord_eq (op sd sa sb : Nat) : rWord op sd sa sb = .scalar (op + 64 * sd + 2048 * sa + 65536 * sb) :=
  congrArg SlotWord.scalar (by omega)

theorem iWord_eq (op sd sa imm : Nat) : iWord op sd sa imm = .scalar (op + 64 * sd + 2048 * sa + 65536 * imm) :=
  congrArg SlotWord.scalar (by omega)

/-- A word of the immediate form that reads no register. -/
theorem iWord_zero (op sd imm : Nat) : iWord op sd 0 imm = .scalar (op + 64 * sd + 65536 * imm) :=
  congrArg SlotWord.scalar (by omega)

section
variable {w : Nat} (a b : BitVec w)

theorem sub_eq_ofInt_sub : a - b = BitVec.ofInt w (a.toInt - b.toInt) :=
  BitVec.eq_of_toInt_eq (by rw [BitVec.toInt_sub, BitVec.toInt_ofInt])

theorem add_eq_ofInt_add : a + b = BitVec.ofInt w (a.toInt + b.toInt) :=
  BitVec.eq_of_toInt_eq (by rw [BitVec.toInt_add, BitVec.toInt_ofInt])

theorem shiftLeft_eq_ofNat_mul (r : Nat) : a <<< r = BitVec.ofNat w (a.toNat * 2 ^ r) := by
  apply BitVec.eq_of_toNat_eq
  rw [BitVec.toNat_shiftLeft, BitVec.toNat_ofNat, Nat.shiftLeft_eq]

theorem ushiftRight_eq_ofNat_div (r : Nat) : a >>> r = BitVec.ofNat w (a.toNat / 2 ^ r) := by
  apply BitVec.eq_of_toNat_eq
  rw [BitVec.toNat_ushiftRight, BitVec.toNat_ofNat, Nat.shiftRight_eq_div_pow, Nat.mod_eq_of_lt ((Nat.div_le_self ..).trans_lt a.isLt)]

theorem sshiftRight_eq_ofInt_div (r : Nat) : a.sshiftRight r = BitVec.ofInt w (a.toInt / 2 ^ r) := by
  rw [BitVec.sshiftRight_eq, Int.shiftRight_eq_div_pow, Nat.cast_pow, Nat.cast_ofNat]

theorem ite_slt {α : Type} (x y : α) : (if a.slt b then x else y) = if a.toInt < b.toInt then x else y :=
  if_congr decide_eq_true_iff rfl rfl

/-- The lower of two values, the first where they are equal. -/
theorem ite_slt_eq_min : (if b.slt a then b else a) = BitVec.ofInt w (min a.toInt b.toInt) := by
  rw [ite_slt]
  split
  next h => rw [min_eq_right h.le, BitVec.ofInt_toInt]
  next h => rw [min_eq_left (not_lt.1 h), BitVec.ofInt_toInt]

theorem ite_slt_eq_max : (if a.slt b then b else a) = BitVec.ofInt w (max a.toInt b.toInt) := by
  rw [ite_slt]
  split
  next h => rw [max_eq_right h.le, BitVec.ofInt_toInt]
  next h => rw [max_eq_left (not_lt.1 h), BitVec.ofInt_toInt]

end

/-- LUI puts the immediate above the low half of the source. -/
theorem low_or_immediate (a : W64) (m : W32) :
    a &&& 0xFFFFFFFF#64 ||| m.setWidth 64 <<< 32 = BitVec.ofNat 64 (m.toNat * 2 ^ 32 + a.toNat % 2 ^ 32) := by
  apply BitVec.eq_of_toNat_eq
  have ha : a.toNat &&& 2 ^ 32 - 1 = a.toNat % 2 ^ 32 := Nat.and_two_pow_sub_one_eq_mod ..
  have hlow : a.toNat % 2 ^ 32 < 2 ^ 32 := Nat.mod_lt _ (by decide)
  have hm := m.isLt
  have hhigh : (m.toNat % 2 ^ 64) <<< 32 % 2 ^ 64 = m.toNat <<< 32 := by
    rw [Nat.shiftLeft_eq, Nat.shiftLeft_eq]
    omega
  have hmask : (0xFFFFFFFF#64).toNat = 2 ^ 32 - 1 := by decide
  rw [BitVec.toNat_or, BitVec.toNat_and, BitVec.toNat_shiftLeft, BitVec.toNat_setWidth, hmask, ha, hhigh, Nat.or_comm,
    ← Nat.shiftLeft_add_eq_or_of_lt hlow, Nat.shiftLeft_eq, BitVec.toNat_ofNat]
  omega

/-- ADDI adds the immediate's value. -/
theorem add_sextImm (a : W64) (m : W32) : a + sextImm m = BitVec.ofInt 64 (a.toInt + m.toInt) := by
  rw [add_eq_ofInt_add, sextImm, BitVec.toInt_signExtend_of_le (by decide)]

/-! ### What a scalar result leaves due (R249, R285) -/

/-- A scalar result is due at the end of the period of issue, on a core on which only the reads have been noted. -/
theorem Core.scalarRes_due {a b : Core} (s : State) (n sd : Nat) (v : W64) (h : CoreKept a b) (hq : b.queue = a.queue)
    (hs : b.stallDue = a.stallDue) : CoreDue a (b.scalarRes s n sd v) n n (.land (.sreg true sd v)) := due_land _ _ _ _ _ _ h hq hs

theorem Core.scalarR_due (s : State) (n sd sa sb : Nat) (f : W64 → W64 → W64) (c : Nat) (k : Core) :
    CoreDue k (Core.scalarR s n sd sa sb f c k) n n
      (.land (.sreg true sd (f (k.readS s.free c n sa) (k.readS s.free c n sb)))) :=
  Core.scalarRes_due _ _ _ _ (checkReads_kept ..) (checkReads_queue ..) (checkReads_stallDue ..)

theorem Core.scalarI_due (s : State) (n sd sa : Nat) (f : W64 → W64) (c : Nat) (k : Core) :
    CoreDue k (Core.scalarI s n sd sa f c k) n n (.land (.sreg true sd (f (k.readS s.free c n sa)))) :=
  Core.scalarRes_due _ _ _ _ (checkReads_kept ..) (checkReads_queue ..) (checkReads_stallDue ..)

/-! ### Register form -/

/-- A row of the table of register forms: the command issues the row's result of its two registers. -/
def IssuesRegisterForm (e : (Nat → Bool → Nat → Nat → Nat → Instr) × Nat × (W64 → W64 → W64)) : Prop :=
  ∃ f, (∀ n l sd sa sb s, exec (e.1 n l sd sa sb) s =
    fetched s n (rWord e.2.1 sd sa sb) (.next (s.slot n l fun s => Core.scalarR s n sd sa sb f))) ∧ ∀ a b, f a b = e.2.2 a b

/-- Each register form issues the result that the table gives. -/
theorem registerForms_issue : ∀ e ∈ registerForms, IssuesRegisterForm e := by
  simp only [registerForms, List.forall_mem_cons]
  refine ⟨?add, ?sub, ?mul, ?and, ?or, ?xor, ?shl, ?shr, ?sar, ?min, ?max, ?slt, ?sltu, ?seq, List.forall_mem_nil _⟩
  case sub => exact ⟨_, fun _ _ _ _ _ _ => rfl, sub_eq_ofInt_sub⟩
  case shl => exact ⟨_, fun _ _ _ _ _ _ => rfl, fun a b => shiftLeft_eq_ofNat_mul a _⟩
  case shr => exact ⟨_, fun _ _ _ _ _ _ => rfl, fun a b => ushiftRight_eq_ofNat_div a _⟩
  case sar => exact ⟨_, fun _ _ _ _ _ _ => rfl, fun a b => sshiftRight_eq_ofInt_div a _⟩
  case min => exact ⟨_, fun _ _ _ _ _ _ => rfl, ite_slt_eq_min⟩
  case max => exact ⟨_, fun _ _ _ _ _ _ => rfl, ite_slt_eq_max⟩
  case slt => exact ⟨_, fun _ _ _ _ _ _ => rfl, fun a b => ite_slt a b 1 0⟩
  case sltu => exact ⟨_, fun _ _ _ _ _ _ => rfl, fun a b => if_congr BitVec.ult_iff_lt rfl rfl⟩
  case add | mul | and | or | xor | seq => exact ⟨_, fun _ _ _ _ _ _ => rfl, fun _ _ => rfl⟩

/-- Settles O2: each register form issues its table's result. -/
theorem registerFormResults : Obligations.RegisterFormResults := by
  intro e he n sd sa sb s
  obtain ⟨f, h, hf⟩ := registerForms_issue e he
  obtain rfl : f = e.2.2 := funext₂ hf
  rw [← rWord_eq]
  exact slot_gives _ (fun l => h n l sd sa sb s) fun c _ => Core.scalarR_due ..

/-! ### Immediate form, LI and RDSR -/

/-- A row of the table of immediate forms: the command issues the row's result of its register and its immediate. -/
def IssuesImmediateForm (e : (Nat → Bool → Nat → Nat → W32 → Instr) × Nat × (W64 → W32 → W64)) : Prop :=
  ∃ f : W64 → W32 → W64, (∀ n l sd sa imm s, exec (e.1 n l sd sa imm) s =
    fetched s n (iWord e.2.1 sd sa imm.toNat) (.next (s.slot n l fun s => Core.scalarI s n sd sa (f · imm)))) ∧ ∀ a m, f a m = e.2.2 a m

/-- Each immediate form issues the result that the table gives. -/
theorem immediateForms_issue : ∀ e ∈ immediateForms, IssuesImmediateForm e := by
  simp only [immediateForms, List.forall_mem_cons]
  refine ⟨?addi, ?andi, ?ori, ?xori, ?shli, ?shri, ?sari, ?lui, List.forall_mem_nil _⟩
  case addi =>
    exact ⟨fun a m => a + sextImm m, fun _ _ _ _ _ _ => rfl, add_sextImm⟩
  case shli => exact ⟨fun a m => a <<< (m.toNat % 64), fun _ _ _ _ _ _ => rfl, fun a m => shiftLeft_eq_ofNat_mul a _⟩
  case shri => exact ⟨fun a m => a >>> (m.toNat % 64), fun _ _ _ _ _ _ => rfl, fun a m => ushiftRight_eq_ofNat_div a _⟩
  case sari => exact ⟨fun a m => a.sshiftRight (m.toNat % 64), fun _ _ _ _ _ _ => rfl, fun a m => sshiftRight_eq_ofInt_div a _⟩
  case lui => exact ⟨fun a m => a &&& 0xFFFFFFFF#64 ||| m.setWidth 64 <<< 32, fun _ _ _ _ _ _ => rfl, low_or_immediate⟩
  case andi | ori | xori => exact ⟨_, fun _ _ _ _ _ _ => rfl, fun _ _ => rfl⟩

/-- Settles O3: each immediate form issues its table's result, LI its immediate, RDSR the register of the core before its step. -/
theorem immediateFormResults : Obligations.ImmediateFormResults := by
  refine ⟨fun e he n sd sa imm s => ?_, fun n sd imm s => ?_, fun n sd num s => ?_⟩
  · obtain ⟨f, h, hf⟩ := immediateForms_issue e he
    obtain rfl : f = e.2.2 := funext₂ hf
    rw [← iWord_eq]
    exact slot_gives _ (fun l => h n l sd sa imm s) fun c _ => Core.scalarI_due ..
  · rw [← iWord_zero]
    exact slot_gives _ (fun _ => rfl) fun c _ => Core.scalarRes_due _ _ _ _ rfl rfl rfl
  · rw [← iWord_zero]
    exact slot_gives _ (fun _ => rfl) fun c _ => Core.scalarRes_due _ _ _ _ rfl rfl rfl

end Sys2Proof.Machine
end

section
/-! PROOFS. The period of a core on which results land and nothing else is due, the period of a list of cores, and the passing of an epoch
count (09 R280, R283). Each is said once by what it leaves of a core; a register-form bundle is then followed to its end. -/

namespace Sys2Proof.Machine

open Sys2Proof.Claims

/-! ### Folds over cores -/

/-- A fold whose steps leave the start as it is. -/
theorem foldl_eq_self {α β : Type} {f : β → α → β} {b : β} {l : List α} (h : ∀ x ∈ l, f b x = b) : l.foldl f b = b :=
  List.foldlRecOn (motive := fun t => t = b) l f rfl fun t ht x hx => by rw [ht, h x hx]

/-- Steps at different places, each of which touches its own place only: a place stepped at is left as its own step leaves it, taken in a
state that the others' steps led to. -/
theorem foldl_step {σ β : Type} {view : σ → Nat → β} {f : σ → Nat → σ} (hf : ∀ s a c, c ≠ a → view (f s a) c = view s c) {l : List Nat}
    (hl : l.Nodup) (s : σ) (c : Nat) : (c ∉ l → view (l.foldl f s) c = view s c) ∧
      (c ∈ l → ∃ s', view s' c = view s c ∧ view (l.foldl f s) c = view (f s' c) c) := by
  induction l generalizing s with
  | nil => exact ⟨fun _ => rfl, fun h => nomatch h⟩
  | cons a l ih =>
    obtain ⟨ha, hl⟩ := List.nodup_cons.1 hl
    obtain ⟨hout, hin⟩ := ih hl (f s a)
    refine ⟨fun hc => ?_, fun hc => ?_⟩
    · obtain ⟨hca, hcl⟩ := not_or.1 (mt List.mem_cons.2 hc)
      exact (hout hcl).trans (hf s a c hca)
    · by_cases hca : c = a
      · subst hca
        exact ⟨s, rfl, hout ha⟩
      · obtain ⟨s', hs', e⟩ := hin (List.mem_of_ne_of_mem hca hc)
        exact ⟨s', hs'.trans (hf s a c hca), e⟩

/-- The cores of a list, each changed by g. -/
theorem core_foldl_setCore (g : Core → Core) {l : List Nat} (hl : l.Nodup) (s : State) (c : Nat) :
    (l.foldl (fun t a => t.setCore a (g (t.core a))) s).core c = if c ∈ l then g (s.core c) else s.core c := by
  obtain ⟨hout, hin⟩ := foldl_step (view := State.core) (f := fun t a => t.setCore a (g (t.core a)))
    (fun t a c h => (State.core_setCore ..).trans (if_neg h)) hl s c
  split
  next h =>
    obtain ⟨s', hs', e⟩ := hin h
    rw [e, State.core_setCore, if_pos rfl, hs']
  next h => exact hout h

/-! ### The period of a core (R280, R283) -/

theorem State.startQueued_of_no_arrays (s : State) (c n a : Nat) {k : Core} (h : k.arrays = []) : s.startQueued c n k a = k := by
  simp [State.startQueued, h, Sparse.get]

theorem State.arrayTick_of_no_arrays (s : State) (c n a : Nat) (conf : Nat → Bool) (ahead : Bool) {k : Core} (h : k.arrays = []) :
    s.arrayTick c n conf ahead k a = k := by
  simp [State.arrayTick, h, Sparse.get]

theorem State.arrayBanks_of_no_arrays (s : State) (n a : Nat) {k : Core} (h : k.arrays = []) : s.arrayBanks n k a = [] := by
  simp [State.arrayBanks, h, Sparse.get]

/-- Every one of the due events is a result that lands. -/
def OnlyLands (l : List Due) : Prop := ∀ d ∈ l, ∃ e, d.what = .land e

/-- The core with the events of later periods only. -/
def Core.later (k : Core) : Core := { k with queue := k.queue.filter (fun d => k.sched < d.at_) }

/-- The core after a period in which results land and nothing else is due: they land, the count grows, the gates are tested. -/
def Core.tickLands (debug : Bool) (k : Core) : Core :=
  let landed := k.later.landAll debug k.sched (landedOf k.dueNow)
  ({ landed with stallDue := landed.stallDue.filter (fun e => k.sched < e.1), sched := k.sched + 1, ticked := true, wideNow := [] } :
    Core).testGates k.sched

section
variable {s : State} {c : Nat} (ha : (s.core c).arrays = []) (hl : OnlyLands (s.core c).dueNow)
include ha hl

/-- Without an operation on its arrays, and with no MOP due, the core begins its period with the events that are due later. -/
theorem State.coreBegins_of_lands : s.coreBegins c = (s.core c).later := by
  have hstart : (List.range 4).foldl (s.startQueued c (s.core c).sched) (s.core c).later = (s.core c).later :=
    foldl_eq_self fun a _ => s.startQueued_of_no_arrays c _ a ha
  refine (congrArg (s.tickMops c _ _) hstart).trans (foldl_eq_self fun d hd => ?_)
  obtain ⟨e, he⟩ := hl d hd
  simp only [he]

theorem State.wideUsers_of_lands : s.wideUsers c = [] := by
  have harrays : (List.range 4).flatMap (s.arrayBanks (s.core c).sched (s.core c).later) = [] :=
    List.flatMap_eq_nil_iff.2 fun a _ => s.arrayBanks_of_no_arrays _ a ha
  have hdue : s.dueBanks c (s.core c).later (s.core c).dueNow = [] := List.flatMap_eq_nil_iff.2 fun d hd => by
    obtain ⟨e, he⟩ := hl d hd
    simp only [he]
  rw [State.wideUsers, State.coreBegins_of_lands ha hl, harrays, hdue]
  rfl

/-- Where only results land, a period of the core writes and sends nothing. -/
theorem State.tickCore_of_lands : s.tickCore c = { core := (s.core c).tickLands s.debug } := by
  unfold State.tickCore
  extract_lets n due k users wide who clash k1 k2 o o1 k3 k4
  have hk : k = (s.core c).later := State.coreBegins_of_lands ha hl
  have husers : users = [] := State.wideUsers_of_lands ha hl
  have hk1 : k1 = k := foldl_eq_self fun b hb => by
    have hb := (List.mem_filter.1 hb).1
    rw [husers] at hb
    exact nomatch hb
  have hk2 : k2 = k := hk1 ▸ foldl_eq_self fun a _ => s.arrayTick_of_no_arrays c n a _ _ (by rw [hk1, hk]; exact ha)
  have ho : o = { core := k } := hk2 ▸ foldl_eq_self fun d hd => by
    obtain ⟨e, he⟩ := hl d hd
    simp only [State.tickRead, he]
  have ho1 : o1 = { core := k } := ho ▸ foldl_eq_self fun d hd => by
    obtain ⟨e, he⟩ := hl d hd
    simp only [State.tickWrite, he]
  have hk3 : k3 = k.landAll s.debug n (landedOf due) := by
    unfold k3
    rw [ho1]
    refine foldl_eq_self fun d hd => ?_
    obtain ⟨e, he⟩ := hl d hd
    simp only [Core.tickCtl, he]
  unfold k4
  rw [hk3, ho1, husers, hk]
  rfl

end

/-! ### Periods of several cores -/

theorem State.runCore_cores (s : State) (c : Nat) : (s.runCore c).cores = (s.setCore c (s.tickCore c).core).cores := by
  unfold State.runCore
  exact List.foldlRecOn (motive := fun t : State => t.cores = (s.setCore c (s.tickCore c).core).cores) _ _ rfl fun t ht _ _ => ht

theorem State.core_runCore (s : State) (c j : Nat) : (s.runCore c).core j = if j = c then (s.tickCore c).core else s.core j := by
  rw [State.core, s.runCore_cores, ← State.core, State.core_setCore]

/-- A core of the list after the periods of all of them, one after the other. -/
theorem core_foldl_runCore {l : List Nat} (hl : l.Nodup) (s : State) (c : Nat) : (c ∉ l → (l.foldl State.runCore s).core c = s.core c) ∧
    (c ∈ l → ∃ s' : State, s'.core c = s.core c ∧ (l.foldl State.runCore s).core c = (s'.tickCore c).core) := by
  obtain ⟨hout, hin⟩ := foldl_step (view := State.core) (f := State.runCore) (fun s a c h => (s.core_runCore a c).trans (if_neg h)) hl s c
  refine ⟨hout, fun h => ?_⟩
  obtain ⟨s', hs', e⟩ := hin h
  exact ⟨s', hs', e.trans ((s'.core_runCore c c).trans (if_pos rfl))⟩

theorem foldl_gsemChange_cores {α : Type} (i : α → Nat) (d : α → Int) (l : List α) (s : State) :
    (l.foldl (fun t e => t.gsemChange (i e) (d e)) s).cores = s.cores :=
  List.foldlRecOn (motive := fun t : State => t.cores = s.cores) l _ rfl fun t ht _ _ => (t.gsemChange_cores ..).trans ht

@[simp] theorem State.noteFirst_cores (s : State) : s.noteFirst.cores = s.cores := by
  unfold State.noteFirst
  split <;> rfl

@[simp] theorem State.waitsMet_cores (s : State) : s.waitsMet.cores = s.cores := congrArg State.Data.cores s.waitsMet_data

/-- The core whose present bundle has been entered in its trail, in debug mode (R305). -/
def Core.noted (debug : Bool) (k : Core) : Core := if debug then { k with trail := (k.sched, k.pc) :: k.trail } else k

theorem State.core_noteBundle (s : State) (a c : Nat) :
    (s.noteBundle a).core c = if c = a then (s.core c).noted s.debug else s.core c := by
  unfold State.noteBundle Core.noted
  split
  · rw [State.core_setCore]
    split
    next h => rw [h]
    next => rfl
  · simp

theorem State.period_false_cores (s : State) (l : List Nat) : (s.period false l).cores = (l.foldl State.runCore s).cores := by
  simp [State.period, foldl_gsemChange_cores]

theorem State.period_true_cores (s : State) (l : List Nat) : ∃ nb, (s.period true l).cores =
    (l.foldl (fun t c => t.setCore c ((t.core c).nextPc.illegalFetch nb)) (l.foldl State.runCore (l.foldl State.noteBundle s))).cores := by
  simp only [State.period, if_true, State.waitsMet_cores, State.noteFirst_cores, foldl_gsemChange_cores]
  exact ⟨_, rfl⟩

section
variable {l : List Nat} (hl : l.Nodup) (s : State) (c : Nat)
include hl

/-- A core after a period of the cores of a list that ends no bundle. -/
theorem State.core_period_false : (c ∉ l → (s.period false l).core c = s.core c) ∧
    (c ∈ l → ∃ s' : State, s'.core c = s.core c ∧ (s.period false l).core c = (s'.tickCore c).core) := by
  rw [State.core, State.period_false_cores]
  exact core_foldl_runCore hl s c

/-- A core that ends its bundle: it has passed its period, and its program counter has moved. -/
theorem State.core_period_true (hc : c ∈ l) : ∃ (s' : State) (debug : Bool) (nb : Nat), s'.core c = (s.core c).noted debug ∧
    (s.period true l).core c = (s'.tickCore c).core.nextPc.illegalFetch nb := by
  obtain ⟨nb, e⟩ := s.period_true_cores l
  obtain ⟨s1, hs1, e1⟩ := (foldl_step (view := State.core) (f := State.noteBundle) (fun s a c h => (s.core_noteBundle a c).trans (if_neg h)) hl s c).2 hc
  obtain ⟨s2, hs2, e2⟩ := (core_foldl_runCore hl (l.foldl State.noteBundle s) c).2 hc
  refine ⟨s2, s1.debug, nb, ?_, ?_⟩
  · rw [hs2, e1, State.core_noteBundle, if_pos rfl, hs1]
  · rw [State.core, e, ← State.core, core_foldl_setCore (fun k => k.nextPc.illegalFetch nb) hl, if_pos hc, e2]

end

/-! ### The passing of an epoch count (R228, R280, R296, R508) -/

theorem State.noteCrossings_cores (s before : State) : (s.noteCrossings before).cores = s.cores := by
  unfold State.noteCrossings
  split <;> rfl

theorem State.core_mapCores_of_active {s : State} {c : Nat} (ha : s.fuse.active c = true) (f : Nat → Core → Core) :
    (s.mapCores f).core c = f c (s.core c) := by
  have hc : c < 160 := by simp_all [Fuse.active]
  rw [State.core_mapCores, if_pos hc, if_pos ha]

/-- Old changes of the hub reach a core's copies and nothing else of it. -/
theorem State.core_copyOld {s : State} {c : Nat} (ha : s.fuse.active c = true) : ∃ g, s.copyOld.core c = { s.core c with gcopy := g } := by
  unfold State.copyOld
  extract_lets old
  split
  · exact ⟨_, rfl⟩
  · exact ⟨_, State.core_mapCores_of_active ha fun _ k =>
      { k with gcopy := old.foldl (fun m e => Sparse.set 0 m e.1 (Sparse.get 0 s.gsems e.1)) k.gcopy }⟩

/-- Core c with its present period counted (R196, R228, R290). -/
def State.countedCore (s : State) (c : Nat) : Core :=
  if s.clockTicks c then (s.core c).passHold s.hold.freeze s.hold.raising (s.raised c) else s.core c

/-- Core c as its next period begins (R288, R290, R313). -/
def State.nextCore (s : State) (c : Nat) : Core :=
  ((s.countedCore c).subHazards s.debug s.gsemNet).passNext (s.hold.crossing.contains (regionOf c) && s.clockTicks c) s.hold.raising

theorem State.passClocks_cores (s : State) : s.passClocks.cores = s.cores := by
  unfold State.passClocks
  extract_lets s1
  split <;> rfl

/-- The period counted on the cores, in the hold counters and by the detector (R196, R228, R329). -/
def State.counted (p : State) : State :=
  { p.mapCores (fun c k => if p.clockTicks c then k.passHold p.hold.freeze p.hold.raising (p.raised c) else k) with
    hold := p.passTotals
    noProgress := if p.noProgress = 0 then 1 else if p.dld.en && p.pendingWork && (p.region 0).ticks then p.noProgress + 1 else p.noProgress
    dld := p.dld.settle p.noProgress
    memUnits := p.busyUnits 1 }

/-- The next epoch count begun on the clocks and on the cores (R288, R290, R313, R508). -/
def State.begun (p : State) : State :=
  { p.counted.passClocks.mapCores (fun c k =>
      (k.subHazards p.debug p.gsemNet).passNext (p.hold.crossing.contains (regionOf c) && p.clockTicks c) p.hold.raising) with
    gsemNet := [], hostBanks := [] }

/-- The hold root has taken note of the crossings, the causes and the stops, and announces a release that is due (R289 to R296). -/
def State.settledFrom (s before : State) : State :=
  let settled := (s.noteCrossings before).settleHold
  if settled.hold.ready.any (fun e => decide (e + 6 ≤ settled.epoch)) then settled.announce else settled

/-- The stages of an epoch count. -/
theorem State.pass_eq (s : State) : s.pass = (s.passIdle.begun.settledFrom s.passIdle).copyOld.noteFirst.waitsMet := by
  unfold State.pass State.settledFrom State.begun State.counted
  rfl

theorem State.core_begun {p : State} {c : Nat} (ha : p.fuse.active c = true) : p.begun.core c = p.nextCore c := by
  have hfuse : p.counted.passClocks.fuse.active c = true := p.counted.passClocks_fuse ▸ ha
  have hcounted : p.counted.passClocks.core c = p.countedCore c := by
    rw [State.core, State.passClocks_cores]
    exact State.core_mapCores_of_active ha fun c k => if p.clockTicks c then k.passHold p.hold.freeze p.hold.raising (p.raised c) else k
  have h := State.core_mapCores_of_active hfuse fun c k =>
    (k.subHazards p.debug p.gsemNet).passNext (p.hold.crossing.contains (regionOf c) && p.clockTicks c) p.hold.raising
  rw [hcounted] at h
  exact h

theorem State.settledFrom_cores (s before : State) : (s.settledFrom before).cores = s.cores := by
  have h : ((s.noteCrossings before).settleHold).cores = s.cores := (State.settleHold_cores _).trans (s.noteCrossings_cores before)
  unfold State.settledFrom
  extract_lets settled
  split <;> exact h

theorem State.settledFrom_fuse (s before : State) : (s.settledFrom before).fuse = s.fuse := by
  simp [State.settledFrom]

/-- An active core after an epoch count: once the cores that issue nothing have passed their period, its hold cycles are counted and its
next period begins. -/
theorem State.core_pass {s : State} {c : Nat} (ha : s.fuse.active c = true) :
    ∃ g, s.pass.core c = { s.passIdle.nextCore c with gcopy := g } := by
  have hp : s.passIdle.fuse.active c = true := s.passIdle_fuse ▸ ha
  have hbegun : s.passIdle.begun.fuse = s.passIdle.fuse := s.passIdle.counted.passClocks_fuse
  obtain ⟨g, hg⟩ := State.core_copyOld (s := s.passIdle.begun.settledFrom s.passIdle) (c := c) (by rwa [State.settledFrom_fuse, hbegun])
  refine ⟨g, ?_⟩
  rw [State.pass_eq, State.core, State.waitsMet_cores, State.noteFirst_cores, ← State.core, hg, State.core, State.settledFrom_cores,
    ← State.core, State.core_begun hp]

/-! ### What a period and an epoch count leave of a core's results -/

/-- What decides what a core reads from its scalar registers: the events due, the operations on its arrays and the registers. -/
structure Core.Results where
  queue : List Due
  arrays : Sparse Arr
  sregs : Sparse W64

/-- What decides what a core reads from its scalar registers. -/
def Core.results (k : Core) : Core.Results := ⟨k.queue, k.arrays, k.sregs⟩

@[simp] theorem hazardOf_results (k : Core) (debug : Bool) (n issued kind detail : Nat) :
    (k.hazardOf debug n issued kind detail).results = k.results := by
  unfold Core.hazardOf
  split <;> rfl

@[simp] theorem noted_results (debug : Bool) (k : Core) : (k.noted debug).results = k.results := by
  unfold Core.noted
  split <;> rfl

@[simp] theorem noted_sched (debug : Bool) (k : Core) : (k.noted debug).sched = k.sched := by
  unfold Core.noted
  split <;> rfl

@[simp] theorem nextPc_results (k : Core) : k.nextPc.results = k.results := by
  unfold Core.nextPc
  split
  · rfl
  · extract_lets br
    split
    · split
      · rfl
      · split
        · split <;> rfl
        · rfl
    · rfl

@[simp] theorem illegalFetch_results (k : Core) (nb : Nat) : (k.illegalFetch nb).results = k.results := by
  unfold Core.illegalFetch
  split <;> rfl

theorem countHold_results (k : Core) (freeze : Bool) (causes : List Nat) : (k.countHold freeze causes).results = k.results := by
  unfold Core.countHold
  split <;> rfl

theorem passHold_results (k : Core) (freeze raising : Bool) (causes : List Nat) : (k.passHold freeze raising causes).results = k.results := by
  unfold Core.passHold
  extract_lets k1
  split
  · exact countHold_results ..
  · split
    · split
      · exact countHold_results k1 freeze [6]
      · exact countHold_results k1 freeze []
    · rfl

theorem subHazards_results (k : Core) (debug : Bool) (hub : List SemNet) : (k.subHazards debug hub).results = k.results :=
  List.foldlRecOn (motive := fun x : Core => x.results = k.results) _ _ rfl fun x hx e _ => by
    rw [← hx]
    simp only [apply_ite Core.results, hazardOf_results, ite_self]

theorem passNext_results (k : Core) (crossing raising : Bool) : (k.passNext crossing raising).results = k.results := by
  unfold Core.passNext
  extract_lets k1
  split <;> rfl

theorem State.nextCore_results (s : State) (c : Nat) : (s.nextCore c).results = (s.core c).results := by
  rw [State.nextCore, passNext_results, subHazards_results, State.countedCore]
  split
  · exact passHold_results ..
  · rfl

/-- A core that has passed its period keeps its results as the epoch count ends. -/
theorem State.pass_results_of_ticked {s : State} {c : Nat} (ha : s.fuse.active c = true) (ht : (s.core c).ticked = true) :
    (s.pass.core c).results = (s.core c).results := by
  have hidle : s.passIdle.core c = s.core c := by
    unfold State.passIdle
    extract_lets cs
    have hc : c ∉ cs := by simp [cs, Core.passes, ht]
    have hcs : cs.Nodup := List.nodup_range.filter _
    split
    · rfl
    · rw [((_ : State).core_period_false hcs c).1 hc, core_foldl_setCore (fun k => { k with idle := k.idle - 1 }) hcs, if_neg hc]
  obtain ⟨g, hg⟩ := State.core_pass ha
  rw [hg, ← hidle, ← State.nextCore_results]
  rfl

/-! ### The end of a bundle -/

theorem State.tickCore_ticked (s : State) (c : Nat) : (s.tickCore c).core.ticked = true := rfl

@[simp] theorem nextPc_ticked (k : Core) : k.nextPc.ticked = k.ticked := by
  unfold Core.nextPc
  split
  · rfl
  · extract_lets br
    split
    · split
      · rfl
      · split
        · split <;> rfl
        · rfl
    · rfl

@[simp] theorem illegalFetch_ticked (k : Core) (nb : Nat) : (k.illegalFetch nb).ticked = k.ticked := by
  unfold Core.illegalFetch
  split <;> rfl

theorem State.core_stopIssue {s : State} {c : Nat} (ha : s.fuse.active c = true) :
    s.stopIssue.core c = { s.core c with ended := true } := by
  rw [State.stopIssue, State.core, State.noteFirst_cores]
  exact State.core_mapCores_of_active ha fun _ k => { k with ended := true }

theorem State.active_of_issues {s : State} {n c : Nat} (h : s.issues n c = true) : s.fuse.active c = true := by
  simp only [State.issues, Bool.and_eq_true] at h
  tauto

theorem State.sched_of_issues {s : State} {n c : Nat} (h : s.issues n c = true) : (s.core c).sched = n := by
  simp only [State.issues, Bool.and_eq_true, beq_iff_eq] at h
  tauto

/-- At the end of its bundle a core has passed its period; what its results are then stays so, whether issue stops and whether the epoch
count ends. -/
theorem State.endBundle_results {s : State} {n c : Nat} (hi : s.issues n c = true) : ∃ (s' : State) (debug : Bool),
    s'.core c = (s.core c).noted debug ∧ ((s.endBundle n).core c).results = (s'.tickCore c).core.results := by
  have ha := State.active_of_issues hi
  have hc : c ∈ (List.range Config.nPhys).filter (s.issues n) :=
    List.mem_filter.2 ⟨List.mem_range.2 (by simp_all [Fuse.active, Config.nPhys]), hi⟩
  obtain ⟨s', debug, nb, hs', e⟩ := s.core_period_true (List.nodup_range.filter _) c hc
  refine ⟨s', debug, hs', ?_⟩
  unfold State.endBundle
  extract_lets cs s1 s2
  have hcs : cs.isEmpty = false := by
    rw [List.isEmpty_eq_false_iff]
    exact List.ne_nil_of_mem hc
  have h1 : (s1.core c).results = (s'.tickCore c).core.results ∧ (s1.core c).ticked = true := by
    have e : s1.core c = (s'.tickCore c).core.nextPc.illegalFetch nb := e
    rw [e, illegalFetch_results, nextPc_results, illegalFetch_ticked, nextPc_ticked]
    exact ⟨rfl, s'.tickCore_ticked c⟩
  have hf1 : s1.fuse = s.fuse := s.period_fuse true cs
  have h2 : (s2.core c).results = (s1.core c).results ∧ (s2.core c).ticked = (s1.core c).ticked ∧ s2.fuse = s1.fuse := by
    unfold s2
    split
    · split
      · rw [State.core_stopIssue (hf1 ▸ ha)]
        exact ⟨rfl, rfl, s1.stopIssue_fuse⟩
      · exact ⟨rfl, rfl, rfl⟩
    · exact ⟨rfl, rfl, rfl⟩
  obtain ⟨h2, ht2, hf2⟩ := h2
  rw [if_neg (by simp [hcs])]
  split
  · rw [State.pass_results_of_ticked (by rwa [hf2, hf1]) (ht2.trans h1.2), h2, h1.1]
  · rw [h2, h1.1]

/-! ### A register-form bundle (R237, R249, R285) -/

theorem contract_of_no_excess {f : Fuse} (h : f.excess = []) (k : Core) (i n extra : Nat) : k.contract f i n extra = k := by
  simp [Core.contract, Fuse.excessOf, h, Sparse.get]

/-- Whether a core issues a bundle is not decided by what is due on it. -/
theorem State.issues_of_kept {s t : State} {n c : Nat} (hf : t.fuse = s.fuse) (hr : t.regions = s.regions)
    (h : CoreKept (s.core c) (t.core c)) (hs : (t.core c).stallDue = (s.core c).stallDue) : t.issues n c = s.issues n c := by
  have hclk : t.clockTicks c = s.clockTicks c := by simp only [State.clockTicks, State.region, hr]
  have hstall : (t.core c).stalls = (s.core c).stalls := by
    simp only [Core.stalls, Core.stepping, hs]
    rw [h]
  simp only [State.issues, hf, hclk, hstall]
  rw [h]

theorem landedOf_land (n i : Nat) (e : Landed) : landedOf [⟨n, i, .land e⟩] = [(i, e)] := rfl

/-- The only result of a period is written to its register. -/
theorem landAll_sreg (debug : Bool) (n i r : Nat) (fromScalar : Bool) (v : W64) (k : Core) :
    k.landAll debug n [(i, .sreg fromScalar r v)] = k.writeS r v := by
  cases fromScalar <;> rfl

@[simp] theorem checkReads_results (k : Core) (debug : Bool) (n : Nat) (l : List (Nat × Nat)) : (k.checkReads debug n l).results = k.results := by
  rw [Core.results, checkReads_queue, checkReads_kept k debug n l]
  rfl

theorem push_results (k : Core) (at_ n : Nat) (w : Micro) :
    (k.push at_ n w).results = { k.results with queue := k.results.queue ++ [⟨at_, n, w⟩] } := rfl

theorem readS_of_results {k : Core} {q : Core.Results} (h : k.results = q) (hq : q.queue = []) (fr c n : Nat) {r : Nat} (hr : r ≠ 0) :
    k.readS fr c n r = Sparse.get 0 q.sregs r := by
  subst h
  have hearly : k.early n (Micro.toS r) = false := by
    rw [Core.early, show k.queue = [] from hq]
    rfl
  rw [Core.readS, if_neg hr, hearly]
  rfl

/-- A core with one scalar result due in its period, and nothing else: after the period the result is in its register and nothing is
due. -/
theorem results_tickCore_of_sreg {s : State} {c n r : Nat} {v : W64} (hr : r ≠ 0) (ha : (s.core c).arrays = [])
    (hq : (s.core c).queue = [⟨n, n, .land (.sreg true r v)⟩]) (hn : (s.core c).sched = n) :
    (s.tickCore c).core.results = ⟨[], [], Sparse.set 0 (s.core c).sregs r v⟩ := by
  have hdue : (s.core c).dueNow = [⟨n, n, .land (.sreg true r v)⟩] := by simp [Core.dueNow, hq, hn]
  have hlater : (s.core c).later = { s.core c with queue := [] } := by simp [Core.later, hq, hn]
  have hlands : OnlyLands (s.core c).dueNow := by simp [OnlyLands, hdue]
  rw [State.tickCore_of_lands ha hlands, Core.tickLands, hdue, landedOf_land, landAll_sreg, hlater, Core.writeS, if_neg hr, ← ha]
  rfl

/-- Settles O14: the result is due, lands in its register at the end of the bundle's period, and nothing else of the bundle's end or of the
epoch count's touches what the core reads there. -/
theorem registerResultIsReadableNextCount : Obligations.RegisterResultIsReadableNextCount := by
  intro e he n sd sa sb c s hsd _ hruns _ hx hc hi hq ha
  obtain ⟨f, h, hf⟩ := registerForms_issue e he
  obtain rfl : f = e.2.2 := funext₂ hf
  rw [← rWord_eq] at hruns
  refine ⟨_, (h n true sd sa sb s).trans ((fetched_of hruns _).trans (congrArg _ (slot_true hruns _))), ?_⟩
  set v := e.2.2 ((s.core c).readS s.free c n sa) ((s.core c).readS s.free c n sb) with hv
  set s1 := s.issue n fun s => Core.scalarR s n sd sa sb e.2.2 with hs1
  have hk : s1.core c = ((s.core c).checkReads s.debug n [(0, sa), (0, sb)]).push n n (.land (.sreg true sd v)) := by
    rw [hs1, State.core_issue, if_pos hc, if_pos hi]
    exact contract_of_no_excess hx ..
  have hkept : CoreKept (s.core c) (s1.core c) := by
    rw [hk]
    exact (due_push n n _ (checkReads_kept ..) (checkReads_queue ..) (checkReads_stallDue ..)).1
  have hi1 : s1.issues n c = true := by
    refine (State.issues_of_kept (s := s) (t := s1) rfl rfl hkept ?_).trans hi
    rw [hk]
    exact checkReads_stallDue ..
  obtain ⟨s2, debug, hs2, hres⟩ := State.endBundle_results hi1
  have hres2 : (s2.core c).results = ⟨[⟨n, n, .land (.sreg true sd v)⟩], [], (s.core c).sregs⟩ := by
    rw [hs2, noted_results, hk, push_results, checkReads_results]
    simp [Core.results, hq, ha]
  have hsched : (s2.core c).sched = n := by
    rw [hs2, noted_sched, hkept]
    exact State.sched_of_issues hi
  have hfinal := results_tickCore_of_sreg hsd (congrArg Core.Results.arrays hres2) (congrArg Core.Results.queue hres2) hsched
  rw [readS_of_results (hres.trans hfinal) rfl _ _ _ hsd]
  exact Sparse.get_set_self ..

end Sys2Proof.Machine
end

section
/-! PROOFS. Results that land (06 R165, R166, R172, R193; 08 R230, R237), and the narrow accesses from their issue to the value that a read
lands (08 R250). -/

namespace Sys2Proof.Machine

open Sys2Proof.Claims

/-! ### Scalar register 0 (R230) -/

theorem writeS_eq (k : Core) (r : Nat) (v : W64) : k.writeS r v = { k with sregs := (k.writeS r v).sregs } := by
  unfold Core.writeS
  split <;> rfl

theorem writeS_zero (k : Core) (v : W64) : k.writeS 0 v = k := if_pos rfl

theorem writeS_sregs {r : Nat} (hr : r ≠ 0) (k : Core) (v : W64) : (k.writeS r v).sregs = Sparse.set 0 k.sregs r v := by
  rw [Core.writeS, if_neg hr]

theorem scalarRegisterZeroDiscards : Claims.ScalarRegisterZeroDiscards := by
  refine fun k v r q fr c n => ⟨if_pos rfl, writeS_zero k v, fun hr => ?_, fun hq => ?_, writeS_eq k r v⟩
  · rw [writeS_sregs hr, Sparse.get_set_self]
  · by_cases hr : r = 0
    · rw [hr, writeS_zero]
    · rw [writeS_sregs hr, Sparse.get_set_ne _ _ _ hq]

/-! ### Results in their registers (R165, R166, R193, R237) -/

/-- A table after writes to some of n keys from lo on. -/
theorem Sparse.get_foldl_set {α : Type} [DecidableEq α] (d : α) (m : Sparse α) (lo n : Nat) (p : Nat → Bool) (f : Nat → α) (j : Nat) :
    Sparse.get d ((List.range n).foldl (fun m i => if p i then Sparse.set d m (lo + i) (f i) else m) m) j =
      if lo ≤ j ∧ j < lo + n ∧ p (j - lo) = true then f (j - lo) else Sparse.get d m j := by
  induction n with
  | zero => exact (if_neg (by omega)).symm
  | succ n ih =>
    rw [List.range_succ, List.foldl_append, List.foldl_cons, List.foldl_nil]
    by_cases hj : j = lo + n
    · subst hj
      by_cases hp : p n = true
      · simp [hp]
      · simp [hp, ih]
    · have hset : ∀ m', Sparse.get d (if p n then Sparse.set d m' (lo + n) (f n) else m') j = Sparse.get d m' j := fun m' => by
        split
        · exact Sparse.get_set_ne _ _ _ hj
        · rfl
      rw [hset, ih]
      exact if_congr (and_congr_right fun _ => and_congr_left fun _ => by omega) rfl rfl

/-- A vector result in the Pail: the lanes that it writes, in its slot. -/
theorem pail_applyLanded_slot (n i : Nat) (k : Core) (v : Nat) (which : BitVec 128) (words : List W32) (bad : Bool) (u : Nat) {j : Nat}
    (hj : j < 128) : Sparse.get 0 (k.applyLanded n i (.slot v which words bad)).pail (128 * u + j) =
      if u = v ∧ which.getLsbD j = true then words.getD j 0 else Sparse.get 0 k.pail (128 * u + j) := by
  simp only [Core.applyLanded, Sparse.get_foldl_set]
  by_cases hu : u = v
  · subst hu
    rw [show 128 * u + j - u * 128 = j by omega]
    exact if_congr ⟨fun h => ⟨rfl, h.2.2⟩, fun h => ⟨by omega, by omega, h.2⟩⟩ rfl rfl
  · rw [if_neg (by omega), if_neg fun h => hu h.1]

theorem landedResultsReachTheirRegisters : Claims.LandedResultsReachTheirRegisters := by
  refine fun n i k => ⟨fun v which words bad => ?slot, fun v base words bad => ?fill, fun m w bad => ?mask, fun a w => ?stream, fun _ => rfl⟩
  case slot =>
    refine ⟨rfl, fun j hj => ?_, fun u j hu hj => ?_, fun u => Sparse.get_set ..⟩
    · rw [pail_applyLanded_slot n i k v which words bad v hj]
      simp
    · rw [pail_applyLanded_slot n i k v which words bad u hj, if_neg fun h => hu h.1]
  case fill =>
    refine ⟨rfl, fun j => (Sparse.get_setRange ..).trans ?_⟩
    rw [Nat.mul_comm v 128]
  case mask =>
    by_cases hm : m = 0
    · have hk : k.applyLanded n i (.mask m w bad) = k := if_pos hm
      rw [hk]
      exact ⟨rfl, fun _ => rfl, fun h => absurd hm h, fun _ _ => rfl⟩
    · have hk : k.applyLanded n i (.mask m w bad) =
          { k with masks := Sparse.set 0 k.masks m w, maskPoison := Sparse.set false k.maskPoison m bad } := if_neg hm
      rw [hk]
      refine ⟨rfl, fun h => absurd h hm, fun _ => ⟨Sparse.get_set_self .., ?_⟩, fun q hq => Sparse.get_set_ne _ _ _ hq⟩
      simp [Core.maskPois, hm]
  case stream => exact ⟨rfl, fun q => Sparse.get_set ..⟩

/-- Settles O11: a landed result is one write to the table of its register, and register 0 takes none. -/
theorem resultsLandInTheirRegisters : Obligations.ResultsLandInTheirRegisters :=
  ⟨landedResultsReachTheirRegisters, scalarRegisterZeroDiscards⟩

/-! ### Narrow accesses (R250) -/

theorem narrowAccessesIssue : Claims.NarrowAccessesIssue := by
  intro n size sd sa imm s
  rw [← iWord_eq, ← iWord_eq, ← iWord_eq]
  have hdue : ∀ (c : Nat) (k : Core) (l : List (Nat × Nat)) (w : Micro) (i : Nat),
      CoreDue k (((k.checkReads s.debug n l).push n n w).contract s.fuse i n 0) n n w := fun _ _ _ _ _ =>
    due_contract _ _ _ _ (due_push _ _ _ (checkReads_kept ..) (checkReads_queue ..) (checkReads_stallDue ..))
  refine ⟨fun _ => ?ld, fun _ => ?lds, fun _ => ?st⟩
  case ld | lds | st => exact slot_gives _ (fun _ => rfl) fun c _ => hdue c _ _ _ _

theorem leNat_lt (bs : List Byte) : leNat bs < 256 ^ bs.length := by
  induction bs with
  | nil => simp [leNat]
  | cons b t ih =>
    have hb := b.isLt
    rw [leNat, List.length_cons, Nat.pow_succ]
    omega

/-- The signed value of a number of n bits. -/
theorem sext_of_lt {n v : Nat} (h : v < 2 ^ n) : sext n v = if 2 ^ (n - 1) ≤ v then (v : Int) - 2 ^ n else v := by
  simp only [sext, Nat.mod_eq_of_lt h]
  norm_cast

theorem checkSpad_of_not_ahead {k : Core} {issued off len : Nat} (h : k.storeAhead issued off len = false) (debug : Bool) (n : Nat) :
    k.checkSpad debug n issued off len = k := by
  rw [Core.checkSpad, h]
  rfl

theorem spadCheck_queue (s : State) (c off n : Nat) (k : Core) : (s.spadCheck c off n k).queue = k.queue := by
  rw [spadCheck_fetchErrs s c off n k]

/-- A narrow read that meets no other use of its bank leaves due the bytes' value, extended. -/
theorem narrowReadLandsLittleEndian : Claims.NarrowReadLandsLittleEndian := by
  intro s c n i off size sd sgn clash wide who o _ a hwide houtside htable hahead o' v
  have hv : v < 2 ^ (8 * size) := by
    have h := leNat_lt (s.spadBytes c a size)
    rw [State.spadBytes, List.length_map, List.length_range] at h
    rwa [pow_mul]
  have hsext : (if sgn then BitVec.ofInt 64 (sext (8 * size) v) else BitVec.ofNat 64 v) =
      if sgn ∧ 2 ^ (8 * size - 1) ≤ v then BitVec.ofInt 64 ((v : Int) - 2 ^ (8 * size)) else BitVec.ofNat 64 v := by
    cases sgn
    · simp
    · rw [sext_of_lt hv]
      by_cases h : 2 ^ (8 * size - 1) ≤ v <;> simp [h]
  have ho : o' = { o with core := (s.spadCheck c a size o.core).push (n + 2) i (.land (.sreg true sd
      (if sgn then BitVec.ofInt 64 (sext (8 * size) v) else BitVec.ofNat 64 v))) } := by
    have hoff : off / size * size = a := rfl
    simp only [o', State.tickRead, hoff, hwide, houtside, htable, hahead, checkSpad_of_not_ahead hahead, Bool.or_self, Bool.false_eq_true,
      if_false]
    rfl
  rw [ho, ← hsext]
  exact ⟨rfl, rfl, congrArg (· ++ _) (spadCheck_queue ..)⟩

/-- Settles O12: the access is due with its offset at issue, and a read that shares its bank with no other use lands its bytes. -/
theorem narrowAccessesLoadAndStore : Obligations.NarrowAccessesLoadAndStore := ⟨narrowAccessesIssue, narrowReadLandsLittleEndian⟩

end Sys2Proof.Machine
end

section
/-! PROOFS. The move slot and the matrix slot (08 R239 to R243, R256 to R258; 10 R315): what each command leaves due or starts. -/

namespace Sys2Proof.Machine

/-! ### Register moves (R256) -/

theorem maskCount_eq_countP (m : BitVec 128) : maskCount m = (List.range 128).countP (fun i => m.getLsbD i) :=
  List.countP_eq_length_filter.symm

/-- Settles O20: each move leaves its result due, with the word or the count that the register or the mask gives. -/
theorem registerMoveResults : Obligations.RegisterMoveResults := by
  refine fun n s => ⟨fun slot lane sa => ?movsv, fun slot lane sd => ?movvs, fun as sa sb sc fmt => ?setas, fun mask sd => ?mpop⟩
  case movsv =>
    exact slot_gives _ (fun _ => rfl) fun c _ =>
      due_land _ _ _ _ _ _ (checkReads_kept ..) (checkReads_queue ..) (checkReads_stallDue ..)
  case movvs =>
    refine slot_gives _ (fun _ => rfl) fun c _ => ?_
    rw [BitVec.ofNat_toNat]
    exact due_land _ _ _ _ _ _ (vecReads_kept ..) (vecReads_queue ..) (vecReads_stallDue ..)
  case setas =>
    refine slot_gives _ (fun _ => rfl) fun c _ =>
      ⟨_, due_land _ _ _ _ _ _ (checkReads_kept ..) (checkReads_queue ..) (checkReads_stallDue ..), rfl, rfl, ?_, ?_⟩
    · exact BitVec.toNat_setWidth ..
    · exact BitVec.toNat_setWidth ..
  case mpop =>
    refine slot_gives _ (fun _ => rfl) fun c _ => ?_
    rw [← maskCount_eq_countP]
    exact due_land _ _ _ _ _ _ (vecReads_kept ..) (vecReads_queue ..) (vecReads_stallDue ..)

/-! ### Fills and stores (R170, R171, R256 to R258, R315) -/

/-- What a core reads from a scalar register is not touched by the record of a read. -/
@[simp] theorem readS_checkReads (k : Core) (debug : Bool) (m : Nat) (l : List (Nat × Nat)) (fr c n r : Nat) :
    (k.checkReads debug m l).readS fr c n r = k.readS fr c n r := by
  have h := checkReads_results k debug m l
  have hq : (k.checkReads debug m l).queue = k.queue := congrArg Core.Results.queue h
  have hr : (k.checkReads debug m l).sregs = k.sregs := congrArg Core.Results.sregs h
  rw [Core.readS, Core.readS, Core.early, Core.early, hq, hr]

theorem CoreKept.setStores {a b : Core} (h : CoreKept a b) (l : List StoreOp) :
    CoreKept { a with stores := l } { b with stores := l } := by
  unfold CoreKept at *
  rw [h]

theorem CoreKept.stores {a b : Core} (h : CoreKept a b) : b.stores = a.stores := by rw [h]

/-- A core to which a store has been added and on which only notes have been made since. -/
theorem CoreKept.of_addStore {a k b : Core} {l : List StoreOp} (h : CoreKept a k) (h' : CoreKept { k with stores := l } b) :
    CoreKept a { b with stores := a.stores } := by
  have hk : ({ k with stores := a.stores } : Core) = k := by rw [← h.stores]
  exact h.trans (hk ▸ h'.setStores a.stores)

/-- A store added to a core on which only its reads have been noted: its first line is due at n + 2, and where it is local the line's write
at n + 4 + X. -/
theorem due_store {a k : Core} (f : Fuse) (n : Nat) (loc : Bool) (late : Nat) (h : CoreKept a k) (hq : k.queue = a.queue) (st : StoreOp) :
    let k1 := (({ k with stores := k.stores ++ [st] } : Core).push (n + 2) n (.storeTake n 0)).contract f 20 n 0
    let b := if loc then (k1.push (n + 4 + late) n (.storeWrite n 0)).contract f 21 n late else k1
    CoreKept a { b with stores := a.stores } ∧ b.stores = a.stores ++ [st] ∧
      b.queue = a.queue ++ ⟨n + 2, n, .storeTake n 0⟩ :: (if loc then [⟨n + 4 + late, n, .storeWrite n 0⟩] else []) := by
  intro k1 b
  obtain ⟨hk1, hq1, -⟩ : CoreDue { k with stores := k.stores ++ [st] } k1 (n + 2) n (.storeTake n 0) :=
    due_contract _ _ _ _ (due_push _ _ _ rfl rfl rfl)
  have hb : CoreKept { k with stores := k.stores ++ [st] } b ∧
      b.queue = k.queue ++ ⟨n + 2, n, .storeTake n 0⟩ :: (if loc then [⟨n + 4 + late, n, .storeWrite n 0⟩] else []) := by
    cases loc
    · exact ⟨hk1, hq1⟩
    · obtain ⟨hk2, hq2, -⟩ : CoreDue k1 b (n + 4 + late) n (.storeWrite n 0) := due_contract _ _ _ _ (due_push _ _ _ rfl rfl rfl)
      exact ⟨hk1.trans hk2, by simp [hq2, hq1]⟩
  exact ⟨CoreKept.of_addStore h hb.1, hb.1.stores.trans (congrArg (· ++ [st]) h.stores), hq ▸ hb.2⟩

theorem storeIssues (n tmpl sa src sb sem : Nat) (loc sig : Bool) (s : State) (t : Template)
    (ht : s.prog.bind (fun p => p.templates[tmpl]?) = some t) :
    SlotGives (fun l => .store n l tmpl sa src sb loc sem sig) (storeWord tmpl sa src sb loc sem sig) s n (fun c a b =>
      let base := (a.readS s.free c n sb).toNat % (if loc then 2 ^ 25 else 2 ^ 52)
      (s.storeRefused c t loc base = true → CoreKept a b ∧ b.queue = a.queue ∧ bitOf b.cond 1 = true) ∧
      (s.storeRefused c t loc base = false → ∃ st : StoreOp, CoreKept a { b with stores := a.stores } ∧ b.stores = a.stores ++ [st] ∧
        st.id = n ∧ st.tmpl = t ∧ st.base = base ∧ st.loc = loc ∧ st.sem = sem ∧ st.sig = sig ∧ st.lines = [] ∧ st.written = 0 ∧
        st.src = (if t.srcVec then src else src % 4 + 4 * ((a.readS s.free c n sa).toNat % 2048)) ∧
        b.queue = a.queue ++ ⟨n + 2, n, .storeTake n 0⟩ :: (if loc then [⟨n + 4 + t.lateBy, n, .storeWrite n 0⟩] else []))) := by
  refine slot_gives _ (fun _ => rfl) fun c _ => ?_
  intro base
  have hbase : base = if loc then ((s.core c).readS s.free c n sb).toNat % 2 ^ 25 else ((s.core c).readS s.free c n sb).toNat % 2 ^ 52 :=
    apply_ite (((s.core c).readS s.free c n sb).toNat % ·) _ _ _
  simp only [ht, readS_checkReads, ← hbase]
  have hkept := checkReads_kept (s.core c) s.debug n ((if t.srcVec then [] else [(0, sa)]) ++ [(0, sb)])
  have hqueue := checkReads_queue (s.core c) s.debug n ((if t.srcVec then [] else [(0, sa)]) ++ [(0, sb)])
  set k := (s.core c).checkReads s.debug n ((if t.srcVec then [] else [(0, sa)]) ++ [(0, sb)])
  refine ⟨fun hr => ?_, fun hr => ?_⟩
  · rw [if_pos hr]
    exact ⟨hkept.trans rfl, hqueue, bitOf_setBit_self ..⟩
  · rw [if_neg (by simp [hr])]
    obtain ⟨h, hs, hq⟩ := due_store s.fuse n loc t.lateBy hkept hqueue (_ : StoreOp)
    exact ⟨_, h, hs, rfl, rfl, rfl, rfl, rfl, rfl, rfl, rfl, rfl, hq⟩

theorem Core.stores_semChange (k : Core) (idx : Nat) (amount : Int) : (k.semChange idx amount).stores = k.stores := by
  unfold Core.semChange
  split <;> rfl

/-- An addition to a core's semaphore touches no other core, the waits that it meets over. -/
theorem State.core_csemChange_waitsMet_of_ne (s : State) {c j : Nat} (h : j ≠ c) (i : Nat) (amount : Int) :
    (s.csemChange c i amount).waitsMet.core j = s.core j := by
  rw [State.core, State.waitsMet_cores]
  exact (State.core_setCore ..).trans (if_neg h)

/-- Core c forgets a store. -/
def State.forgetStore (s : State) (c id : Nat) : State :=
  s.setCore c { s.core c with stores := (s.core c).stores.filter (fun x => x.id != id) }

/-- A store that signals, its writes acknowledged in earlier cycles, is forgotten and adds 1 to its semaphore. -/
theorem execStoreSignal_of_done {s : State} {core id : Nat} {st : StoreOp} (hl : s.clk.lost = false)
    (hst : (s.core core).getStore id = some st) (hsent : st.sent = true) (hout : st.outst = 0) (hsig : st.sig = true) (hd : st.doneAt < s.epoch) :
    execStoreSignal core id s = .next ((s.forgetStore core id).csemChange core st.sem 1).waitsMet := by
  rw [execStoreSignal, live_of _ _ hl]
  simp only [hst, hsent, hout, hsig, hd, decide_true, beq_self_eq_true, Bool.and_self, if_true]
  rfl

/-- Settles O21: a fill leaves its first unit due, a store its first line, and a store's signal is one addition to its semaphore. -/
theorem fillAndStore : Obligations.FillAndStore := by
  refine ⟨fun n slot fmt sa laneBase c128 s => ?fill, fun n tmpl sa src sb sem loc sig s p t hp ht => ?store,
    fun core id s st hl hst hsent hout hsig hd hnet => ?signal⟩
  case fill =>
    exact slot_gives _ (fun _ => rfl) fun _ _ =>
      ⟨_, due_contract _ _ _ _ (due_push _ _ _ (checkReads_kept ..) (checkReads_queue ..) (checkReads_stallDue ..)),
        rfl, rfl, rfl, rfl, rfl, rfl, rfl, rfl, rfl⟩
  case store => exact storeIssues n tmpl sa src sb sem loc sig s t (by rw [hp]; exact ht)
  case signal =>
    have hself : (s.forgetStore core id).core core = { s.core core with stores := (s.core core).stores.filter (fun x => x.id != id) } :=
      (State.core_setCore ..).trans (if_pos rfl)
    obtain ⟨hmem, hcore⟩ := (s.forgetStore core id).csemChange_waitsMet_spec core st.sem 1
    have hget := Core.get_sems_semChange (k := (s.forgetStore core id).core core) (by rw [hself]; exact hnet) one_ne_zero
    refine ⟨_, execStoreSignal_of_done hl hst hsent hout hsig hd, State.byteAt_congr hmem, fun c hc => ?_, ?_, fun i hi => ?_, ?_⟩
    · exact (State.core_csemChange_waitsMet_of_ne _ hc ..).trans ((State.core_setCore ..).trans (if_neg hc))
    · rw [hcore]
      exact (hget st.sem).trans ((if_pos rfl).trans (by rw [hself]))
    · rw [hcore]
      exact (hget i).trans ((if_neg hi).trans (by rw [hself]))
    · rw [hcore, Core.stores_semChange, hself]

/-! ### Array operations (R239 to R243) -/

/-- An operation that starts on an array runs there from its first row, and nothing is queued behind it. -/
theorem startOp_arrays (s : State) (c a n : Nat) (g : Bool) (op : MopOp) (k : Core) : ∃ o : ArrayOp,
    (s.startOp c a n g op k).arrays = Sparse.set {} k.arrays a { run := some o } ∧ o.op = op ∧ o.start = n ∧ o.next = 0 := by
  unfold State.startOp
  extract_lets g put u h bad k1 broken
  have hput : ∀ (k' : Core) (o : ArrayOp), k'.arrays = k.arrays → o.op = op → o.start = n → o.next = 0 → ∃ o' : ArrayOp,
      (put k' o).arrays = Sparse.set {} k.arrays a { run := some o' } ∧ o'.op = op ∧ o'.start = n ∧ o'.next = 0 :=
    fun k' o hk ho hn h0 => ⟨o, congrArg (Sparse.set {} · a { run := some o }) hk, ho, hn, h0⟩
  have hcheck : ∀ off len, (s.spadCheck c off len k).arrays = k.arrays := fun off len => by rw [spadCheck_fetchErrs s c off len k]
  split
  · exact hput _ _ rfl rfl rfl rfl
  · split
    · extract_lets e acc fresh k2
      split
      · exact hput _ _ rfl rfl rfl rfl
      · split
        · exact hput _ _ (hcheck ..) rfl rfl rfl
        · exact hput _ _ rfl rfl rfl rfl
    · extract_lets off e acc sl
      split
      · exact hput _ _ rfl rfl rfl rfl
      · split
        · exact hput _ _ (hcheck ..) rfl rfl rfl
        · refine hput k1 _ ?_ rfl rfl rfl
          unfold k1
          split <;> rfl

theorem startQueued_of_waiting {s : State} {c n a : Nat} {k : Core}
    (h : (Sparse.get {} k.arrays a).run.isSome ∨ (Sparse.get {} k.arrays a).queue = none) : s.startQueued c n k a = k := by
  simp only [State.startQueued]
  split
  next hr hq => simp [hr, hq] at h
  next => rfl

theorem startQueued_of_free {s : State} {c n a : Nat} {k : Core} {op : MopOp} {g : Bool} (hr : (Sparse.get {} k.arrays a).run = none)
    (hq : (Sparse.get {} k.arrays a).queue = some (op, g)) : s.startQueued c n k a = s.startOp c a n g op k := by
  simp only [State.startQueued, hr, hq]

/-- The start of an array's queued operation touches no other array. -/
theorem get_startQueued_of_ne (s : State) (c n : Nat) (k : Core) (a i : Nat) (h : i ≠ a) :
    Sparse.get {} (s.startQueued c n k a).arrays i = Sparse.get {} k.arrays i := by
  rcases hr : (Sparse.get {} k.arrays a).run with _ | o
  · rcases hq : (Sparse.get {} k.arrays a).queue with _ | ⟨op, g⟩
    · rw [startQueued_of_waiting (.inr hq)]
    · obtain ⟨o, ho, -⟩ := startOp_arrays s c a n g op k
      rw [startQueued_of_free hr hq, ho, Sparse.get_set_ne _ _ _ h]
  · rw [startQueued_of_waiting (.inl (by rw [hr]; rfl))]

/-- An array after the look at all four queues: a queued operation runs where no other did, and else nothing has changed. -/
theorem get_foldl_startQueued (s : State) (c n : Nat) (k : Core) {i : Nat} (hi : i < 4) :
    let r := Sparse.get {} k.arrays i
    let r' := Sparse.get {} ((List.range 4).foldl (s.startQueued c n) k).arrays i
    (r.run.isSome ∨ r.queue = none → r' = r) ∧
      (r.run = none → ∀ op g, r.queue = some (op, g) → r'.queue = none ∧ ∃ o, r'.run = some o ∧ o.op = op ∧ o.start = n ∧ o.next = 0) := by
  obtain ⟨k', hk', e⟩ := (foldl_step (view := fun (k : Core) i => Sparse.get {} k.arrays i) (get_startQueued_of_ne s c n)
    List.nodup_range k i).2 (List.mem_range.2 hi)
  dsimp only at hk' e ⊢
  rw [e, ← hk']
  refine ⟨fun h => by rw [startQueued_of_waiting h], fun hr op g hq => ?_⟩
  obtain ⟨o, ho, hop, hn, h0⟩ := startOp_arrays s c i n g op k'
  rw [startQueued_of_free hr hq, ho, Sparse.get_set_self]
  exact ⟨rfl, o, rfl, hop, hn, h0⟩

/-- Settles O16: a MOP is due with its registers at issue, the queues' heads start on free arrays, and a MOP that finds its queue empty starts
or is queued. -/
theorem matrixOperationsIssue : Obligations.MatrixOperationsIssue := by
  refine ⟨fun n mode arrays rows as bs ut stride su acc s => ?issue, fun n s hl => ?queued, fun s c n a op k => ⟨fun hb => ?_, fun hb hq =>
    ⟨fun hr => ?starts, fun o hr => ?waits⟩⟩⟩
  case issue =>
    refine slot_gives _ (fun _ => rfl) fun _ _ => ⟨_, due_contract _ _ _ _ (due_push _ _ _ (checkReads_kept ..) (checkReads_queue ..)
      (checkReads_stallDue ..)), rfl, rfl, rfl, rfl, rfl, rfl, rfl, fun hm => ?_⟩
    simp [hm]
  case queued =>
    refine ⟨_, live_of _ _ hl, rfl, fun c hc ha hn hs i hi => ?_⟩
    intro r r'
    have hcore := State.core_mapCores_of_active ha fun c k => if k.sched = n ∧ k.stopped = none then (List.range 4).foldl (s.startQueued c n) k else k
    rw [if_pos ⟨hn, hs⟩] at hcore
    have hr' : r' = Sparse.get {} ((List.range 4).foldl (s.startQueued c n) (s.core c)).arrays i := congrArg (Sparse.get {} ·.arrays i) hcore
    rw [hr']
    exact get_foldl_startQueued s c n (s.core c) hi
  case starts =>
    obtain ⟨o, ho, hop, hn, -⟩ := startOp_arrays s c a n false op k
    refine ⟨o, ?_, hop, hn⟩
    simp [State.mopArray, hb, hr, hq, ho]
  case waits => simp [State.mopArray, hb, hr, hq]
  · simp [State.mopArray, hb]

end Sys2Proof.Machine
end

section
/-! PROOFS. The sync slot's semaphore instructions, remote operations at their issuer and LDI (08 R260 to R265; 07 R210 to R221; 10 R309 to
R317): what each leaves on the cores that issue it. -/

namespace Sys2Proof.Machine

/-! ### Semaphore instructions (R260, R264, R309 to R313) -/

theorem semAmount_eq (k : Core) (fr c n sa : Nat) (imm : BitVec 16) :
    k.semAmount fr c n sa imm = ((k.readS fr c n sa).toNat + imm.toNat) % 2 ^ 32 := Nat.mod_add_mod ..

/-- What a core reads from a scalar register is not touched by the record of a read. -/
@[simp] theorem readS_checkRead (debug : Bool) (m cls num : Nat) (k : Core) (fr c n r : Nat) :
    (Core.checkRead debug m cls num k).readS fr c n r = k.readS fr c n r := readS_checkReads k debug m [(cls, num)] fr c n r

/-- A change of a semaphore by V is due 3 counts after issue, nothing for 0. -/
theorem semChange_due (s : State) (n sa : Nat) (k : Core) {v : Nat} (e : Landed) :
    let b := if v = 0 then Core.checkRead s.debug n 0 sa k else ((Core.checkRead s.debug n 0 sa k).land n 3 e).contract s.fuse 18 n 0
    (v = 0 → CoreKept k b ∧ b.queue = k.queue) ∧ (v ≠ 0 → CoreDue k b (n + 2) n (.land e)) := by
  refine ⟨fun h => ?_, fun h => ?_⟩
  · rw [if_pos h]
    exact ⟨checkRead_kept .., checkRead_queue ..⟩
  · rw [if_neg h]
    exact due_land _ _ _ _ _ _ (checkRead_kept ..) (checkRead_queue ..) (checkRead_stallDue ..)

theorem CoreKept.gates {a b : Core} (h : CoreKept a b) : b.gates = a.gates := by rw [h]

theorem State.core_issue_of_issues {s : State} {n c : Nat} {f : State → Nat → Core → Core} (hc : c < 160) (h : s.issues n c = true) :
    (s.issue n f).core c = f s c (s.core c) := by rw [State.core_issue, if_pos hc, if_pos h]

theorem State.core_issue_of_not_issues {s : State} {n c : Nat} {f : State → Nat → Core → Core} (hc : c < 160) (h : s.issues n c = false) :
    (s.issue n f).core c = s.core c := by simp [State.core_issue, hc, h]

/-- The run of a state does not decide which cores issue a bundle, nor whether one finds it damaged. -/
theorem State.issues_setRun (s : State) (r : Option RunState) (n c : Nat) : ({ s with run := r } : State).issues n c = s.issues n c := rfl

theorem SlotRuns.badFetch {s : State} {n : Nat} {w : SlotWord} (h : SlotRuns s n w) : s.badFetch n = false := h.2.2

/-- A slot command that also changes the run. -/
theorem slot_setRun {s : State} {n : Nat} {w : SlotWord} (h : SlotRuns s n w) (r : Option RunState) (f : State → Nat → Core → Core) :
    ({ s with run := r } : State).slot n false f = ({ s with run := r } : State).issue n f ∧
      ({ s with run := r } : State).slot n true f = (({ s with run := r } : State).issue n f).endBundle n := by
  have hb : ({ s with run := r } : State).badFetch n = false := h.badFetch
  simp [State.slot, hb]

/-- Settles O22: a wait stands at its gate, a change is due by V, a read is due at its landing or, of a device-global semaphore, with the
hub's value at issue. -/
theorem semaphoreSlots : Obligations.SemaphoreSlots := by
  intro n idx sa sd glob imm s V
  have hV : ∀ (c : Nat) (k : Core), V c k = k.semAmount s.free c n sa imm := fun c k => (semAmount_eq ..).symm
  refine ⟨?semwait, ?semadd, ?semsub, ?semrd, fun h hrun => ?global⟩
  case semwait =>
    refine slot_gives _ (fun _ => rfl) fun c _ => ?_
    have h := checkRead_kept s.debug n 0 sa (s.core c)
    refine ⟨(h.gates ▸ h : _), checkRead_queue .., ?_⟩
    show _ ++ [Gate.mk _ _ _ _ _] = _
    simp [hV, h.gates, Core.semAmount]
  case semadd =>
    refine slot_gives _ (fun _ => rfl) fun c _ => ?_
    rw [hV]
    exact semChange_due s n sa (s.core c) _
  case semsub =>
    refine slot_gives _ (fun _ => rfl) fun c _ => ?_
    rw [hV]
    exact semChange_due s n sa (s.core c) _
  case semrd => exact slot_gives _ (fun _ => rfl) fun c _ => due_land _ _ _ _ _ _ rfl rfl rfl
  case global =>
    have hfind : (s.run.bind fun r => r.semrd.find? (fun e => e.1 == n && e.2.1 == idx)) = none := by
      cases hr : s.run with
      | none => rfl
      | some r => exact List.find?_eq_none.2 fun e he => by simp [hrun r hr e he]
    have hexec : ∀ l, exec (.semrd n l true idx sd) s =
        .next (({ s with run := s.run.map (RunState.noteSemrd n idx (Sparse.get 0 s.gsems idx)) } : State).slot n l fun s' _ k =>
          (k.land n 12 (.sreg true sd (BitVec.ofNat 64 (Sparse.get 0 s.gsems idx)))).contract s'.fuse 19 n 0) := fun l => by
      show fetched s n _ _ = _
      simp only [fetched_of h, hfind, ↓reduceIte]
    refine ⟨_, (hexec false).trans (congrArg _ (slot_setRun h _ _).1), (hexec true).trans (congrArg _ (slot_setRun h _ _).2), rfl,
      fun c hc => ⟨?_, ?_⟩⟩
    · intro hi
      rw [State.core_issue_of_issues hc ((State.issues_setRun ..).trans hi)]
      exact due_land _ _ _ _ _ _ rfl rfl rfl
    · intro hi
      rw [State.core_issue_of_not_issues hc ((State.issues_setRun ..).trans hi)]
      rfl

/-! ### What messages and the record of a run leave alone -/

/-- What paces the cores: themselves, their program, the regions' clocks, the hold and the epoch count. -/
structure State.Pacing where
  cores : Sparse Core
  prog : Option Prog
  regions : Sparse Region
  hold : HoldState
  epoch : Nat

def State.pacing (s : State) : State.Pacing := ⟨s.cores, s.prog, s.regions, s.hold, s.epoch⟩

theorem State.core_of_pacing {s t : State} (h : t.pacing = s.pacing) (c : Nat) : t.core c = s.core c :=
  congrArg (fun p : State.Pacing => Sparse.get ({} : Core) p.cores c) h

theorem foldl_pacing {α : Type} {f : State → α → State} (hf : ∀ s x, (f s x).pacing = s.pacing) (l : List α) (s : State) :
    (l.foldl f s).pacing = s.pacing :=
  List.foldlRecOn (motive := fun t => t.pacing = s.pacing) l f rfl fun t ht x _ => (hf t x).trans ht

@[simp] theorem State.sendSlot_pacing (s : State) (n : Nat) (sl : GSlot) (p : Port) : (s.sendSlot n sl p).pacing = s.pacing :=
  foldl_pacing (f := fun s i => s.emit (.item n i)) (fun _ _ => rfl) _ _

@[simp] theorem pump_pacing (n k : Nat) (s : State) : (pump n k s).pacing = s.pacing := by
  induction k generalizing s with
  | zero => rfl
  | succ k ih =>
    simp only [pump]
    split
    · split
      · rw [ih, State.sendSlot_pacing]
      · rfl
    · rfl

theorem State.sendOn_pacing (s : State) (n : Nat) (m : Msg) : (s.sendOn n m).pacing = s.pacing := by
  unfold State.sendOn
  split <;> exact pump_pacing n 64 _

theorem State.sendMsg_pacing {s t : State} {flow : Nat} {m : Msg} (h : s.sendMsg flow m = some t) : t.pacing = s.pacing := by
  obtain ⟨n, -, rfl⟩ := Option.map_eq_some_iff.1 h
  exact s.sendOn_pacing n m

theorem State.remoteIssue_pacing (s : State) (o : RemoteBy) (w : W64) (glob : Bool) (idx : Nat) (amount : Int) :
    (s.remoteIssue o w glob idx amount).1.pacing = s.pacing := by
  simp only [State.remoteIssue]
  split
  · rfl
  · split
    next h => exact (State.sendMsg_pacing h :)
    next => rfl

@[simp] theorem State.noteFirst_pacing (s : State) : s.noteFirst.pacing = s.pacing := by
  unfold State.noteFirst
  split <;> rfl

theorem State.runOutcome_pacing (s : State) (c o : Nat) : (s.runOutcome c o).pacing = s.pacing := s.noteFirst_pacing

/-! ### Remote operations at their issuer (R263, R310, R317, R320) -/

theorem bitOf_setBit_of_lt {v i j : Nat} (h : j < i) : bitOf (setBit v i) j = bitOf v j := by
  unfold setBit
  split
  · rfl
  · have hi : 2 ^ i = 2 ^ j * (2 * 2 ^ (i - j - 1)) := by rw [← pow_succ', ← pow_add]; congr 1; omega
    simp only [bitOf, hi, Nat.add_mul_div_left _ _ (Nat.two_pow_pos j), Nat.add_mul_mod_self_left]

/-- The record of a read sets no condition below the hazard's. -/
theorem checkRead_cond (debug : Bool) (n cls num : Nat) (k : Core) {j : Nat} (h : j < 4) :
    bitOf (Core.checkRead debug n cls num k).cond j = bitOf k.cond j := by
  unfold Core.checkRead
  extract_lets p
  split
  · cases debug
    · rfl
    · exact bitOf_setBit_of_lt h
  · rfl

theorem checkReads_cond (k : Core) (debug : Bool) (n : Nat) (l : List (Nat × Nat)) {j : Nat} (h : j < 4) :
    bitOf (k.checkReads debug n l).cond j = bitOf k.cond j :=
  List.foldlRecOn (motive := fun b : Core => bitOf b.cond j = bitOf k.cond j) l _ rfl fun b hb p _ => (checkRead_cond debug n p.1 p.2 b h).trans hb

/-- A remote operation marks its issuer at most: the outcome it meets there (R320). -/
def State.RemoteNoted (s t : State) (c : Nat) : Prop :=
  t.fuse = s.fuse ∧ t.mem = s.mem ∧ t.prog = s.prog ∧ t.regions = s.regions ∧ (∀ x, x ≠ c → t.core x = s.core x) ∧
    t.core c = { s.core c with cond := (t.core c).cond, semErr := (t.core c).semErr, semErr0 := (t.core c).semErr0 }

theorem State.remoteNoted_of_pacing {s t : State} {c : Nat} (hf : t.fuse = s.fuse) (hm : t.mem = s.mem) (h : t.pacing = s.pacing) :
    s.RemoteNoted t c :=
  ⟨hf, hm, congrArg State.Pacing.prog h, congrArg State.Pacing.regions h, fun x _ => State.core_of_pacing h x, by rw [State.core_of_pacing h]⟩

theorem State.remoteNoted_setCore (s : State) (c : Nat) {k : Core}
    (h : k = { s.core c with cond := k.cond, semErr := k.semErr, semErr0 := k.semErr0 }) : s.RemoteNoted (s.setCore c k) c :=
  ⟨rfl, rfl, rfl, rfl, fun x hx => (State.core_setCore ..).trans (if_neg hx), by rwa [State.core_setCore, if_pos rfl]⟩

theorem State.RemoteNoted.congr {s t u : State} {c : Nat} (h : s.RemoteNoted t c) (hf : u.fuse = t.fuse) (hm : u.mem = t.mem)
    (hp : u.pacing = t.pacing) : s.RemoteNoted u c := by
  obtain ⟨hf', hm', hp', hr', hx', hc'⟩ := h
  refine ⟨hf.trans hf', hm.trans hm', (congrArg State.Pacing.prog hp).trans hp', (congrArg State.Pacing.regions hp).trans hr', fun x hx => ?_, ?_⟩
  · rw [State.core_of_pacing hp, hx' x hx]
  · rw [State.core_of_pacing hp, ← hc']

theorem Core.noteRemote_marks (o : Nat) (k : Core) :
    k.noteRemote o = { k with semErr := (k.noteRemote o).semErr, semErr0 := (k.noteRemote o).semErr0 } := by
  unfold Core.noteRemote
  split <;> rfl

theorem State.remoteCore_noted (n sa sb idx : Nat) (glob sub : Bool) (s : State) (c : Nat) :
    s.RemoteNoted (State.remoteCore n sa sb idx glob sub s c) c := by
  unfold State.remoteCore
  extract_lets k v w r
  split
  · exact State.remoteNoted_of_pacing rfl rfl rfl
  split
  · exact s.remoteNoted_setCore c rfl
  split
  · exact State.remoteNoted_of_pacing (s.remoteIssue_fuse ..) (s.remoteIssue_mem ..) (s.remoteIssue_pacing ..)
  · exact (s.remoteNoted_setCore c ((k.noteRemote_marks 4).trans rfl)).congr (State.runOutcome_fuse ..) (State.runOutcome_mem ..)
      (State.runOutcome_pacing ..)

theorem State.RemoteNoted.issues {s t : State} {c : Nat} (h : s.RemoteNoted t c) (n x : Nat) : t.issues n x = s.issues n x := by
  obtain ⟨hf, -, -, hr, hx, hc⟩ := h
  have hclk : t.clockTicks x = s.clockTicks x := by simp only [State.clockTicks, State.region, hr]
  by_cases e : x = c
  · subst e
    simp only [State.issues, hf, hclk]
    rw [hc]
    rfl
  · simp only [State.issues, hf, hclk, hx x e]

theorem State.RemoteNoted.pc {s t : State} {c : Nat} (h : s.RemoteNoted t c) (x : Nat) : (t.core x).pc = (s.core x).pc := by
  obtain ⟨-, -, -, -, hx, hc⟩ := h
  by_cases e : x = c
  · rw [e, hc]
  · rw [hx x e]

theorem State.RemoteNoted.badFetch {s t : State} {c : Nat} (h : s.RemoteNoted t c) (n : Nat) : t.badFetch n = s.badFetch n := by
  obtain ⟨-, -, hprog, -⟩ := id h
  simp only [State.badFetch, hprog, h.issues, h.pc]

/-- The cores that issue, where that is one core. -/
theorem filter_range_eq_singleton {p : Nat → Bool} {m c : Nat} (hc : c < m) (hp : p c = true) (h : ∀ x, x < m → p x = true → x = c) :
    (List.range m).filter p = [c] := by
  have e : (List.range m).filter p = (List.range m).filter (· == c) :=
    List.filter_congr fun x hx => Bool.eq_iff_iff.2 ⟨fun hx' => beq_iff_eq.2 (h x (List.mem_range.1 hx) hx'), fun hx' => beq_iff_eq.1 hx' ▸ hp⟩
  rw [e, List.filter_beq, List.count_eq_one_of_mem List.nodup_range (List.mem_range.2 hc), List.replicate_one]

/-- The slot of a remote operation that one core issues: the operation at its issuer, then the slot of every issuing core. -/
theorem State.remoteSlot_of_one {s : State} {n c idx sa sb : Nat} {w : SlotWord} {glob sub : Bool} (h : SlotRuns s n w) (hc : c < 160)
    (hi : s.issues n c = true) (h1 : ∀ x, x < 160 → s.issues n x = true → x = c) (last : Bool) :
    s.remoteSlot n last glob idx sa sb sub = (State.remoteCore n sa sb idx glob sub s c).slot n last
      fun s _ a => a.checkReads s.debug n [(0, sa), (0, sb)] := by
  simp only [State.remoteSlot, h.badFetch, Bool.false_eq_true, if_false]
  rw [show Config.nPhys = 160 from rfl, filter_range_eq_singleton hc hi h1]
  rfl

/-- What the slot of a remote operation leaves: of the one core that issues it the operation's marks and the record of its reads, of the
    rest what the operation leaves. -/
theorem remoteSlot_gives {mk : Bool → Sys2Proof.Instr} {s : State} {n c idx sa sb : Nat} {w : SlotWord} {glob sub : Bool} (h : SlotRuns s n w)
    (hm : ∀ l, exec (mk l) s = fetched s n w (.next (s.remoteSlot n l glob idx sa sb sub))) (hc : c < 160) (hi : s.issues n c = true)
    (h1 : ∀ x, x < 160 → s.issues n x = true → x = c) :
    ∃ t, exec (mk false) s = .next t ∧ exec (mk true) s = .next (t.endBundle n) ∧ (∀ a, t.byteAt a = s.byteAt a) ∧
      (∀ x, x < 160 → x ≠ c → t.core x = s.core x) ∧
      let u := State.remoteCore n sa sb idx glob sub s c
      t.remote = u.remote ∧ t.remoteId = u.remoteId ∧ t.core c = (u.core c).checkReads u.debug n [(0, sa), (0, sb)] := by
  have hu := State.remoteCore_noted n sa sb idx glob sub s c
  have hbad := (hu.badFetch n).trans h.badFetch
  obtain ⟨-, hmem, -, -, hother, -⟩ := id hu
  refine ⟨(State.remoteCore n sa sb idx glob sub s c).issue n fun s _ a => a.checkReads s.debug n [(0, sa), (0, sb)], ?_, ?_,
    State.byteAt_congr hmem, fun x hx hxc => ?_, rfl, rfl, ?_⟩
  · simp [hm, fetched_of h, State.remoteSlot_of_one h hc hi h1, State.slot, hbad]
  · simp [hm, fetched_of h, State.remoteSlot_of_one h hc hi h1, State.slot, hbad]
  · have hn : s.issues n x = false := Bool.eq_false_iff.2 fun hx' => hxc (h1 x hx hx')
    rw [State.core_issue_of_not_issues hx ((hu.issues n x).trans hn), hother x hxc]
  · exact State.core_issue_of_issues hc ((hu.issues n c).trans hi)

/-- The operation that a core issues for a target on this device joins those under way (R263, R317). -/
theorem State.remoteIssue_of_self_eq {s : State} {w : W64} (hw : bitOf w.toNat 22 = true) (b : RemoteBy) (glob : Bool) (idx : Nat) (amount : Int) :
    s.remoteIssue b w glob idx amount = ({ s with
      remote := s.remote ++ [⟨s.remoteId, b, s.issuerKey b, true, bits w.toNat 21 8, w.toNat % 256, idx, amount,
        s.peerIncarn (bits w.toNat 21 8), s.periods0, none, false⟩]
      remoteId := s.remoteId + 1 }, true) := by
  simp [State.remoteIssue, hw]

/-- RSEMADD or RSEMSUB on the one core that issues it, by its amount and its target word (R263, R310, R320). -/
theorem remoteSlot_outcomes {mk : Bool → Sys2Proof.Instr} {n c idx sa sb : Nat} {glob sub : Bool} {s : State} {wd : SlotWord} (h : SlotRuns s n wd)
    (hm : ∀ l, exec (mk l) s = fetched s n wd (.next (s.remoteSlot n l glob idx sa sb sub))) (hc : c < 160) (hi : s.issues n c = true)
    (h1 : ∀ x, x < 160 → s.issues n x = true → x = c) :
    let v : Nat := ((s.core c).readS s.free c n sa).toNat % 2 ^ 32
    let w : Nat := ((s.core c).readS s.free c n sb).toNat
    ∃ t, exec (mk false) s = .next t ∧ exec (mk true) s = .next (t.endBundle n) ∧
      (∀ a, t.byteAt a = s.byteAt a) ∧ (t.core c).sregs = (s.core c).sregs ∧ (∀ x, x < 160 → x ≠ c → t.core x = s.core x) ∧
      (v = 0 → t.remote = s.remote ∧ CoreKept (s.core c) (t.core c) ∧ (t.core c).semErr = (s.core c).semErr) ∧
      (targetRefused ((s.core c).readS s.free c n sb) glob = true → v ≠ 0 →
        t.remote = s.remote ∧ bitOf (t.core c).cond 2 = true ∧ bitOf (t.core c).semErr 2 = true) ∧
      (targetRefused ((s.core c).readS s.free c n sb) glob = false → v ≠ 0 → w / 2 ^ 22 % 2 = 1 → t.remoteId = s.remoteId + 1 ∧
        ∃ op : RemoteOp, t.remote = s.remote ++ [op] ∧ op.id = s.remoteId ∧ op.by_ = .core c ∧ op.self = true ∧ op.core = w % 256 ∧
          op.idx = idx ∧ op.amount = (if sub then -(v : Int) else v) ∧ op.since = s.periods0 ∧ op.outcome = none) := by
  intro v w
  obtain ⟨t, hf, hl, hb, hx, hrem, hid, hcore⟩ := remoteSlot_gives h hm hc hi h1
  have hkept := hcore ▸ checkReads_kept _ _ n [(0, sa), (0, sb)]
  obtain ⟨-, -, -, -, -, hmarks⟩ := State.remoteCore_noted n sa sb idx glob sub s c
  refine ⟨t, hf, hl, hb, ?_, hx, fun hv => ?_, fun hr hv => ?_, fun hr hv hw => ?_⟩
  · rw [hkept, hmarks]
  · have hu : State.remoteCore n sa sb idx glob sub s c = s := if_pos hv
    rw [hu] at hkept hrem
    exact ⟨hrem, hkept, by rw [hkept]⟩
  · have hu : State.remoteCore n sa sb idx glob sub s c = _ := (if_neg hv).trans (if_pos hr)
    rw [hu, State.core_setCore, if_pos rfl] at hcore
    rw [hu] at hrem
    refine ⟨hrem, ?_, ?_⟩
    · rw [hcore, checkReads_cond _ _ _ _ (by decide)]
      exact bitOf_setBit_self ..
    · rw [hcore, checkReads_kept]
      exact bitOf_setBit_self ..
  · have hu : State.remoteCore n sa sb idx glob sub s c = _ := (if_neg hv).trans (if_neg (Bool.eq_false_iff.1 hr))
    rw [State.remoteIssue_of_self_eq (by simpa [bitOf] using hw)] at hu
    rw [hu] at hrem hid
    exact ⟨hid, _, hrem, rfl, rfl, rfl, rfl, rfl, rfl, rfl, rfl⟩

/-- Settles O24: nothing for an amount of 0, a descriptor error for a refused word, one operation for a target on this device. -/
theorem remoteSemaphoreSlots : Obligations.RemoteSemaphoreSlots := by
  intro e he n idx sa sb c glob s h hc hi h1
  simp only [List.mem_cons, List.not_mem_nil, or_false] at he
  obtain rfl | rfl := he
  · exact remoteSlot_outcomes (mk := fun l => .rsemadd n l glob idx sa sb) h (fun _ => rfl) hc hi h1
  · exact remoteSlot_outcomes (mk := fun l => .rsemsub n l glob idx sa sb) h (fun _ => rfl) hc hi h1

/-! ### LDI (R210 to R221, R265) -/

/-- A field of the bytes read from a scratchpad is read from its own offset. -/
theorem leAt_spadBytes (s : State) (c off : Nat) {len o m : Nat} (h : o + m ≤ len) :
    leAt (s.spadBytes c off len) o m = leNat (s.spadBytes c (off + o) m) := by
  unfold leAt
  congr 1
  refine List.ext_getElem (by simp [State.spadBytes]; omega) fun i _ _ => ?_
  simp [State.spadBytes, Nat.add_assoc]

/-- The descriptor at an offset of a scratchpad, by its fields' own bytes (R211). -/
theorem ladleDesc_spadBytes (s : State) (c off : Nat) :
    let d := ladleDesc (s.spadBytes c off 128)
    d.src = leNat (s.spadBytes c off 8) % 2 ^ 52 ∧ d.dst = leNat (s.spadBytes c (off + 8) 8) % 2 ^ 52 ∧
      d.run = leNat (s.spadBytes c (off + 16) 4) ∧ d.semAdd = leNat (s.spadBytes c (off + 24) 4) ∧
      d.tag = leNat (s.spadBytes c (off + 112) 4) := by
  simp [ladleDesc, leAt_spadBytes]

theorem setBit_cond_ladleFail (k : Core) (i q kind tag : Nat) : bitOf (({ k with cond := setBit k.cond i } : Core).ladleFail q kind tag).cond i = true :=
  bitOf_setBit_self ..

/-- LDI on a core whose queue the program does not own, or with an offset that is not a multiple of 128. -/
theorem ldiCore_of_refused {s : State} {c n q sa off : Nat} {k : Core}
    (hoff : (k.readS s.free c n sa).toNat % 2 ^ 25 = off) (h : s.queueOwner c q ≠ 0 ∨ off % 128 ≠ 0) :
    (s.ldiCore n q sa c k).ladle = k.ladle ∧ bitOf (s.ldiCore n q sa c k).cond 2 = true := by
  have hk : (Core.checkRead s.debug n 0 sa k).ladle = k.ladle := by rw [checkRead_kept]
  subst hoff
  have e : s.ldiCore n q sa c k = ({ Core.checkRead s.debug n 0 sa k with cond := setBit (Core.checkRead s.debug n 0 sa k).cond 2 } : Core).ladleFail q 1
      (free32 s.free (site n c 310)).toNat := by
    by_cases ho : s.queueOwner c q = 0
    · exact (if_neg (not_not.2 ho)).trans (if_pos (h.resolve_left (not_not.2 ho)))
    · exact if_pos ho
  rw [e]
  exact ⟨hk, setBit_cond_ladleFail ..⟩

/-- LDI on a core of whose queue the program is the owner, with an aligned offset: held, refused by the bytes, or offered. -/
theorem ldiCore_of_owned {s : State} {c n q sa off : Nat} {k : Core} (ho : s.queueOwner c q = 0)
    (hoff : (k.readS s.free c n sa).toNat % 2 ^ 25 = off) (ha : off % 128 = 0) :
    let k1 := Core.checkRead s.debug n 0 sa k
    let k2 := s.spadCheck c off 128 k1
    s.ldiCore n q sa c k = if k1.queueFull q then { k1 with late := some (1, some q), stopped := some n }
      else if s.spadBad c off 128 then ({ k2 with cond := setBit k2.cond 2 } : Core).ladleFail q 1 (free32 s.free (site n c 310)).toNat
      else k2.offer q { id := n * 8 + q, desc := ladleDesc (s.spadBytes c off 128), by_ := .program, notBefore := k2.genAge + 3 } := by
  subst hoff
  exact (if_neg (not_not.2 ho)).trans (if_neg (not_not.2 ha))

theorem Core.ladle_offer_of_ne {k : Core} {p q : Nat} (h : p ≠ q) (x : Transfer) :
    Sparse.get {} (k.offer q x).ladle p = Sparse.get {} k.ladle p := (Sparse.get_set ..).trans (if_neg h)

theorem Core.waiting_offer (k : Core) (q : Nat) (x : Transfer) :
    (Sparse.get {} (k.offer q x).ladle q).waiting = (Sparse.get {} k.ladle q).waiting ++ [x] := by
  rw [Core.offer, Sparse.get_set_self]

/-- LDI changes the cores that issue it, each by its own look at its queue, and no byte of memory. -/
theorem ldi_gives {s : State} {n q sa : Nat} (h : SlotRuns s n (ldiWord q sa)) :
    ∃ t, exec (.ldi n false q sa []) s = .next t ∧ exec (.ldi n true q sa []) s = .next (t.endBundle n) ∧
      (∀ a, t.byteAt a = s.byteAt a) ∧ ∀ c, c < 160 → s.issues n c = true → t.core c = s.ldiCore n q sa c (s.core c) := by
  have hexec : ∀ last, exec (.ldi n last q sa []) s = fetched s n (ldiWord q sa) _ := fun last => rfl
  simp only [fetched_of h, show s.strikes n [] = s from rfl, h.badFetch, Bool.false_eq_true, if_false] at hexec
  refine ⟨_, hexec false, hexec true, fun a => State.byteAt_congr (State.settleHold_mem _) a, fun c hc hi => ?_⟩
  exact (congrArg (Sparse.get ({} : Core) · c) (State.settleHold_cores _)).trans (State.core_issue_of_issues hc hi)

/-- Settles O26: who refuses, who waits, and the transfer that the descriptor's bytes give. -/
theorem ldiOffersATransfer : Obligations.LdiOffersATransfer := by
  intro n q sa s h
  obtain ⟨t, hf, hl, hmem, hcore⟩ := ldi_gives h
  refine ⟨t, hf, hl, hmem, fun c hc hi => ?_⟩
  rw [hcore c hc hi]
  generalize hoff : ((s.core c).readS s.free c n sa).toNat % 2 ^ 25 = off
  dsimp only
  have hread := checkRead_kept s.debug n 0 sa (s.core c)
  have hcheck := spadCheck_fetchErrs s c off 128 (Core.checkRead s.debug n 0 sa (s.core c))
  have hladle : (s.spadCheck c off 128 (Core.checkRead s.debug n 0 sa (s.core c))).ladle = (s.core c).ladle := by rw [hcheck, hread]
  have hage : (s.spadCheck c off 128 (Core.checkRead s.debug n 0 sa (s.core c))).genAge = (s.core c).genAge := by rw [hcheck, hread]
  have hfull : (Core.checkRead s.debug n 0 sa (s.core c)).queueFull q = decide (64 ≤ (Sparse.get {} (s.core c).ladle q).waiting.length) := by
    rw [hread]
    rfl
  refine ⟨ldiCore_of_refused hoff, fun ho ha hw => ?full, fun ho ha hw hb => ?bad, fun ho ha hw hb => ?offered⟩
  case full =>
    rw [ldiCore_of_owned ho hoff ha, hfull, if_pos (decide_eq_true hw)]
    exact ⟨by rw [hread], rfl, rfl⟩
  case bad =>
    rw [ldiCore_of_owned ho hoff ha, hfull, if_neg (by simpa using hw), if_pos hb]
    exact ⟨hladle, setBit_cond_ladleFail ..⟩
  case offered =>
    rw [ldiCore_of_owned ho hoff ha, hfull, if_neg (by simpa using hw), if_neg (Bool.eq_false_iff.1 hb)]
    refine ⟨fun p hp => ?_, _, (Core.waiting_offer ..).trans (by rw [hladle]), rfl, ?_, ?_⟩
    · rw [Core.ladle_offer_of_ne hp, hladle]
    · rw [← hage]
    · exact ladleDesc_spadBytes s c off

end Sys2Proof.Machine
end

section
/-! PROOFS. The program counter, branches, loops and the end of issue (08 R251 to R255, R276, R279): where issue goes after a bundle, and what
the control slot's instructions leave on the cores that issue them. -/

namespace Sys2Proof.Machine

/-! ### The program counter (R251, R253) -/

section
variable {k : Core} {l : LoopRec} {ls : List LoopRec}

theorem nextPc_of_no_loops (hb : k.branch = none) (hl : k.loops = []) : k.nextPc = { k with pc := k.pc + 1 } := by
  simp [Core.nextPc, hb, hl]

/-- A taken branch lets the two bundles after it issue and then goes to its target (R251). -/
theorem nextPc_of_branch {t : Nat} (hb : k.branch = some (t, 3)) (hl : k.loops = []) :
    k.nextPc.pc = k.pc + 1 ∧ k.nextPc.nextPc.pc = k.pc + 2 ∧ k.nextPc.nextPc.nextPc = { k with pc := t, branch := none } := by
  simp [Core.nextPc, hb, hl]

theorem nextPc_in_body (hb : k.branch = none) (hl : k.loops = l :: ls) (hs : l.start ≠ k.pc + 1) (he : l.stop ≠ k.pc) :
    k.nextPc = { k with pc := k.pc + 1 } := by simp [Core.nextPc, hb, hl, hs, he]

theorem nextPc_of_passes_left (hb : k.branch = none) (hl : k.loops = l :: ls) (hs : l.start ≠ k.pc + 1) (he : l.stop = k.pc)
    (hr : 1 < l.remaining) : k.nextPc = { k with pc := l.start, loops := ⟨l.start, l.stop, l.remaining - 1⟩ :: ls } := by
  simp [Core.nextPc, hb, hl, hs, he, hr]

theorem nextPc_of_last_pass (hb : k.branch = none) (hl : k.loops = l :: ls) (hs : l.start ≠ k.pc + 1) (he : l.stop = k.pc)
    (hr : l.remaining ≤ 1) : k.nextPc = { k with loopDone := true } := by simp [Core.nextPc, hb, hl, hs, he, Nat.not_lt.2 hr]

theorem nextPc_after_loop (hb : k.branch = none) (hl : k.loops = l :: ls) (hs : l.start = k.pc + 1) :
    k.nextPc = { k with pc := (afterLastLoop k.pc l ls).1, loops := (afterLastLoop k.pc l ls).2 } := by
  simp [Core.nextPc, hb, hl, hs]

end

/-- A LOOP that does not end an enclosing body goes on with its own. -/
theorem afterLastLoop_of_ne {pc : Nat} {new : LoopRec} {ls : List LoopRec} (h : ∀ q ∈ ls.head?, q.stop ≠ pc) :
    afterLastLoop pc new ls = (pc + 1, new :: ls) := by
  cases ls with
  | nil => rfl
  | cons q qs => exact if_neg (h q rfl)

theorem afterLastLoop_of_passes_left {pc : Nat} {new q : LoopRec} {qs : List LoopRec} (h : q.stop = pc) (hr : 1 < q.remaining) :
    afterLastLoop pc new (q :: qs) = (q.start, ⟨q.start, q.stop, q.remaining - 1⟩ :: qs) := (if_pos h).trans (if_pos hr)

/-- Settles O15, by the branch in flight and then by the innermost loop's record. -/
theorem programCounterAfterABundle : Obligations.ProgramCounterAfterABundle := by
  refine ⟨fun k => nextPc_of_no_loops, fun k t => nextPc_of_branch, fun k l ls hb hl => ⟨nextPc_in_body hb hl, nextPc_of_passes_left hb hl,
    nextPc_of_last_pass hb hl, fun hs hq => ?_, fun q qs hs hls hq hr => ?_⟩⟩
  · rw [nextPc_after_loop hb hl hs, afterLastLoop_of_ne hq, ← hl]
  · rw [nextPc_after_loop hb hl hs, hls, afterLastLoop_of_passes_left hq hr]

/-! ### The control slot's words and contracts -/

theorem bWord_eq (op sa sb target : Nat) : bWord op sa sb target = .scalar (op + 2048 * sa + 65536 * sb + 2 ^ 24 * target) := by
  simp [bWord, Nat.mul_comm]

/-- Counting an item's contract touches nothing but what the count waits for. -/
theorem contract_kept (k : Core) (f : Fuse) (i n x : Nat) : CoreKept k (k.contract f i n x) := by
  unfold Core.contract
  split <;> rfl

theorem contract_queue (k : Core) (f : Fuse) (i n x : Nat) : (k.contract f i n x).queue = k.queue := by
  unfold Core.contract
  split <;> rfl

theorem CoreKept.setBranch {a b : Core} (h : CoreKept a b) (x : Option (Nat × Nat)) : CoreKept { a with branch := x } { b with branch := x } := by
  unfold CoreKept at *
  rw [h]

theorem CoreKept.branch {a b : Core} (h : CoreKept a b) : b.branch = a.branch := by rw [h]

theorem CoreKept.loops {a b : Core} (h : CoreKept a b) : b.loops = a.loops := by rw [h]

theorem Core.branchTo_eq (k : Core) (target : Nat) (o : Bool) :
    k.branchTo target o.toNat = { k with branch := if o then some (target, 3) else k.branch } := by
  cases o <;> rfl

/-- A branch with its contract puts its target in flight and touches nothing else. -/
theorem branchTo_contract {a k : Core} (h : CoreKept a k) (f : Fuse) (n target : Nat) (o : Bool) :
    let b := (k.branchTo target o.toNat).contract f 24 n 0
    b.branch = (if o then some (target, 3) else a.branch) ∧ CoreKept a { b with branch := a.branch } := by
  have hc := contract_kept (k.branchTo target o.toNat) f 24 n 0
  refine ⟨?_, h.trans ?_⟩
  · rw [hc.branch, Core.branchTo_eq, h.branch]
  · have := hc.setBranch a.branch
    rw [Core.branchTo_eq] at this ⊢
    rwa [show ({ ({ k with branch := if o then some (target, 3) else k.branch } : Core) with branch := a.branch } : Core) = k from by
      rw [← h.branch]] at this

/-- Some core issues a bundle that is fetched. -/
theorem State.exists_issues_of_fetches {s : State} {n : Nat} {w : SlotWord} (h : s.fetches n w = true) : ∃ c, c < 160 ∧ s.issues n c = true := by
  simp only [State.fetches, Bool.and_eq_true, Bool.not_eq_true', List.isEmpty_eq_false_iff_exists_mem] at h
  obtain ⟨⟨c, hc⟩, -⟩ := h
  obtain ⟨hc, hi⟩ := List.mem_filter.1 hc
  exact ⟨c, List.mem_range.1 hc, hi⟩

theorem SlotRuns.any_issues {s : State} {n : Nat} {w : SlotWord} (h : SlotRuns s n w) : (List.range Config.nPhys).any (s.issues n) = true := by
  obtain ⟨c, hc, hi⟩ := State.exists_issues_of_fetches h.2.1
  exact List.any_eq_true.2 ⟨c, List.mem_range.2 hc, hi⟩

/-! ### NOP, IDLE, BR and END (R235, R251, R254, R255) -/

theorem plainControlSlots : Claims.PlainControlSlots := by
  intro n s
  refine ⟨slot_gives _ (fun _ => rfl) fun _ _ => rfl, fun count => ?idle, fun target => ?br, fun h => ?ends⟩
  case idle =>
    rw [show SlotWord.scalar (0x36 + 65536 * count) = iWord 0x36 0 0 count by simp [iWord, Nat.mul_comm]]
    exact slot_gives _ (fun _ => rfl) fun c _ => due_push n n (.idle count) (CoreKept.refl _) rfl rfl
  case br =>
    rw [show SlotWord.scalar (0x38 + 2 ^ 24 * target) = bWord 0x38 0 0 target by simp [bWord_eq]]
    refine slot_gives _ (fun _ => rfl) fun c _ => ?_
    obtain ⟨hb, hk⟩ := branchTo_contract (CoreKept.refl (s.core c)) s.fuse n target true
    exact ⟨hb, contract_queue .., hk⟩
  case ends =>
    rw [show SlotWord.scalar 0x3F = bWord 0x3F 0 0 0 from rfl] at h
    have hexec : ∀ last, exec (.endProg n last) s = .next (({ s with run := s.run.map (fun r => { r with endCount := some n }) } : State).slot n last
        fun _ _ k => k.push n n .endProg) := by
      intro last
      refine (fetched_of h _).trans ?_
      rw [if_pos h.any_issues]
    refine ⟨_, (hexec false).trans (congrArg _ (slot_setRun h _ _).1), (hexec true).trans (congrArg _ (slot_setRun h _ _).2), rfl,
      fun c hc => ⟨fun hi => ?_, fun hi => ?_⟩⟩
    · rw [State.core_issue_of_issues hc ((State.issues_setRun ..).trans hi)]
      exact due_push n n .endProg (CoreKept.refl _) rfl rfl
    · rw [State.core_issue_of_not_issues hc ((State.issues_setRun ..).trans hi)]
      rfl

/-! ### Conditional branches and loops (R251 to R253, R306) -/

theorem any_ne_headD_of_const {l : List Nat} {o : Nat} (h : ∀ x ∈ l, x = o) : l.any (fun x => x != l.headD 0) = false := by
  cases l with
  | nil => rfl
  | cons a t => exact List.any_eq_false.2 fun x hx => by simp [h x hx, h a List.mem_cons_self]

/-- The run with the outcome of a branch or LOOP noted that does not differ from core to core. -/
def State.steeredRun (s : State) (n : Nat) (outc : Nat → Core → Nat) : Option RunState :=
  s.run.map (RunState.noteOutcome n
    (((((List.range Config.nPhys).filter (s.issues n)).map (fun c => outc c (s.core c))).take 1).map (fun o => (n, o))) false)

/-- A branch or LOOP whose outcomes agree takes its outcome on every core that issues it, and the run notes the outcome. -/
theorem State.steer_of_agree {s : State} {n o : Nat} {outc : Nat → Core → Nat} (ho : ∀ c, c < 160 → s.issues n c = true → outc c (s.core c) = o)
    (hrun : ∀ r, s.run = some r → ∀ p ∈ r.outcomes, p.1 ≠ n) (last isLoop : Bool) (act : Nat → Core → Core) (reads : List (Nat × Nat)) :
    s.steer n last isLoop outc act reads =
      ({ s with run := s.steeredRun n outc } : State).slot n last fun s c k => act (outc c k) (k.checkReads s.debug n reads) := by
  unfold State.steer
  extract_lets cs mine before all differ pick now first s1 s2
  have hmine : ∀ x ∈ mine, x = o := by
    intro x hx
    obtain ⟨c, hc, rfl⟩ := List.mem_map.1 hx
    obtain ⟨hc, hi⟩ := List.mem_filter.1 hc
    exact ho c (List.mem_range.1 hc) hi
  have hbefore : before = [] := by
    cases hr : s.run with
    | none => simp only [before, hr]
    | some r => simpa [before, hr] using hrun r hr
  have hdiffer : differ = false := by
    simp only [differ, all, hbefore, List.append_nil]
    exact any_ne_headD_of_const hmine
  simp only [s2, s1, pick, first, hdiffer, Bool.false_and, Bool.false_eq_true, if_false]
  rfl

/-- What a branch or LOOP whose outcomes agree leaves: on every core that issues it what it does there, no byte of memory, no other core. -/
theorem steer_gives {mk : Bool → Sys2Proof.Instr} {s : State} {n o : Nat} {w : SlotWord} {isLoop : Bool} {outc : Nat → Core → Nat}
    {act : Nat → Core → Core} {reads : List (Nat × Nat)} (h : SlotRuns s n w)
    (hm : ∀ l, exec (mk l) s = fetched s n w (.next (s.steer n l isLoop outc act reads)))
    (ho : ∀ c, c < 160 → s.issues n c = true → outc c (s.core c) = o) (hrun : ∀ r, s.run = some r → ∀ p ∈ r.outcomes, p.1 ≠ n) :
    ∃ t, exec (mk false) s = .next t ∧ exec (mk true) s = .next (t.endBundle n) ∧ (∀ a, t.byteAt a = s.byteAt a) ∧ ∀ c, c < 160 →
      (s.issues n c = true → t.core c = act o ((s.core c).checkReads s.debug n reads)) ∧ (s.issues n c = false → t.core c = s.core c) := by
  have hexec : ∀ last, exec (mk last) s = _ := fun last => ((hm last).trans (fetched_of h _)).trans
    (congrArg _ (State.steer_of_agree ho hrun last isLoop act reads))
  refine ⟨_, (hexec false).trans (congrArg _ (slot_setRun h _ _).1), (hexec true).trans (congrArg _ (slot_setRun h _ _).2), fun a => rfl,
    fun c hc => ⟨fun hi => ?_, fun hi => ?_⟩⟩
  · rw [State.core_issue_of_issues hc ((State.issues_setRun ..).trans hi), ← ho c hc hi]
    rfl
  · rw [State.core_issue_of_not_issues hc ((State.issues_setRun ..).trans hi)]
    rfl

/-- With no branch in flight and no loop that begins or ends here, issue goes on with the next bundle. -/
theorem nextPc_straight {k : Core} {ls : List LoopRec} (hb : k.branch = none) (hl : k.loops = ls)
    (h : ∀ q ∈ ls.head?, q.stop ≠ k.pc ∧ q.start ≠ k.pc + 1) : k.nextPc = { k with pc := k.pc + 1 } := by
  cases ls with
  | nil => exact nextPc_of_no_loops hb hl
  | cons q qs =>
    obtain ⟨he, hs⟩ := h q rfl
    exact nextPc_in_body hb hl hs he

theorem illegalFetch_keeps (k : Core) (m : Nat) : (k.illegalFetch m).pc = k.pc ∧ (k.illegalFetch m).loops = k.loops ∧
    (k.illegalFetch m).loopDone = k.loopDone := by
  unfold Core.illegalFetch
  split <;> exact ⟨rfl, rfl, rfl⟩

/-- A core past the last pass of its innermost loop: it waits no more, and the loop is dropped. -/
def Core.leaveLoop (k : Core) : Core := { k with loopDone := false, loops := k.loops.tail }

/-- LOOP_COUNT_EXPIRY on a core that waits at this count drops the loop and goes on where the program counter goes (R253). -/
theorem core_loopCountExpiry {s : State} {n c : Nat} (h : s.clk.lost = false) (ha : s.fuse.active c = true)
    (hd : (s.core c).loopDone = true) (hn : (s.core c).sched = n) (hs : (s.core c).stopped = none) :
    ∃ t, exec (.loopCountExpiry n) s = .next t ∧ ∃ m,
      t.core c = (s.core c).leaveLoop.nextPc.illegalFetch m :=
  ⟨_, live_of s _ h, _, ((State.core_of_pacing (State.noteFirst_pacing _) c).trans (State.core_mapCores_of_active ha _)).trans
    (if_pos (by simp [hd, hn, hs]))⟩

/-- A conditional branch whose outcome o agrees on every core that issues it is taken on all of them or on none (R251, R252). -/
theorem branchIf_gives {mk : Bool → Sys2Proof.Instr} {op n sa sb target : Nat} {s : State} {o : Bool} {p q : W64 → W64 → Bool}
    (hp : ∀ a b, p a b = q a b) (h : SlotRuns s n (.scalar (op + 2048 * sa + 65536 * sb + 2 ^ 24 * target)))
    (hm : ∀ l, exec (mk l) s = fetched s n (bWord op sa sb target) (.next (s.branchIf n l sa sb target p)))
    (ho : ∀ c, c < 160 → s.issues n c = true → q ((s.core c).readS s.free c n sa) ((s.core c).readS s.free c n sb) = o)
    (hrun : ∀ r, s.run = some r → ∀ p ∈ r.outcomes, p.1 ≠ n) :
    ∃ t, exec (mk false) s = .next t ∧ exec (mk true) s = .next (t.endBundle n) ∧ (∀ a, t.byteAt a = s.byteAt a) ∧ ∀ c, c < 160 →
      (s.issues n c = true → (t.core c).branch = (if o then some (target, 3) else (s.core c).branch) ∧
        CoreKept (s.core c) { t.core c with branch := (s.core c).branch }) ∧
      (s.issues n c = false → t.core c = s.core c) := by
  obtain ⟨t, hf, hl, hb, hcore⟩ := steer_gives (bWord_eq .. ▸ h) hm (fun c hc hi => congrArg Bool.toNat ((hp ..).trans (ho c hc hi))) hrun
  refine ⟨t, hf, hl, hb, fun c hc => ⟨fun hi => ?_, (hcore c hc).2⟩⟩
  rw [(hcore c hc).1 hi]
  exact branchTo_contract (checkReads_kept ..) s.fuse n target o

/-- Settles O18: outcomes that agree, then the expiry of the innermost loop. -/
theorem branchesAndLoops : Obligations.BranchesAndLoops := by
  refine ⟨?branch, ?loop, fun n c l ls s h hc ha hd hn hs hb hl hq => ?expiry⟩
  case branch =>
    intro e he n sa sb target s o h ho hrun
    simp only [List.mem_cons, List.not_mem_nil, or_false] at he
    obtain rfl | rfl | rfl | rfl := he
    · exact branchIf_gives (mk := fun l => .beq n l sa sb target) (fun a b => rfl) h (fun _ => rfl) ho hrun
    · exact branchIf_gives (mk := fun l => .bne n l sa sb target) (fun a b => decide_not.symm) h (fun _ => rfl) ho hrun
    · exact branchIf_gives (mk := fun l => .blt n l sa sb target) (fun a b => rfl) h (fun _ => rfl) ho hrun
    · exact branchIf_gives (mk := fun l => .bge n l sa sb target) (fun a b => rfl) h (fun _ => rfl) ho hrun
  case loop =>
    intro n sa target o s h ho hrun
    rw [show SlotWord.scalar (0x3E + 2048 * sa + 2 ^ 24 * target) = bWord 0x3E sa 0 target by simp [bWord_eq]] at h
    obtain ⟨t, hf, hl, hb, hcore⟩ := steer_gives (mk := fun l => .loop n l sa target) h (fun _ => rfl) ho hrun
    refine ⟨t, hf, hl, hb, fun c hc => ⟨fun hi => ?_, (hcore c hc).2⟩⟩
    rw [(hcore c hc).1 hi]
    have hk := checkReads_kept (s.core c) s.debug n [(0, sa)]
    exact ⟨by rw [hk], (hk.loops ▸ hk : _)⟩
  case expiry =>
    obtain ⟨t, ht, m, hcore⟩ := core_loopCountExpiry h ha hd hn hs
    rw [nextPc_straight (k := (s.core c).leaveLoop) hb (congrArg List.tail hl) hq] at hcore
    obtain ⟨hpc, hloops, hdone⟩ := illegalFetch_keeps { (s.core c).leaveLoop with pc := (s.core c).leaveLoop.pc + 1 } m
    exact ⟨t, ht, by rw [hcore, hpc]; rfl, by rw [hcore, hloops]; exact congrArg List.tail hl, by rw [hcore, hdone]; rfl⟩

/-! ### A damaged bundle (R279, R587) -/

/-- A damaged bundle is found by the cores that fetch it. -/
theorem State.badFetch_strike_bundle {s : State} {n c : Nat} (hp : s.prog.isSome) (hc : c < 160) (hi : s.issues n c = true) :
    (State.strike n s .bundle).badFetch n = true := by
  obtain ⟨p, hp⟩ := Option.isSome_iff_exists.1 hp
  simp only [State.badFetch, State.strike, hp, Option.map_some]
  refine List.any_eq_true.2 ⟨c, List.mem_range.2 hc, Bool.and_eq_true_iff.2 ⟨hi, List.contains_iff_mem.2 (List.mem_append_left _ ?_)⟩⟩
  exact List.mem_eraseDups.2 (List.mem_map.2 ⟨c, List.mem_filter.2 ⟨List.mem_range.2 hc, hi⟩, rfl⟩)

/-- Settles O19: every core that issues finds the damage, and issue stops on all of them. -/
theorem instructionParityStopsIssue : Obligations.InstructionParityStopsIssue := by
  intro n last s hl hf hp
  obtain ⟨d, hd, hi⟩ := State.exists_issues_of_fetches hf
  have hexec : exec (.nop n last [.bundle]) s = .next ((State.strike n s .bundle).instrParity n) := by
    show fetched s n (.nop true) (.next ((State.strike n s .bundle).slot n last fun _ _ k => k)) = _
    simp [fetched, hl, hf, State.slot, State.badFetch_strike_bundle hp hd hi]
  refine ⟨_, hexec, fun c hc ha => ?_⟩
  have hs : (State.strike n s .bundle).issues n c = s.issues n c := rfl
  have hk : (State.strike n s .bundle).core c = s.core c := rfl
  rw [State.instrParity, State.core_stopIssue (s := (State.strike n s .bundle).issue n _) ha, State.core_issue, if_pos hc, hs, hk]
  refine ⟨rfl, fun h => ?_, ?_⟩
  · rw [if_pos h]
    exact bitOf_setBit_self ..
  · split <;> rfl

end Sys2Proof.Machine
end

section
/-! PROOFS. The passing of epoch counts on a device where nothing is due (08 R254; 09 R280, R283, R288; 16 R508): what records, the hub and
a core's own period leave of the clocks and the hold, and a core's pace from one count to the next. -/

namespace Sys2Proof.Machine

/-! ### What records, events and the ends of commands leave of the pace (17 R546 to R552) -/

@[simp] theorem State.hostWrite_pacing (s : State) (a : Nat) (bs : List MByte) (o : Owner) : (s.hostWrite a bs o).pacing = s.pacing := by
  simp only [State.hostWrite]
  split <;> rfl

@[simp] theorem State.writeRecord_pacing (s : State) (e : Nat) (rec : List Byte) : (s.writeRecord e rec).pacing = s.pacing :=
  State.hostWrite_pacing ..

theorem State.post_pacing {s t : State} {e : Nat} {rec : List Byte} (h : s.post e rec = some t) : t.pacing = s.pacing := by
  simp only [State.post] at h
  split at h
  · cases h
    exact s.writeRecord_pacing e rec
  · split at h <;> cases h
    rfl

theorem State.endCmd_pacing (s : State) (id : Nat) : (s.endCmd id).pacing = s.pacing := by
  simp only [State.endCmd]
  split
  · rfl
  · split
    · rfl
    · split <;> rfl

theorem State.postWait_pacing {s t : State} {w : WaitRec} (h : s.postWait w = some t) : t.pacing = s.pacing := by
  simp only [State.postWait] at h
  split at h
  next hp =>
    cases h
    exact (State.endCmd_pacing ..).trans (State.post_pacing hp :)
  next => cases h

theorem flushList_pacing (l : List WaitRec) (s : State) : (flushList l s).pacing = s.pacing := by
  induction l generalizing s with
  | nil => rfl
  | cons w t ih =>
    unfold flushList
    split
    next h => rw [ih, State.postWait_pacing h]
    next => exact ih _

theorem State.complete_pacing (s : State) (id : Nat) (found : List Nat) (detail : List Byte) :
    (s.complete id found detail).pacing = s.pacing := by
  unfold State.complete State.tryPost
  split
  · split
    · split
      · exact flushList_pacing ..
      · rfl
    · rfl
  · rfl

theorem State.waitsMet_pacing (s : State) : s.waitsMet.pacing = s.pacing :=
  foldl_pacing (fun s c => by split; exacts [s.complete_pacing .., rfl]) _ s

/-! ### The clocks and the hold -/

/-- The regions' clocks, the hold and the epoch count. -/
structure State.Clocks where
  regions : Sparse Region
  hold : HoldState
  epoch : Nat

def State.clocks (s : State) : State.Clocks := ⟨s.regions, s.hold, s.epoch⟩

theorem State.clocks_of_pacing {s t : State} (h : t.pacing = s.pacing) : t.clocks = s.clocks :=
  congrArg (fun p : State.Pacing => (⟨p.regions, p.hold, p.epoch⟩ : State.Clocks)) h

theorem foldl_clocks {α : Type} {f : State → α → State} (hf : ∀ s x, (f s x).clocks = s.clocks) (l : List α) (s : State) :
    (l.foldl f s).clocks = s.clocks :=
  List.foldlRecOn (motive := fun t => t.clocks = s.clocks) l f rfl fun t ht x _ => (hf t x).trans ht

theorem State.runCore_clocks (s : State) (c : Nat) : (s.runCore c).clocks = s.clocks :=
  foldl_clocks (f := fun s (w : Nat × List MByte) => s.storeBytes w.1 w.2) (fun _ _ => rfl) _ _

theorem State.gsemChange_clocks (s : State) (idx : Nat) (amount : Int) : (s.gsemChange idx amount).clocks = s.clocks := by
  unfold State.gsemChange
  split <;> rfl

theorem State.period_false_clocks (s : State) (l : List Nat) : (s.period false l).clocks = s.clocks := by
  refine (State.clocks_of_pacing ((State.waitsMet_pacing _).trans (State.noteFirst_pacing _))).trans ?_
  exact (foldl_clocks (f := fun t (e : Nat × Int) => t.gsemChange e.1 e.2) (fun t e => t.gsemChange_clocks ..) _ _).trans
    (foldl_clocks State.runCore_clocks l s)

/-- A core with one more bundle of its idle count over. -/
def Core.countIdle (k : Core) : Core := { k with idle := k.idle - 1 }

/-- The cores that issue nothing but whose counts go on (R254, R280). -/
def State.idlers (s : State) : List Nat := (List.range Config.nPhys).filter (fun c => s.fuse.active c && (s.core c).passes && s.clockTicks c)

/-- The cores that issue nothing with their idle counts counted. -/
def State.idleCounted (s : State) : State := s.idlers.foldl (fun t c => t.setCore c (t.core c).countIdle) s

theorem State.idlers_nodup (s : State) : s.idlers.Nodup := List.nodup_range.filter _

theorem State.passIdle_eq (s : State) : s.passIdle = if s.idlers.isEmpty then s else s.idleCounted.period false s.idlers := rfl

theorem State.idleCounted_clocks (s : State) : s.idleCounted.clocks = s.clocks :=
  foldl_clocks (f := fun t c => t.setCore c (t.core c).countIdle) (fun _ _ => rfl) _ _

theorem State.passIdle_clocks (s : State) : s.passIdle.clocks = s.clocks := by
  rw [State.passIdle_eq]
  split
  · rfl
  · exact (State.period_false_clocks ..).trans s.idleCounted_clocks

theorem State.copyOld_clocks (s : State) : s.copyOld.clocks = s.clocks := by
  unfold State.copyOld
  extract_lets old
  split <;> rfl

/-- Nothing keeps or stretches the cores from the hold's side. -/
structure HoldState.Calm (h : HoldState) : Prop where
  throttle : h.throttle = false
  change : h.change = false
  crossing : h.crossing = []
  raising : h.raising = false

/-- The region's clock runs unstretched. -/
structure Region.Even (g : Region) : Prop where
  stopped : g.stopped = false
  half : g.half = 0
  trip : g.trip = false

theorem Region.pass_of_even {g : Region} (h : g.Even) : g.pass = g := by
  cases g
  obtain ⟨rfl, rfl, rfl⟩ := h
  rfl

theorem Region.ticks_of_even {g : Region} (h : g.Even) : g.ticks = true := by simp [Region.ticks, h.stopped, h.half]

theorem regionOf_lt {c : Nat} (h : c < 160) : regionOf c < 16 := by
  unfold regionOf quarterOf
  omega

theorem State.clockTicks_of_even {s : State} (h : ∀ r, r < 16 → (s.region r).Even) {c : Nat} (hc : c < 160) : s.clockTicks c = true :=
  Region.ticks_of_even (h _ (regionOf_lt hc))

theorem State.passTotals_calm {s : State} (h : s.hold.Calm) : s.passTotals.Calm := by
  unfold State.passTotals
  extract_lets held stall
  split <;> exact ⟨h.throttle, h.change, h.crossing, h.raising⟩

theorem State.noteEpisode_calm {s : State} (h : s.hold.Calm) : s.noteEpisode.hold.Calm := by
  unfold State.noteEpisode
  split <;> exact ⟨h.throttle, h.change, h.crossing, h.raising⟩

theorem State.noteEpisode_regions (s : State) : s.noteEpisode.regions = s.regions := by
  unfold State.noteEpisode
  split <;> rfl

theorem State.noteEpisode_epoch (s : State) : s.noteEpisode.epoch = s.epoch := by
  unfold State.noteEpisode
  split <;> rfl

theorem State.settleHold_regions (s : State) : s.settleHold.regions = s.regions := State.noteEpisode_regions _

theorem State.settleHold_epoch (s : State) : s.settleHold.epoch = s.epoch := State.noteEpisode_epoch _

/-- Where nothing keeps a hold, the root takes note of no cause. -/
theorem State.settleHold_calm {s : State} (h : s.hold.Calm) (hk : s.keepsHold = false) : s.settleHold.hold.Calm := by
  obtain ⟨ht, hc, hx, hr⟩ := h
  unfold State.settleHold
  simp only [hk, hx, hr, List.isEmpty_nil, Bool.not_true, Bool.or_false, Bool.and_false, Bool.false_eq_true, if_false, ite_self]
  have hn := State.noteEpisode_calm (s := { s with hold := { s.hold with raising := false, crossing := [] } }) ⟨ht, hc, rfl, rfl⟩
  exact ⟨hn.throttle, hn.change, hn.crossing, hn.raising⟩

theorem State.announce_calm {s : State} (h : s.hold.Calm) : s.announce.hold.Calm := ⟨h.throttle, h.change, rfl, rfl⟩

/-- A core that waits for nothing and is late with nothing keeps no hold. -/
def State.NoneWaits (s : State) : Prop := ∀ c, c < 160 → s.fuse.active c = true → (s.core c).waits = [] ∧ (s.core c).late = none

theorem State.keepsHold_of_calm {s : State} (h : s.hold.Calm)
    (hc : s.NoneWaits) : s.keepsHold = false := by
  obtain ⟨ht, hch, -, -⟩ := h
  simp only [State.keepsHold, ht, hch, Bool.false_or, List.any_eq_false]
  intro c hcr
  obtain ⟨hw, hl⟩ := hc c (by have := (List.mem_filter.1 hcr).2; simp_all [Fuse.active]) (List.mem_filter.1 hcr).2
  simp [hw, hl]

theorem State.begun_epoch (p : State) : p.begun.epoch = p.epoch + 1 := by
  show p.counted.passClocks.epoch = _
  unfold State.passClocks
  extract_lets s1
  split <;> rfl

theorem State.begun_hold (p : State) : p.begun.hold = p.passTotals := by
  show p.counted.passClocks.hold = _
  unfold State.passClocks
  extract_lets s1
  split <;> rfl

theorem State.begun_region (p : State) {r : Nat} (hr : r < 16) :
    p.begun.region r = (p.region r).pass ∨ p.begun.region r = { (p.region r).pass with lag := 0 } := by
  show p.counted.passClocks.region r = _ ∨ p.counted.passClocks.region r = _
  unfold State.passClocks
  extract_lets src s1
  have h1 : s1.region r = (p.region r).pass := (State.region_mapRegions p.counted (fun _ g => g.pass) r).trans (if_pos hr)
  split
  · exact .inr ((State.region_mapRegions ..).trans ((if_pos hr).trans (congrArg (fun g : Region => { g with lag := 0 }) h1)))
  · exact .inl h1

/-- Unstretched clocks stay so, and no region falls further behind. -/
theorem State.begun_even {p : State} {r : Nat} (hr : r < 16) (h : (p.region r).Even) :
    (p.begun.region r).Even ∧ (p.begun.region r).lag ≤ (p.region r).lag := by
  obtain e | e := p.begun_region hr
  · rw [e, Region.pass_of_even h]
    exact ⟨h, Nat.le_refl _⟩
  · rw [e, Region.pass_of_even h]
    exact ⟨⟨h.stopped, h.half, h.trip⟩, Nat.zero_le _⟩

theorem State.noteCrossings_of_le {s p : State} (h : ∀ r, r < 16 → (s.region r).lag ≤ (p.region r).lag) : s.noteCrossings p = s := by
  refine if_neg ?_
  simpa using h

/-- Everything on the side of the clocks and the hold that lets every core pass its period: no cause is kept and no clock stretched. -/
def State.Even (s : State) : Prop := s.hold.Calm ∧ ∀ r, r < 16 → (s.region r).Even

theorem State.Even.congr {s t : State} (h : s.Even) (e : t.clocks = s.clocks) : t.Even := by
  have hh : t.hold = s.hold := congrArg State.Clocks.hold e
  have hr : t.regions = s.regions := congrArg State.Clocks.regions e
  refine ⟨hh ▸ h.1, fun r hlt => ?_⟩
  rw [State.region, hr]
  exact h.2 r hlt

/-- Where no core waits, an epoch count leaves the clocks and the hold as they are, but for the count. -/
theorem State.even_pass {s : State} (h : s.Even) (hw : s.passIdle.begun.NoneWaits) : s.pass.Even ∧ s.pass.epoch = s.epoch + 1 := by
  obtain ⟨hcalm, heven⟩ := h.congr s.passIdle_clocks
  have hepoch : s.passIdle.epoch = s.epoch := congrArg State.Clocks.epoch s.passIdle_clocks
  have hbegun := fun r hr => State.begun_even (p := s.passIdle) hr (heven r hr)
  have hcross : s.passIdle.begun.noteCrossings s.passIdle = s.passIdle.begun := State.noteCrossings_of_le fun r hr => (hbegun r hr).2
  have hcalm' : s.passIdle.begun.hold.Calm := s.passIdle.begun_hold ▸ State.passTotals_calm hcalm
  have hsettled := State.settleHold_calm hcalm' (State.keepsHold_of_calm hcalm' hw)
  have hsr : s.passIdle.begun.settleHold.regions = s.passIdle.begun.regions := State.settleHold_regions _
  have hse : s.passIdle.begun.settleHold.epoch = s.passIdle.begun.epoch := State.settleHold_epoch _
  have hout : (s.passIdle.begun.settledFrom s.passIdle).Even ∧ (s.passIdle.begun.settledFrom s.passIdle).epoch = s.epoch + 1 := by
    unfold State.settledFrom
    rw [hcross]
    have hr : ∀ r, r < 16 → (s.passIdle.begun.settleHold.region r).Even := fun r hr => by
      rw [State.region, hsr]
      exact (hbegun r hr).1
    have he : s.passIdle.begun.settleHold.epoch = s.epoch + 1 := by rw [hse, State.begun_epoch, hepoch]
    dsimp only
    split
    · exact ⟨⟨State.announce_calm hsettled, hr⟩, he⟩
    · exact ⟨⟨hsettled, hr⟩, he⟩
  have hlast : s.pass.clocks = (s.passIdle.begun.settledFrom s.passIdle).clocks := by
    rw [State.pass_eq]
    exact (State.clocks_of_pacing ((State.waitsMet_pacing _).trans (State.noteFirst_pacing _))).trans (State.copyOld_clocks _)
  exact ⟨hout.1.congr hlast, (congrArg State.Clocks.epoch hlast).trans hout.2⟩

/-! ### A core's pace -/

/-- What decides whether and how a core's count goes on: what is due or awaited, and where its issue stands. -/
structure Core.Pace where
  queue : List Due
  gates : List Gate
  waits : List Gate
  arrays : Sparse Arr
  stallDue : List (Nat × Nat)
  pause : Nat
  late : Option (Nat × Option Nat)
  ticked : Bool
  issuing : Bool
  ended : Bool
  stopped : Option Nat
  idle : Nat
  sched : Nat

def Core.pace (k : Core) : Core.Pace :=
  ⟨k.queue, k.gates, k.waits, k.arrays, k.stallDue, k.pause, k.late, k.ticked, k.issuing, k.ended, k.stopped, k.idle, k.sched⟩

/-- Nothing is due on the core, and nothing is awaited there. -/
structure Core.Still (k : Core) : Prop where
  queue : k.queue = []
  gates : k.gates = []
  waits : k.waits = []
  arrays : k.arrays = []
  stallDue : k.stallDue = []
  pause : k.pause = 0
  late : k.late = none

/-- The pace of a core one count later, where nothing is due on it: a count of its idle bundles is over, where it passes one. -/
def Core.nextPace (k : Core) : Core.Pace := if k.passes then { k.pace with idle := k.idle - 1, sched := k.sched + 1 } else k.pace

theorem Core.stalls_of_still {k : Core} (h : k.Still) : k.stalls = false := by
  simp [Core.stalls, Core.stepping, h.stallDue, h.pause]

theorem hazardOf_pace (k : Core) (debug : Bool) (n issued kind detail : Nat) : (k.hazardOf debug n issued kind detail).pace = k.pace := by
  unfold Core.hazardOf
  split <;> rfl

theorem countHold_pace (k : Core) (freeze : Bool) (causes : List Nat) : (k.countHold freeze causes).pace = k.pace := by
  unfold Core.countHold
  split <;> rfl

theorem passHold_pace {k : Core} (h : k.stalls = false) (freeze raising : Bool) (causes : List Nat) :
    (k.passHold freeze raising causes).pace = k.pace := by
  unfold Core.passHold
  extract_lets k1
  have hs : k1.stallsNow = false := by
    have h1 : k1.stalls = false := h
    simp [Core.stallsNow, h1]
  split
  · exact countHold_pace ..
  · rw [hs]
    rfl

theorem subHazards_pace (k : Core) (debug : Bool) (hub : List SemNet) : (k.subHazards debug hub).pace = k.pace :=
  List.foldlRecOn (motive := fun x : Core => x.pace = k.pace) _ _ rfl fun x hx e _ => by
    rw [← hx]
    simp only [apply_ite Core.pace, hazardOf_pace, ite_self]

/-- Where no core waits and nothing is raised, the next period begins with nothing awaited (R288, R290). -/
theorem passNext_pace {k : Core} (h : k.waits = []) : (k.passNext false false).pace = { k.pace with ticked := false } := by
  simp [Core.passNext, Core.pace, h]

theorem landAll_nil (debug : Bool) (n : Nat) (k : Core) : k.landAll debug n [] = k := rfl

theorem Core.dueNow_of_still {k : Core} (h : k.Still) : k.dueNow = [] := by simp [Core.dueNow, h.queue]

theorem Core.later_of_still {k : Core} (h : k.Still) : k.later = k := by
  have hq : k.queue.filter (fun d => decide (k.sched < d.at_)) = k.queue := by simp [h.queue]
  rw [Core.later, hq]

/-- The period of a core on which nothing is due: its count grows. -/
theorem tickLands_pace {k : Core} (h : k.Still) (debug : Bool) : (k.tickLands debug).pace = { k.pace with sched := k.sched + 1, ticked := true } := by
  unfold Core.tickLands
  rw [Core.dueNow_of_still h, Core.later_of_still h, show landedOf [] = [] from rfl, landAll_nil]
  simp [Core.testGates, Core.pace, h.gates, h.stallDue]

theorem Core.Still.of_pace {a b : Core} {i n : Nat} {t : Bool} (h : a.Still) (e : b.pace = { a.pace with idle := i, sched := n, ticked := t }) :
    b.Still := by
  simp only [Core.pace, Core.Pace.mk.injEq] at e
  obtain ⟨hq, hg, hw, ha, hs, hp, hl, -⟩ := e
  exact ⟨hq.trans h.queue, hg.trans h.gates, hw.trans h.waits, ha.trans h.arrays, hs.trans h.stallDue, hp.trans h.pause, hl.trans h.late⟩

theorem Core.Still.countIdle {k : Core} (h : k.Still) : k.countIdle.Still := h.of_pace (b := k.countIdle) rfl

theorem Core.onlyLands_of_still {k : Core} (h : k.Still) : OnlyLands k.dueNow := by
  simp [OnlyLands, Core.dueNow_of_still h]

theorem quiet_iff (s : State) : Quiet s ↔ s.Even ∧ ∀ c, c < 160 → s.fuse.active c = true → (s.core c).Still ∧ (s.core c).ticked = false := by
  constructor
  · rintro ⟨ht, hc, hx, hr, hg, hk⟩
    refine ⟨⟨⟨ht, hc, hx, hr⟩, fun r hlt => ?_⟩, fun c hc ha => ?_⟩
    · obtain ⟨h1, h2, h3⟩ := hg r hlt
      exact ⟨h1, h2, h3⟩
    obtain ⟨h1, h2, h3, h4, h5, h6, h7, h8⟩ := hk c hc ha
    exact ⟨⟨h1, h2, h3, h4, h5, h6, h8⟩, h7⟩
  · rintro ⟨⟨⟨ht, hc, hx, hr⟩, hg⟩, hk⟩
    refine ⟨ht, hc, hx, hr, fun r hlt => ⟨(hg r hlt).stopped, (hg r hlt).half, (hg r hlt).trip⟩, fun c hc ha => ?_⟩
    obtain ⟨⟨h1, h2, h3, h4, h5, h6, h8⟩, h7⟩ := hk c hc ha
    exact ⟨h1, h2, h3, h4, h5, h6, h7, h8⟩

section
variable {s : State} (hq : Quiet s)
include hq

theorem State.mem_idlers_of_quiet {c : Nat} (hc : c < 160) (ha : s.fuse.active c = true) : c ∈ s.idlers ↔ (s.core c).passes = true := by
  have hclk := State.clockTicks_of_even ((quiet_iff s).1 hq).1.2 hc
  simp [State.idlers, Config.nPhys, hc, ha, hclk]

/-- A core that issues nothing passes its period; another is left as it is (R254, R280). -/
theorem State.passIdle_pace {c : Nat} (hc : c < 160) (ha : s.fuse.active c = true) : (s.passIdle.core c).Still ∧
    ({ (s.passIdle.core c).pace with ticked := false } : Core.Pace) = (s.core c).nextPace := by
  obtain ⟨-, hcores⟩ := (quiet_iff s).1 hq
  obtain ⟨hstill, htick⟩ := hcores c hc ha
  have hnodup := s.idlers_nodup
  rw [State.passIdle_eq]
  unfold Core.nextPace
  by_cases hp : (s.core c).passes = true
  · have hmem := (State.mem_idlers_of_quiet hq hc ha).2 hp
    obtain ⟨s', hs', e⟩ := (s.idleCounted.core_period_false hnodup c).2 hmem
    have hk : s'.core c = (s.core c).countIdle := by
      rw [hs', State.idleCounted, core_foldl_setCore Core.countIdle hnodup, if_pos hmem]
    have hst : (s'.core c).Still := hk ▸ hstill.countIdle
    rw [if_neg (by simp [List.ne_nil_of_mem hmem]), if_pos hp, e, State.tickCore_of_lands hst.arrays (Core.onlyLands_of_still hst)]
    have hpace := tickLands_pace hst s'.debug
    refine ⟨hst.of_pace hpace, ?_⟩
    rw [hpace, hk]
    simp [Core.pace, Core.countIdle, htick]
  · have hmem : c ∉ s.idlers := mt (State.mem_idlers_of_quiet hq hc ha).1 hp
    have hsame : (if s.idlers.isEmpty then s else s.idleCounted.period false s.idlers).core c = s.core c := by
      split
      · rfl
      · rw [(s.idleCounted.core_period_false hnodup c).1 hmem, State.idleCounted, core_foldl_setCore Core.countIdle hnodup, if_neg hmem]
    rw [hsame, if_neg hp]
    exact ⟨hstill, by rw [← htick]; rfl⟩

end

/-- A core as its next period begins, where nothing holds it and nothing is awaited on it. -/
theorem State.nextCore_pace {p : State} {c : Nat} (he : p.Even) (hc : c < 160) (hs : (p.core c).Still) :
    (p.nextCore c).pace = { (p.core c).pace with ticked := false } := by
  obtain ⟨⟨-, -, hx, hr⟩, hg⟩ := he
  have hcount : (p.countedCore c).pace = (p.core c).pace := by
    rw [State.countedCore, if_pos (State.clockTicks_of_even hg hc)]
    exact passHold_pace (Core.stalls_of_still hs) ..
  have hsub : ((p.countedCore c).subHazards p.debug p.gsemNet).pace = (p.core c).pace := (subHazards_pace ..).trans hcount
  have hw : ((p.countedCore c).subHazards p.debug p.gsemNet).waits = [] := (congrArg Core.Pace.waits hsub).trans hs.waits
  rw [State.nextCore, hx, hr]
  exact (passNext_pace hw).trans (congrArg (fun x : Core.Pace => { x with ticked := false }) hsub)

/-- The period of a core on which nothing is due writes nothing. -/
theorem State.runCore_mem_of_still {s : State} {c : Nat} (h : (s.core c).Still) : (s.runCore c).mem = s.mem := by
  unfold State.runCore
  rw [State.tickCore_of_lands h.arrays (Core.onlyLands_of_still h)]
  rfl

section
variable {s : State} (hq : Quiet s)
include hq

theorem State.passIdle_mem_of_quiet : s.passIdle.mem = s.mem := by
  obtain ⟨-, hcores⟩ := (quiet_iff s).1 hq
  rw [State.passIdle_eq]
  split
  · rfl
  have hidle : s.idleCounted.mem = s.mem := foldl_mem (f := fun t c => t.setCore c (t.core c).countIdle) (fun _ _ => rfl) _ _
  have hstill : ∀ c ∈ s.idlers, (s.idleCounted.core c).Still := fun c hc => by
    rw [State.idleCounted, core_foldl_setCore Core.countIdle s.idlers_nodup, if_pos hc]
    obtain ⟨hlt, hact⟩ := List.mem_filter.1 hc
    simp only [Bool.and_eq_true] at hact
    obtain ⟨⟨hact, -⟩, -⟩ := hact
    exact (hcores c (List.mem_range.1 hlt) hact).1.countIdle
  have hrun : (s.idlers.foldl State.runCore s.idleCounted).mem = s.idleCounted.mem := by
    refine (List.foldlRecOn (motive := fun t : State => t.mem = s.idleCounted.mem ∧ ∀ c ∈ s.idlers, (t.core c).Still) s.idlers _
      ⟨rfl, hstill⟩ fun t ht c hc => ⟨(State.runCore_mem_of_still (ht.2 c hc)).trans ht.1, fun d hd => ?_⟩).1
    rw [State.core_runCore]
    split
    next e =>
      have h := ht.2 c hc
      rw [State.tickCore_of_lands h.arrays (Core.onlyLands_of_still h)]
      exact h.of_pace (tickLands_pace h _)
    next => exact ht.2 d hd
  simp only [State.period, Bool.false_eq_true, if_false, State.waitsMet_mem, State.noteFirst_mem]
  exact (foldl_mem (f := fun t (e : Nat × Int) => t.gsemChange e.1 e.2) (fun t e => t.gsemChange_mem ..) _ _).trans (hrun.trans hidle)

theorem State.pass_mem_of_quiet : s.pass.mem = s.mem := by
  have hb : s.passIdle.begun.mem = s.passIdle.mem := State.passClocks_mem _
  have hs : (s.passIdle.begun.settledFrom s.passIdle).mem = s.passIdle.begun.mem := by
    unfold State.settledFrom
    extract_lets settled
    have h : settled.mem = s.passIdle.begun.mem := by simp [settled]
    split <;> exact h
  rw [State.pass_eq, State.waitsMet_mem, State.noteFirst_mem, State.copyOld_mem, hs, hb, State.passIdle_mem_of_quiet hq]

/-- Every core one count later. -/
theorem State.pass_pace {c : Nat} (hc : c < 160) (ha : s.fuse.active c = true) : (s.pass.core c).pace = (s.core c).nextPace := by
  obtain ⟨hstill, hpace⟩ := State.passIdle_pace hq hc ha
  obtain ⟨g, hg⟩ := State.core_pass ha
  rw [hg]
  exact (State.nextCore_pace (((quiet_iff s).1 hq).1.congr s.passIdle_clocks) hc hstill).trans hpace

/-- A device where nothing is due stays so as an epoch count passes. -/
theorem quiet_pass : Quiet s.pass ∧ s.pass.epoch = s.epoch + 1 := by
  obtain ⟨heven, hcores⟩ := (quiet_iff s).1 hq
  have hnone : s.passIdle.begun.NoneWaits := fun c hc hact => by
    have hfuse : s.passIdle.begun.fuse = s.passIdle.fuse := s.passIdle.counted.passClocks_fuse
    have ha : s.passIdle.fuse.active c = true := hfuse ▸ hact
    obtain ⟨hstill, -⟩ := State.passIdle_pace hq hc (s.passIdle_fuse ▸ ha)
    have h := hstill.of_pace (State.nextCore_pace (heven.congr s.passIdle_clocks) hc hstill)
    rw [State.core_begun ha]
    exact ⟨h.waits, h.late⟩
  obtain ⟨hpass, hepoch⟩ := State.even_pass heven hnone
  refine ⟨(quiet_iff _).2 ⟨hpass, fun c hc hact => ?_⟩, hepoch⟩
  rw [State.pass_fuse] at hact
  obtain ⟨hstill, htick⟩ := hcores c hc hact
  have e := State.pass_pace hq hc hact
  unfold Core.nextPace at e
  split at e
  · exact ⟨hstill.of_pace e, (congrArg Core.Pace.ticked e).trans htick⟩
  · exact ⟨hstill.of_pace (e.trans rfl), (congrArg Core.Pace.ticked e).trans htick⟩

/-- Where the epoch count may end, a core that goes on is in an idle count. -/
theorem idle_ne_zero_of_mayPass (hm : s.mayPass = true) {c : Nat} (hc : c < 160) (ha : s.fuse.active c = true) (hi : (s.core c).issuing = true)
    (he : (s.core c).ended = false) (hs : (s.core c).stopped = none) : (s.core c).idle ≠ 0 := by
  intro h0
  obtain ⟨⟨-, hg⟩, hcores⟩ := (quiet_iff s).1 hq
  obtain ⟨hstill, htick⟩ := hcores c hc ha
  have hclk := State.clockTicks_of_even hg hc
  have hstalls := Core.stalls_of_still hstill
  simp only [State.mayPass, Bool.and_eq_true, Bool.not_eq_true', List.any_eq_false, List.mem_range] at hm
  have hno := hm.1 c hc
  cases hl : (s.core c).loopDone <;> simp [State.issues, State.loopDue, ha, hi, he, hs, h0, hl, htick, hclk, hstalls] at hno

end

/-- A core that is not held passes one bundle of its idle count. -/
theorem Core.nextPace_of_idle {k : Core} (hk : k.Still) (ht : k.ticked = false) (hi : k.issuing = true) (hs : k.stopped = none) (h0 : k.idle ≠ 0) :
    k.nextPace = { k.pace with idle := k.idle - 1, sched := k.sched + 1 } :=
  if_pos (by simp [Core.passes, hi, ht, hs, Core.stalls_of_still hk, h0])

theorem Core.nextPace_of_stopped {k : Core} (hs : k.stopped ≠ none) : k.nextPace = k.pace :=
  if_neg (by simp [Core.passes, Option.isNone_iff_eq_none, hs])

/-- m counts later, a core in an idle count has m of its bundles behind it, and a held core is where it was. -/
def Core.IdledFor (m : Nat) (a b : Core) : Prop :=
  (a.stopped = none → m ≤ a.idle ∧ b.idle = a.idle - m ∧ b.sched = a.sched + m) ∧
    (a.stopped ≠ none → b.idle = a.idle ∧ b.sched = a.sched)

/-- One count more at the front. -/
theorem Core.IdledFor.succ {m : Nat} {a b k : Core} (h : b.IdledFor m k) (hs : b.stopped = a.stopped)
    (hfree : a.stopped = none → a.idle ≠ 0 ∧ b.idle = a.idle - 1 ∧ b.sched = a.sched + 1)
    (hheld : a.stopped ≠ none → b.idle = a.idle ∧ b.sched = a.sched) : a.IdledFor (m + 1) k := by
  refine ⟨fun ha => ?_, fun ha => ?_⟩
  · obtain ⟨h1, h2, h3⟩ := h.1 (hs.trans ha)
    obtain ⟨h0, hi, hn⟩ := hfree ha
    omega
  · obtain ⟨h2, h3⟩ := h.2 (hs ▸ ha)
    obtain ⟨hi, hn⟩ := hheld ha
    exact ⟨h2.trans hi, h3.trans hn⟩

/-- Epoch counts pass on a device where nothing is due. -/
theorem passes_of_quiet (m : Nat) : ∀ {s : State}, Quiet s → (∀ j, j < m → (State.passes j s).mayPass = true) →
    (State.passes m s).epoch = s.epoch + m ∧ (State.passes m s).mem = s.mem ∧
      ∀ c, c < 160 → s.fuse.active c = true → (s.core c).issuing = true → (s.core c).ended = false →
        (s.core c).IdledFor m ((State.passes m s).core c) := by
  induction m with
  | zero => exact fun _ _ => ⟨rfl, rfl, fun c _ _ _ _ => ⟨fun _ => ⟨Nat.zero_le _, rfl, rfl⟩, fun _ => ⟨rfl, rfl⟩⟩⟩
  | succ m ih =>
    intro s hq hm
    have h0 : s.mayPass = true := hm 0 (Nat.succ_pos m)
    have hsucc : ∀ j, State.passes (j + 1) s = State.passes j s.pass := fun j => if_pos h0
    obtain ⟨hquiet, hepoch⟩ := quiet_pass hq
    obtain ⟨ihe, ihm, ihc⟩ := ih hquiet fun j hj => hsucc j ▸ hm (j + 1) (Nat.succ_lt_succ hj)
    rw [hsucc]
    refine ⟨by rw [ihe, hepoch]; omega, ihm.trans (State.pass_mem_of_quiet hq), fun c hc ha hi he => ?_⟩
    obtain ⟨hstill, htick⟩ := ((quiet_iff s).1 hq).2 c hc ha
    have hpace := State.pass_pace hq hc ha
    have hfree : (s.core c).stopped = none → (s.core c).idle ≠ 0 ∧
        (s.pass.core c).pace = { (s.core c).pace with idle := (s.core c).idle - 1, sched := (s.core c).sched + 1 } := fun hs =>
      have hne := idle_ne_zero_of_mayPass hq h0 hc ha hi he hs
      ⟨hne, hpace.trans (Core.nextPace_of_idle hstill htick hi hs hne)⟩
    have hheld : (s.core c).stopped ≠ none → (s.pass.core c).pace = (s.core c).pace := fun hs => hpace.trans (Core.nextPace_of_stopped hs)
    have hsame : (s.pass.core c).issuing = (s.core c).issuing ∧ (s.pass.core c).ended = (s.core c).ended ∧
        (s.pass.core c).stopped = (s.core c).stopped := by
      by_cases hs : (s.core c).stopped = none
      · have e := (hfree hs).2
        exact ⟨congrArg Core.Pace.issuing e, congrArg Core.Pace.ended e, congrArg Core.Pace.stopped e⟩
      · have e := hheld hs
        exact ⟨congrArg Core.Pace.issuing e, congrArg Core.Pace.ended e, congrArg Core.Pace.stopped e⟩
    obtain ⟨hissuing, hended, hstopped⟩ := hsame
    refine (ihc c hc (by rwa [State.pass_fuse]) (hissuing.trans hi) (hended.trans he)).succ hstopped (fun hs => ?_) fun hs => ?_
    · obtain ⟨hne, e⟩ := hfree hs
      exact ⟨hne, congrArg Core.Pace.idle e, congrArg Core.Pace.sched e⟩
    · exact ⟨congrArg Core.Pace.idle (hheld hs), congrArg Core.Pace.sched (hheld hs)⟩

/-- No core's idle count is longer than the longest one. -/
theorem le_foldl_max {l : List Nat} {a b : Nat} (h : a ∈ l) : a ≤ l.foldl max b := by
  rw [List.foldl_max_eq_max (List.ne_nil_of_mem h)]
  exact (List.le_max_of_mem h).trans (le_max_right ..)

theorem idleCountsExpire : Claims.IdleCountsExpire := by
  intro n s hl hq most hm
  obtain ⟨hepoch, hmem, hcores⟩ := passes_of_quiet most hq hm
  refine ⟨State.passes most s, live_of s _ hl, hepoch, State.byteAt_congr hmem, fun c hc ha hi he => ?_⟩
  obtain ⟨hfree, hheld⟩ := hcores c hc ha hi he
  refine ⟨fun hs => ?_, hheld⟩
  obtain ⟨hle, hidle, hsched⟩ := hfree hs
  have hmost : (s.core c).idle ≤ most := le_foldl_max (List.mem_map.2 ⟨c, List.mem_range.2 hc, rfl⟩)
  clear_value most
  exact ⟨by omega, by omega⟩

/-- Settles O17: the slots, then the end of the idle counts. -/
theorem plainControlAndIdle : Obligations.PlainControlAndIdle := ⟨plainControlSlots, idleCountsExpire⟩

end Sys2Proof.Machine
end

section
/-! PROOFS. The schedule contract (09 R280, R288 to R294): what a period that ends leaves of a core's count, what the hold root's notes and
the end of an episode leave alone, and an episode from the raise to the last resumption. -/

namespace Sys2Proof.Machine

/-! ### The count of a core at the end of its bundle (R280) -/

@[simp] theorem nextPc_sched (k : Core) : k.nextPc.sched = k.sched := by
  unfold Core.nextPc
  split
  · rfl
  · extract_lets br
    split
    · split
      · rfl
      · split
        · split <;> rfl
        · rfl
    · rfl

@[simp] theorem illegalFetch_sched (k : Core) (nb : Nat) : (k.illegalFetch nb).sched = k.sched := by
  unfold Core.illegalFetch
  split <;> rfl

theorem State.tickCore_sched (s : State) (c : Nat) : (s.tickCore c).core.sched = (s.core c).sched + 1 := rfl

theorem countHold_sched (k : Core) (freeze : Bool) (causes : List Nat) : (k.countHold freeze causes).sched = k.sched :=
  congrArg Core.Pace.sched (countHold_pace k freeze causes)

theorem passHold_sched (k : Core) (freeze raising : Bool) (causes : List Nat) : (k.passHold freeze raising causes).sched = k.sched := by
  unfold Core.passHold
  extract_lets k1
  split
  · exact countHold_sched k1 freeze causes
  · split
    · split
      · exact countHold_sched k1 freeze [6]
      · exact countHold_sched k1 freeze []
    · rfl

theorem passNext_sched (k : Core) (crossing raising : Bool) : (k.passNext crossing raising).sched = k.sched := by
  unfold Core.passNext
  extract_lets k1
  split <;> rfl

/-- The count of a core does not move as its next period begins. -/
theorem State.nextCore_sched (p : State) (c : Nat) : (p.nextCore c).sched = (p.core c).sched := by
  have hsub : ((p.countedCore c).subHazards p.debug p.gsemNet).sched = (p.countedCore c).sched := congrArg Core.Pace.sched (subHazards_pace ..)
  rw [State.nextCore, passNext_sched, hsub, State.countedCore]
  split
  · exact passHold_sched ..
  · rfl

/-- A core that has issued in the period is not among those whose counts go on by themselves. -/
theorem State.core_passIdle_of_ticked {s : State} {c : Nat} (ht : (s.core c).ticked = true) : s.passIdle.core c = s.core c := by
  have hc : c ∉ s.idlers := by simp [State.idlers, Core.passes, ht]
  rw [State.passIdle_eq]
  split
  · rfl
  · rw [(s.idleCounted.core_period_false s.idlers_nodup c).1 hc, State.idleCounted, core_foldl_setCore Core.countIdle s.idlers_nodup, if_neg hc]

theorem State.pass_sched_of_ticked {s : State} {c : Nat} (ha : s.fuse.active c = true) (ht : (s.core c).ticked = true) :
    (s.pass.core c).sched = (s.core c).sched := by
  obtain ⟨g, hg⟩ := State.core_pass ha
  rw [hg, ← State.core_passIdle_of_ticked ht]
  exact State.nextCore_sched ..

/-- A core that ends its bundle: its period has passed, and its count has grown by one. -/
theorem State.core_period_true_of_issues {s : State} {n c : Nat} {l : List Nat} (hl : l.Nodup) (hc : c ∈ l) (hi : s.issues n c = true) :
    ((s.period true l).core c).sched = n + 1 ∧ ((s.period true l).core c).ticked = true := by
  obtain ⟨s', debug, nb, hs', e⟩ := s.core_period_true hl c hc
  rw [e, illegalFetch_sched, nextPc_sched, illegalFetch_ticked, nextPc_ticked, State.tickCore_sched, hs', noted_sched, State.sched_of_issues hi]
  exact ⟨rfl, s'.tickCore_ticked c⟩

/-- Settles O13: the period of the bundle counts one, and neither a stop of issue nor the end of the epoch count moves the count again. -/
theorem bundleEndAdvancesTheCount : Obligations.BundleEndAdvancesTheCount := by
  intro s n c hc hi
  have ha := State.active_of_issues hi
  have hmem : c ∈ (List.range Config.nPhys).filter (s.issues n) := List.mem_filter.2 ⟨List.mem_range.2 hc, hi⟩
  unfold State.endBundle
  extract_lets cs s1 s2
  obtain ⟨hcount, hpassed⟩ : (s1.core c).sched = n + 1 ∧ (s1.core c).ticked = true := State.core_period_true_of_issues (List.nodup_range.filter _) hmem hi
  have hf1 : s1.fuse = s.fuse := s.period_fuse true cs
  obtain ⟨hsched, hticked, hactive⟩ : (s2.core c).sched = n + 1 ∧ (s2.core c).ticked = true ∧ s2.fuse.active c = true := by
    unfold s2
    split
    · split
      · rw [State.core_stopIssue (hf1 ▸ ha), State.stopIssue_fuse, hf1]
        exact ⟨hcount, hpassed, ha⟩
      · exact ⟨hcount, hpassed, hf1 ▸ ha⟩
    · exact ⟨hcount, hpassed, hf1 ▸ ha⟩
  rw [if_neg (mt List.isEmpty_iff.1 (List.ne_nil_of_mem hmem))]
  split
  · exact (State.pass_sched_of_ticked hactive hticked).trans hsched
  · exact hsched

/-! ### The active cores by ring position (R79, R80) -/

/-- Core c stands at its thread order. -/
theorem coreAtThread_threadOf : ∀ c < 160, threadOf c < 160 ∧ coreAtThread (threadOf c) = c := by decide +kernel

/-- Every active core has its place on the ring. -/
theorem Fuse.mem_ring {f : Fuse} {c : Nat} : c ∈ f.ring ↔ f.active c = true := by
  refine ⟨fun h => (List.mem_filter.1 h).2, fun h => List.mem_filter.2 ⟨?_, h⟩⟩
  have hc : c < 160 := by simp_all [Fuse.active]
  obtain ⟨hlt, hat⟩ := coreAtThread_threadOf c hc
  exact List.mem_map.2 ⟨threadOf c, List.mem_range.2 hlt, hat⟩

/-! ### The hold root's notes (R289 to R294) -/

theorem State.noteEpisode_eq (s : State) : s.noteEpisode = { s with hold := s.noteEpisode.hold } := by
  unfold State.noteEpisode
  split <;> rfl

/-- The notes on an episode's stop counts touch neither the release nor the raise. -/
theorem State.noteEpisode_keeps (s : State) : s.noteEpisode.hold.release = s.hold.release ∧ s.noteEpisode.hold.raising = s.hold.raising := by
  unfold State.noteEpisode
  split <;> exact ⟨rfl, rfl⟩

/-- A core's stop begins an episode (R290). -/
theorem State.noteEpisode_episode {s : State} {c : Nat} (ha : s.fuse.active c = true) (hs : (s.core c).stopped ≠ none) :
    s.noteEpisode.hold.episode = true := by
  obtain ⟨n, hn⟩ := Option.ne_none_iff_exists'.1 hs
  unfold State.noteEpisode
  split
  next h => exact absurd h (List.ne_nil_of_mem (List.mem_filterMap.2 ⟨c, Fuse.mem_ring.2 ha, hn⟩))
  next => rfl

/-- A cause is raised that withdraws a release (R291, R294). -/
def State.causeRaised (s : State) : Bool := s.keepsHold || !s.hold.crossing.isEmpty

/-- The hold root once it has taken note of the causes and before it notes the stops. -/
def State.causesNoted (s : State) : HoldState :=
  let h := if s.hold.release.isSome && s.causeRaised then { s.hold with episode := false, release := none } else s.hold
  { h with raising := h.raising || s.causeRaised, crossing := if s.allStopped then [] else h.crossing }

/-- What the hold root leaves: the causes noted, then the stops, then whether the release may be announced. -/
theorem State.settleHold_eq (s : State) : ∃ ready, s.settleHold =
    { s with hold := { ({ s with hold := s.causesNoted } : State).noteEpisode.hold with ready := ready } } := by
  have h := State.noteEpisode_eq { s with hold := s.causesNoted }
  exact ⟨_, congrArg (fun t : State => { t with hold := s.settleHold.hold }) h⟩

theorem State.settleHold_episode {s : State} {c : Nat} (ha : s.fuse.active c = true) (hs : (s.core c).stopped ≠ none) :
    s.settleHold.hold.episode = true := by
  obtain ⟨ready, e⟩ := s.settleHold_eq
  rw [e]
  exact State.noteEpisode_episode (s := { s with hold := s.causesNoted }) ha hs

/-- A cause raised after the announcement withdraws the release, and a new raise is on its way (R294). -/
theorem State.settleHold_of_causes {s : State} (hr : s.hold.release.isSome = true) (hc : s.keepsHold = true ∨ s.hold.crossing ≠ []) :
    s.settleHold.hold.release = none ∧ s.settleHold.hold.raising = true := by
  have hcause : s.causeRaised = true := by simpa [State.causeRaised] using hc
  obtain ⟨hrel, hrai⟩ := State.noteEpisode_keeps { s with hold := s.causesNoted }
  obtain ⟨ready, e⟩ := s.settleHold_eq
  rw [e]
  exact ⟨hrel.trans (by simp [State.causesNoted, hr, hcause]), hrai.trans (by simp [State.causesNoted, hcause])⟩

/-! ### The raise (R288 to R290) -/

/-- A core of the device as a raise that is on its way from core a reaches the root: a itself stops, and to every other core that runs on
the stop comes within 6 more periods (R289, R290). -/
def Core.onRaise (a c : Nat) (k : Core) : Core :=
  if c = a then { k with stopped := some k.sched } else if k.stopped.isNone then { k with raiseAge := max k.raiseAge 6 } else k

theorem Core.onRaise_self (a : Nat) (k : Core) : Core.onRaise a a k = { k with stopped := some k.sched } := if_pos rfl

theorem Core.onRaise_other {a c : Nat} (h : c ≠ a) (k : Core) : Core.onRaise a c k = { k with raiseAge := (Core.onRaise a c k).raiseAge } := by
  unfold Core.onRaise
  rw [if_neg h]
  split <;> rfl

theorem Core.onRaise_age {a c : Nat} (h : c ≠ a) {k : Core} (hs : k.stopped = none) : 6 ≤ (Core.onRaise a c k).raiseAge := by
  unfold Core.onRaise
  rw [if_neg h, hs]
  exact le_max_right ..

theorem exec_holdStop {s : State} {a : Nat} (hl : s.clk.lost = false) (ha : s.fuse.active a = true) (hr : s.hold.raising = true)
    (hs : (s.core a).stopped = none) : exec (.holdStop a) s = .next (s.mapCores (Core.onRaise a)).settleHold :=
  (live_of s _ hl).trans (congrArg _ (if_neg (by simp [ha, hr, hs])))

theorem countHold_raiseAge (k : Core) (freeze : Bool) (causes : List Nat) : (k.countHold freeze causes).raiseAge = k.raiseAge := by
  unfold Core.countHold
  split <;> rfl

/-- The raise on its way to a core that has not stopped is one period older after each of them (R290). -/
theorem passHold_raiseAge {k : Core} (hs : k.stopped = none) (freeze : Bool) (causes : List Nat) :
    (k.passHold freeze true causes).raiseAge = k.raiseAge + 1 := by
  unfold Core.passHold
  extract_lets k1
  have hage : k1.raiseAge = k.raiseAge + 1 := by simp [k1, hs]
  split
  · exact (countHold_raiseAge k1 freeze causes).trans hage
  · split
    · split
      · exact (countHold_raiseAge k1 freeze [6]).trans hage
      · exact (countHold_raiseAge k1 freeze []).trans hage
    · exact hage

/-- A running core stops as its next period begins where its region crosses or a raise has been on its way to it for 12 periods, and only
there (R288, R290). -/
theorem passNext_stopped {k : Core} (hs : k.stopped = none) (crossing raising : Bool) :
    (k.passNext crossing raising).stopped = if crossing || (raising && decide (12 ≤ k.raiseAge)) then some k.sched else none := by
  unfold Core.passNext
  extract_lets k1
  have hnone : k1.stopped.isNone = true := Option.isNone_iff_eq_none.2 hs
  rw [hnone, Bool.true_and]
  split
  · rfl
  · exact hs

/-! ### The announcement and the end of an episode (R291, R292, R515) -/

theorem exec_holdRelease {s : State} (hl : s.clk.lost = false) (he : s.hold.episode = true) (hr : s.hold.release = none)
    (hall : s.allStopped = true) (hk : s.keepsHold = false) : exec .holdRelease s = .next s.announce :=
  (live_of s _ hl).trans (congrArg _ (if_pos (by simp [he, hr, hall, hk])))

theorem State.postEvent_pacing (s : State) (e kind source status : Nat) (detail : List Byte) :
    (s.postEvent e kind source status detail).pacing = s.pacing := by
  simp only [State.postEvent]
  split
  next h => exact (State.post_pacing h :)
  next => rfl

/-- The hold root with its episode over. -/
def HoldState.over (h : HoldState) : HoldState :=
  { h with episode := false, release := none, raising := false, ready := none, sMin := 0, sMax := 0 }

/-- The end of an episode paces nothing but the hold anew. -/
theorem State.endEpisode_pacing (s : State) : s.endEpisode.pacing = { s.pacing with hold := s.hold.over } := by
  unfold State.endEpisode
  extract_lets s1
  split
  · split
    · exact State.postEvent_pacing ..
    · rfl
  · rfl

/-! ### The resumption (R290, R292) -/

/-- The device with core c resumed. -/
def State.resumed (s : State) (c : Nat) : State := s.setCore c { s.core c with stopped := none, raiseAge := 0 }

theorem State.core_resumed (s : State) (c : Nat) : (s.resumed c).core c = { s.core c with stopped := none, raiseAge := 0 } :=
  (State.core_setCore ..).trans (if_pos rfl)

theorem State.core_resumed_of_ne (s : State) {c j : Nat} (h : j ≠ c) : (s.resumed c).core j = s.core j :=
  (State.core_setCore ..).trans (if_neg h)

/-- No active core is held any more. -/
def State.noneStopped (s : State) : Bool := s.fuse.ring.all (fun c => (s.core c).stopped.isNone)

/-- A resumption is the last one where every other core has resumed. -/
theorem State.noneStopped_resumed {s : State} {c : Nat} :
    (s.resumed c).noneStopped = true ↔ ∀ j ∈ s.fuse.ring, j ≠ c → (s.core j).stopped = none := by
  simp only [State.noneStopped, List.all_eq_true, Option.isNone_iff_eq_none]
  refine forall₂_congr fun j _ => ?_
  by_cases hj : j = c
  · subst hj
    simp [State.core_resumed]
  · simp [State.core_resumed_of_ne s hj, hj]

/-- The device after the resumption of core c, with which the episode ends where it is the last one. -/
def State.afterResume (s : State) (c : Nat) : State := if (s.resumed c).noneStopped then (s.resumed c).endEpisode else s.resumed c

theorem exec_holdResume {s : State} (h : s.clk.lost = false) (c : Nat) :
    exec (.holdResume c) s = .next (if s.resumeDue c then s.afterResume c else s) := live_of s _ h

/-- A resumption touches its own core and the hold root only. -/
theorem State.afterResume_pacing (s : State) (c : Nat) : (s.afterResume c).pacing =
    { (s.resumed c).pacing with hold := if (s.resumed c).noneStopped then s.hold.over else s.hold } := by
  unfold State.afterResume
  split
  · exact State.endEpisode_pacing _
  · rfl

theorem State.afterResume_hold (s : State) (c : Nat) :
    (s.afterResume c).hold = if (s.resumed c).noneStopped then s.hold.over else s.hold := congrArg State.Pacing.hold (s.afterResume_pacing c)

theorem State.core_afterResume (s : State) (c j : Nat) : (s.afterResume c).core j = (s.resumed c).core j :=
  congrArg (fun p : State.Pacing => Sparse.get ({} : Core) p.cores j) (s.afterResume_pacing c)

theorem State.afterResume_mem (s : State) (c : Nat) : (s.afterResume c).mem = s.mem := by
  unfold State.afterResume
  split
  · exact (State.endEpisode_mem _).trans rfl
  · rfl

/-- A stopped core whose region's period begins is due at the release plus its stop count's distance from the smallest one (R292). -/
theorem State.resumeDue_eq {s : State} {c e sc : Nat} (ha : s.fuse.active c = true) (he : s.hold.release = some e)
    (hs : (s.core c).stopped = some sc) (hr : (s.region (regionOf c)).stopped = false) (hh : (s.region (regionOf c)).half ≠ 2) :
    s.resumeDue c = decide (e + (sc - s.hold.sMin) ≤ s.epoch) := by
  simp [State.resumeDue, he, hs, ha, hr, hh]

/-- No epoch count ends before a resumption that is due in it. -/
theorem State.mayPass_of_resumeDue {s : State} {c : Nat} (hc : c < 160) (h : s.resumeDue c = true) : s.mayPass = false := by
  have hany : (List.range Config.nPhys).any (fun c => s.issues (s.core c).sched c || s.loopDue c || s.resumeDue c) = true :=
    List.any_eq_true.2 ⟨c, List.mem_range.2 hc, by simp [h]⟩
  simp [State.mayPass, hany]

/-! ### The episode from its raise to its end -/

/-- Settles O32: the raise at the root, the raise on its way to a core, the announcement, the resumption, the withdrawal. -/
theorem holdStopsAndReleases : Obligations.HoldStopsAndReleases := by
  refine ⟨fun a s hl ha hc hr hs => ?stop, fun k crossing raising freeze causes hs => ?age, fun s hl he hr hall hk => ?release,
    fun a e sc s hl hc ha he hs hr hh => ?resume, fun s hr hc => ?again⟩
  case stop =>
    have hcore : ∀ c, c < 160 → (s.mapCores (Core.onRaise a)).settleHold.core c =
        if s.fuse.active c then Core.onRaise a c (s.core c) else s.core c := fun c hc => by
      rw [State.core, State.settleHold_cores, ← State.core, State.core_mapCores, if_pos hc]
    have hself : (s.mapCores (Core.onRaise a)).core a = { s.core a with stopped := some (s.core a).sched } :=
      (State.core_mapCores_of_active ha _).trans (Core.onRaise_self ..)
    refine ⟨(s.mapCores (Core.onRaise a)).settleHold, exec_holdStop hl ha hr hs, ?_, ?_, ?_, ?_, ?_⟩
    · obtain ⟨ready, e⟩ := (s.mapCores (Core.onRaise a)).settleHold_eq
      rw [e]
      rfl
    · rw [hcore a hc, if_pos ha, Core.onRaise_self]
    · intro c hc hne
      rw [hcore c hc]
      split
      · exact Core.onRaise_other hne _
      · rfl
    · intro c hc hne hact hsc
      rw [hcore c hc, if_pos hact]
      exact Core.onRaise_age hne hsc
    · exact State.settleHold_episode (c := a) ha (by simp [hself])
  case age =>
    refine ⟨passHold_raiseAge hs freeze causes, fun hage => ?_, fun hx hage => ?_⟩
    · simp [passNext_stopped hs, hage]
    · rw [passNext_stopped hs, if_neg]
      rcases hage with hage | hage
      · simp [hx, Nat.not_le.2 hage]
      · simp [hx, hage]
  case release =>
    exact ⟨s.announce, exec_holdRelease hl he hr hall hk, rfl, rfl, rfl⟩
  case resume =>
    have hdue := State.resumeDue_eq ha he hs hr hh
    refine ⟨fun hlt => ?_, fun hle => ?_⟩
    · rw [exec_holdResume hl, hdue, if_neg (by simpa using hlt)]
    · have hdue : s.resumeDue a = true := hdue.trans (decide_eq_true hle)
      refine ⟨State.mayPass_of_resumeDue hc hdue, s.afterResume a, (exec_holdResume hl a).trans (congrArg _ (if_pos hdue)), ?_, ?_,
        fun c hne => ?_, State.byteAt_congr (s.afterResume_mem a), ?_, ?_⟩
      · rw [State.core_afterResume, State.core_resumed]
      · exact congrArg State.Pacing.epoch (s.afterResume_pacing a)
      · rw [State.core_afterResume, State.core_resumed_of_ne s hne]
      · rintro ⟨c, hcr, hne, hsc⟩
        rw [State.afterResume_hold, if_neg fun h => hsc (State.noneStopped_resumed.1 h c hcr hne)]
      · intro h
        rw [State.afterResume_hold, if_pos (State.noneStopped_resumed.2 h)]
        exact ⟨rfl, rfl⟩
  case again =>
    obtain ⟨hrel, hrai⟩ := State.settleHold_of_causes hr hc
    exact ⟨hrel, hrai, State.settleHold_cores s⟩

end Sys2Proof.Machine
end

section
/-! PROOFS. Semaphores (10 R309 to R314): the one change of a semaphore in its period, at a core and at the hub, with the errors that it
records; the end of a held core's wait; a core's copy of the hub's value. -/

namespace Sys2Proof.Machine

/-! ### The net change of a period (R311) -/

/-- The value before the period's clamp: the start and the net sum so far, or the present value where the period has no change yet. -/
def netBase (l : List SemNet) (idx cur : Nat) : Int := ((netOf l idx).map fun x => (x.start : Int) + x.net).getD cur

@[simp] theorem netOf_nil (idx : Nat) : netOf [] idx = none := rfl

theorem netBase_of_none {l : List SemNet} {idx : Nat} (h : netOf l idx = none) (cur : Nat) : netBase l idx cur = cur := by
  rw [netBase, h]
  rfl

theorem netBase_of_some {l : List SemNet} {idx : Nat} {x : SemNet} (h : netOf l idx = some x) (cur : Nat) :
    netBase l idx cur = x.start + x.net := by
  rw [netBase, h]
  rfl

/-- A further change of a semaphore in its period adds to the net sum. -/
theorem netOf_addNet_of_some {l : List SemNet} {idx : Nat} {x : SemNet} (h : netOf l idx = some x) (cur : Nat) (amount : Int) :
    netOf (addNet l idx cur amount) idx = some { x with net := x.net + amount } := by
  have hx : (x.idx == idx) = true := List.find?_some (p := fun c : SemNet => c.idx == idx) h
  have hany : l.any (fun c => c.idx == idx) = true := List.any_eq_true.2 ⟨x, List.mem_of_find?_eq_some h, hx⟩
  have hidx : (fun c : SemNet => c.idx == idx) ∘ (fun c => if c.idx = idx then { c with net := c.net + amount } else c) =
      fun c => c.idx == idx := by
    funext c
    dsimp only [Function.comp]
    split <;> rfl
  rw [netOf] at h
  rw [netOf, addNet, if_pos hany, List.find?_map, hidx, h, Option.map_some, if_pos (eq_of_beq hx)]

theorem netOf_addNet (l : List SemNet) (idx cur : Nat) (amount : Int) :
    ∃ x, netOf (addNet l idx cur amount) idx = some x ∧ (x.start : Int) + x.net = netBase l idx cur + amount := by
  cases h : netOf l idx with
  | none => exact ⟨_, netOf_addNet_of_none h cur amount, by rw [netBase_of_none h]⟩
  | some x => exact ⟨_, netOf_addNet_of_some h cur amount, by rw [netBase_of_some h, add_assoc]⟩

/-- The clamp of R311. -/
theorem SemNet.coe_value (c : SemNet) : (c.value : Int) = max 0 (min (2 ^ 32 - 1) (c.start + c.net)) := by
  unfold SemNet.value
  omega

/-- A semaphore's value after one more change in its period. -/
theorem coe_value_addNet (l : List SemNet) (idx cur : Nat) (amount : Int) :
    ((((netOf (addNet l idx cur amount) idx).map SemNet.value).getD cur : Nat) : Int) =
      max 0 (min (2 ^ 32 - 1) (netBase l idx cur + amount)) := by
  obtain ⟨x, hx, hsum⟩ := netOf_addNet l idx cur amount
  rw [hx, ← hsum]
  exact x.coe_value

/-! ### The errors of a change (R311, R331) -/

theorem semNote_of_mem_range {c : SemNet} (h0 : 0 ≤ (c.start : Int) + c.net) (h1 : (c.start : Int) + c.net < 2 ^ 32) (err : Nat) :
    semNote err c = err := by
  have hunder : c.under = false := decide_eq_false (by omega)
  simp only [semNote, hunder, Bool.false_eq_true, if_false]
  exact if_neg (by omega)

theorem bitOf_semNote_of_under {c : SemNet} (h : (c.start : Int) + c.net < 0) (err : Nat) : bitOf (semNote err c) 0 = true := by
  have hunder : c.under = true := decide_eq_true h
  simp only [semNote, hunder, if_true]
  split <;> exact bitOf_setBit_self ..

theorem bitOf_semNote_of_over {c : SemNet} (h : 2 ^ 32 ≤ (c.start : Int) + c.net) (err : Nat) : bitOf (semNote err c) 1 = true := by
  have hunder : c.under = false := decide_eq_false (by omega)
  have hover : ((2 ^ 32 - 1 : Nat) : Int) < c.start + c.net := by omega
  simp only [semNote, hunder, Bool.false_eq_true, if_false]
  rw [if_pos hover]
  split <;> exact bitOf_setBit_self ..

/-! ### A change of a core's semaphore (R310, R311) -/

@[simp] theorem Core.semChange_zero (k : Core) (idx : Nat) : k.semChange idx 0 = k := if_pos rfl

theorem Core.semChange_eq (k : Core) (idx : Nat) (d : Int) : k.semChange idx d =
    { k with sems := (k.semChange idx d).sems, semErr := (k.semChange idx d).semErr, semNet := (k.semChange idx d).semNet
             semErr0 := (k.semChange idx d).semErr0 } := by
  unfold Core.semChange
  split <;> rfl

theorem Core.coe_get_sems_semChange (k : Core) (idx : Nat) {d : Int} (hd : d ≠ 0) :
    ((Sparse.get 0 (k.semChange idx d).sems idx : Nat) : Int) =
      max 0 (min (2 ^ 32 - 1) (netBase k.semNet idx (Sparse.get 0 k.sems idx) + d)) := by
  rw [Core.semChange, if_neg hd, ← coe_value_addNet]
  exact congrArg _ (Sparse.get_set_self ..)

theorem Core.get_sems_semChange_ne (k : Core) {idx i : Nat} (h : i ≠ idx) (d : Int) :
    Sparse.get 0 (k.semChange idx d).sems i = Sparse.get 0 k.sems i := by
  unfold Core.semChange
  split
  · rfl
  · exact Sparse.get_set_ne _ _ _ h

section
variable {k : Core} {idx : Nat} {d : Int} (hk : k.semNet = [])
include hk

/-- The first change of a core in its period notes its own error only. -/
theorem Core.semErr_semChange_first (hd : d ≠ 0) :
    (k.semChange idx d).semErr = semNote k.semErr ⟨idx, Sparse.get 0 k.sems idx, d⟩ := by
  rw [Core.semChange, if_neg hd, hk]
  rfl

/-- The second change of a period takes the error of the first one back and notes that of their sum (R311). -/
theorem Core.semErr_semChange_second (hd : d ≠ 0) {e : Int} (he : e ≠ 0) :
    ((k.semChange idx d).semChange idx e).semErr = semNote k.semErr ⟨idx, Sparse.get 0 k.sems idx, d + e⟩ := by
  have h1 : (k.semChange idx d).semNet = [⟨idx, Sparse.get 0 k.sems idx, d⟩] ∧ (k.semChange idx d).semErr0 = k.semErr := by
    rw [Core.semChange, if_neg hd, hk]
    exact ⟨rfl, rfl⟩
  rw [Core.semChange, if_neg he, h1.1, h1.2]
  simp [addNet]

theorem Core.semErr_semChange_of_mem_range (h0 : 0 ≤ ((Sparse.get 0 k.sems idx : Nat) : Int) + d)
    (h1 : ((Sparse.get 0 k.sems idx : Nat) : Int) + d < 2 ^ 32) :
    (k.semChange idx d).semErr = k.semErr := by
  by_cases hd : d = 0
  · rw [hd, Core.semChange_zero]
  · rw [Core.semErr_semChange_first hk hd, semNote_of_mem_range h0 h1]

theorem Core.coe_get_sems_semChange_of_mem_range (h0 : 0 ≤ ((Sparse.get 0 k.sems idx : Nat) : Int) + d)
    (h1 : ((Sparse.get 0 k.sems idx : Nat) : Int) + d < 2 ^ 32) :
    ((Sparse.get 0 (k.semChange idx d).sems idx : Nat) : Int) = ((Sparse.get 0 k.sems idx : Nat) : Int) + d := by
  by_cases hd : d = 0
  · rw [hd, Core.semChange_zero, add_zero]
  · rw [Core.coe_get_sems_semChange k idx hd, hk, netBase_of_none (netOf_nil idx)]
    omega

/-- Two changes of a period that stay in the range together: their sum, and no error, whatever each alone would have left (R311). -/
theorem Core.semChange_semChange_of_mem_range {e : Int} (h0 : 0 ≤ ((Sparse.get 0 k.sems idx : Nat) : Int) + d + e)
    (h1 : ((Sparse.get 0 k.sems idx : Nat) : Int) + d + e < 2 ^ 32) :
    ((Sparse.get 0 ((k.semChange idx d).semChange idx e).sems idx : Nat) : Int) = ((Sparse.get 0 k.sems idx : Nat) : Int) + d + e ∧
      ((k.semChange idx d).semChange idx e).semErr = k.semErr := by
  by_cases hd : d = 0
  · subst hd
    simp only [Core.semChange_zero, add_zero] at h0 h1 ⊢
    exact ⟨Core.coe_get_sems_semChange_of_mem_range hk h0 h1, Core.semErr_semChange_of_mem_range hk h0 h1⟩
  by_cases he : e = 0
  · subst he
    simp only [Core.semChange_zero, add_zero] at h0 h1 ⊢
    exact ⟨Core.coe_get_sems_semChange_of_mem_range hk h0 h1, Core.semErr_semChange_of_mem_range hk h0 h1⟩
  have hbase (cur : Nat) : netBase (k.semChange idx d).semNet idx cur = ((Sparse.get 0 k.sems idx : Nat) : Int) + d := by
    rw [Core.semChange, if_neg hd, hk]
    exact netBase_of_some (netOf_addNet_of_none (netOf_nil idx) ..) cur
  constructor
  · rw [Core.coe_get_sems_semChange _ idx he, hbase]
    omega
  · rw [Core.semErr_semChange_second hk hd he]
    exact semNote_of_mem_range (by simpa only [add_assoc] using h0) (by simpa only [add_assoc] using h1) _

end

/-! ### A change at the hub (R310, R311, R314) -/

@[simp] theorem State.gsemChange_zero (s : State) (idx : Nat) : s.gsemChange idx 0 = s := if_pos rfl

theorem State.gsemChange_eq (s : State) (idx : Nat) (d : Int) : s.gsemChange idx d =
    { s with gsems := (s.gsemChange idx d).gsems, gsemErr := (s.gsemChange idx d).gsemErr, gsemNet := (s.gsemChange idx d).gsemNet
             gsemErr0 := (s.gsemChange idx d).gsemErr0, gsemSent := (s.gsemChange idx d).gsemSent
             noProgress := (s.gsemChange idx d).noProgress } := by
  unfold State.gsemChange
  split <;> rfl

theorem State.coe_get_gsems_gsemChange (s : State) (idx : Nat) {d : Int} (hd : d ≠ 0) :
    ((Sparse.get 0 (s.gsemChange idx d).gsems idx : Nat) : Int) =
      max 0 (min (2 ^ 32 - 1) (netBase s.gsemNet idx (Sparse.get 0 s.gsems idx) + d)) := by
  rw [State.gsemChange, if_neg hd, ← coe_value_addNet]
  exact congrArg _ (Sparse.get_set_self ..)

theorem State.get_gsems_gsemChange_ne (s : State) {idx i : Nat} (h : i ≠ idx) (d : Int) :
    Sparse.get 0 (s.gsemChange idx d).gsems i = Sparse.get 0 s.gsems i := by
  unfold State.gsemChange
  split
  · rfl
  · exact Sparse.get_set_ne _ _ _ h

/-- The change is on its way to the core controllers. -/
theorem State.mem_gsemSent_gsemChange (s : State) (idx : Nat) {d : Int} (hd : d ≠ 0) : ∃ e ∈ (s.gsemChange idx d).gsemSent, e.1 = idx := by
  rw [State.gsemChange, if_neg hd]
  dsimp only
  split
  next h =>
    obtain ⟨e, he, heq⟩ := List.any_eq_true.1 h
    exact ⟨e, he, eq_of_beq heq⟩
  next => exact ⟨(idx, s.epoch), List.mem_append_right _ (List.mem_singleton_self _), rfl⟩

theorem semaphoreChangesClamp : Claims.SemaphoreChangesClamp := by
  refine ⟨fun k idx d => ?core, fun k idx d e hk h0 h1 => Core.semChange_semChange_of_mem_range hk h0 h1, fun s idx d => ?hub⟩
  case core =>
    intro k' base
    have hbase : base = netBase k.semNet idx (Sparse.get 0 k.sems idx) := by
      simp only [base]
      split
      next h => exact (netBase_of_some h _).symm
      next h => exact (netBase_of_none h _).symm
    have hfirst (hk : k.semNet = []) : base = ((Sparse.get 0 k.sems idx : Nat) : Int) := by
      rw [hbase, hk]
      exact netBase_of_none (netOf_nil idx) _
    refine ⟨fun h => if_pos h, k.semChange_eq idx d, fun hd => ?_, fun i hi => k.get_sems_semChange_ne hi d, fun hk h0 h1 => ?_,
      fun hk hd h => ?_, fun hk hd h => ?_⟩
    · rw [hbase]
      exact k.coe_get_sems_semChange idx hd
    · rw [hfirst hk] at h0 h1
      exact Core.semErr_semChange_of_mem_range hk h0 h1
    · rw [hfirst hk] at h
      exact Core.semErr_semChange_first hk hd ▸ bitOf_semNote_of_under h _
    · rw [hfirst hk] at h
      exact Core.semErr_semChange_first hk hd ▸ bitOf_semNote_of_over h _
  case hub =>
    intro s' base
    have hbase : base = netBase s.gsemNet idx (Sparse.get 0 s.gsems idx) := by
      simp only [base]
      split
      next h => exact (netBase_of_some h _).symm
      next h => exact (netBase_of_none h _).symm
    refine ⟨fun h => if_pos h, s.gsemChange_eq idx d, fun hd => ⟨?_, s.mem_gsemSent_gsemChange idx hd⟩,
      fun i hi => s.get_gsems_gsemChange_ne hi d⟩
    rw [hbase]
    exact s.coe_get_gsems_gsemChange idx hd

/-! ### Waits and copies (R313, R314) -/

/-- The waits that go on into the next period: those that neither were met before nor are met now (R313). -/
theorem passNext_waits (k : Core) (crossing raising : Bool) :
    (k.passNext crossing raising).waits = k.waits.filter (fun g => !(g.met || k.gateMet g)) := by
  unfold Core.passNext
  extract_lets k1
  split <;> rfl

theorem Core.gateMet_eq_false {k : Core} {g : Gate} :
    k.gateMet g = false ↔ (if g.glob then Sparse.get 0 k.gcopy g.idx else Sparse.get 0 k.sems g.idx) < g.amount := by
  rw [Core.gateMet, decide_eq_false_iff_not, Nat.not_le]

/-- A copy takes the hub's value where both clocks run (R314, R518). -/
theorem execGlobalSemaphoreUpdate_eq {s : State} {core idx : Nat} (hl : s.clk.lost = false) (ha : s.fuse.active core = true) (hi : idx < 1024) :
    exec (.globalSemaphoreUpdate core idx) s = .next (if s.clocked core && !s.semStopped 255 then
      s.setCore core { s.core core with gcopy := Sparse.set 0 (s.core core).gcopy idx (Sparse.get 0 s.gsems idx) } else s) :=
  (live_of s _ hl).trans (by simp [ha, hi])

theorem waitsAndCopiesUpdate : Claims.WaitsAndCopiesUpdate := by
  refine ⟨fun core s hl => ⟨_, live_of s _ hl, rfl, fun c hc => ?_, ?_⟩, fun k crossing raising g => ?_,
    fun core idx s hl ha hi => ⟨fun h => ?_, fun hc hh => ?_⟩⟩
  · exact (State.core_setCore ..).trans (if_neg hc)
  · exact (State.core_setCore ..).trans (if_pos rfl)
  · rw [passNext_waits, List.mem_filter, Bool.not_eq_true', Bool.or_eq_false_iff, Core.gateMet_eq_false]
  · rw [execGlobalSemaphoreUpdate_eq hl ha hi, if_neg]
    rcases h with h | h <;> simp [h]
  · rw [execGlobalSemaphoreUpdate_eq hl ha hi, if_pos (by simp [hc, hh])]
    have hcore := (State.core_setCore s core
      { s.core core with gcopy := Sparse.set 0 (s.core core).gcopy idx (Sparse.get 0 s.gsems idx) } core).trans (if_pos rfl)
    refine ⟨_, rfl, rfl, fun c hne => (State.core_setCore ..).trans (if_neg hne), ?_, fun i => ?_⟩
    · rw [hcore]
    · rw [hcore]
      exact Sparse.get_set ..

/-- Settles O23: the period's net sum decides a semaphore's value and its errors; then the waits and the copies. -/
theorem semaphoresClampAndWaitsEnd : Obligations.SemaphoresClampAndWaitsEnd := ⟨semaphoreChangesClamp, waitsAndCopiesUpdate⟩

end Sys2Proof.Machine
end

section
/-! PROOFS. Remote operations (10 R317 to R320): it is said once what the ends of commands leave alone, all but the rings, the commands and
their records; what the end of a transfer leaves of the remote operations and of the semaphores; and how an operation reaches its target, is
answered, and ends. -/

namespace Sys2Proof.Machine

/-! ### What records and the ends of commands leave alone (17 R546 to R552) -/

/-- The state without the rings, the commands and their records. -/
def State.unrecorded (s : State) : State :=
  { s with crings := [], erings := [], cmds := [], waitRecs := [], hostWrites := [], meshId := 0, outbox := [], noProgress := 0 }

theorem State.hostWrite_unrecorded (s : State) (a : Nat) (bs : List MByte) (o : Owner) : (s.hostWrite a bs o).unrecorded = s.unrecorded := by
  simp only [State.hostWrite]
  split <;> rfl

theorem State.post_unrecorded {s t : State} {e : Nat} {rec : List Byte} (h : s.post e rec = some t) : t.unrecorded = s.unrecorded := by
  simp only [State.post] at h
  split at h
  · cases h
    exact State.hostWrite_unrecorded ..
  · split at h <;> cases h
    rfl

theorem State.endCmd_unrecorded (s : State) (id : Nat) : (s.endCmd id).unrecorded = s.unrecorded := by
  simp only [State.endCmd]
  split
  · rfl
  · split
    · rfl
    · split <;> rfl

theorem State.postWait_unrecorded {s t : State} {w : WaitRec} (h : s.postWait w = some t) : t.unrecorded = s.unrecorded := by
  simp only [State.postWait] at h
  split at h
  next hp =>
    cases h
    exact (State.endCmd_unrecorded ..).trans (State.post_unrecorded hp :)
  next => cases h

theorem flushList_unrecorded (l : List WaitRec) (s : State) : (flushList l s).unrecorded = s.unrecorded := by
  induction l generalizing s with
  | nil => rfl
  | cons w t ih =>
    unfold flushList
    split
    next h => exact (ih _).trans (State.postWait_unrecorded h)
    next => exact ih _

theorem State.complete_unrecorded (s : State) (id : Nat) (found : List Nat) (detail : List Byte) :
    (s.complete id found detail).unrecorded = s.unrecorded := by
  unfold State.complete State.tryPost
  split
  · split
    · split
      · exact flushList_unrecorded ..
      · rfl
    · rfl
  · rfl

theorem State.waitsMet_unrecorded (s : State) : s.waitsMet.unrecorded = s.unrecorded :=
  List.foldlRecOn (motive := fun t : State => t.unrecorded = s.unrecorded) _ _ rfl fun t ht c _ => by
    split
    · exact (t.complete_unrecorded ..).trans ht
    · exact ht

/-! ### The remote operations and the semaphores (07 R217, R421) -/

/-- What the end of a transfer leaves alone: the remote operations and every core's semaphores. -/
structure State.Signals where
  remote : List RemoteOp
  sems : Nat → Sparse Nat

/-- The remote operations and every core's semaphores. -/
def State.signals (s : State) : State.Signals := ⟨s.remote, fun c => (s.core c).sems⟩

theorem State.setCore_signals (s : State) (c : Nat) {k : Core} (h : k.sems = (s.core c).sems) : (s.setCore c k).signals = s.signals := by
  refine congrArg (State.Signals.mk s.remote) (funext fun j => ?_)
  rw [State.core_setCore]
  split
  next hj => rw [h, hj]
  next => rfl

theorem State.setQueue_signals (s : State) (c q : Nat) (l : LadleQ) : (s.setQueue c q l).signals = s.signals := s.setCore_signals c rfl

theorem State.cvWrite_signals (s : State) (n : Nat) (x : Snoop) (value : Nat) : (s.cvWrite n x value).signals = s.signals := by
  simp only [State.cvWrite]
  split
  · split
    · exact State.setQueue_signals ..
    · rfl
  · rfl

theorem cvRun_signals (n k : Nat) (s : State) : (cvRun n k s).signals = s.signals := by
  induction k generalizing s with
  | zero => rfl
  | succ k ih =>
    simp only [cvRun]
    split
    · rfl
    · split
      · exact ih _
      · rfl
      · refine (ih _).trans ?_
        split
        · exact State.cvWrite_signals ..
        · rfl

theorem State.dropTransfer_signals (s : State) (c q id : Nat) : (s.dropTransfer c q id).signals = s.signals := by
  unfold State.dropTransfer
  extract_lets l s1
  have h1 : s1.signals = s.signals := s.setQueue_signals ..
  split
  · exact List.foldlRecOn (motive := fun t : State => t.signals = s.signals) _ _ h1 fun t ht n _ => (cvRun_signals ..).trans ht
  · exact h1

theorem State.dropTransfer_remote (s : State) (c q id : Nat) : (s.dropTransfer c q id).remote = s.remote :=
  congrArg State.Signals.remote (s.dropTransfer_signals c q id)

theorem State.complete_remote (s : State) (id : Nat) (found : List Nat) (detail : List Byte) : (s.complete id found detail).remote = s.remote :=
  (congrArg State.remote (s.complete_unrecorded id found detail) :)

theorem State.waitsMet_remote (s : State) : s.waitsMet.remote = s.remote := (congrArg State.remote s.waitsMet_unrecorded :)

theorem State.noteFirst_remote (s : State) : s.noteFirst.remote = s.remote := by
  unfold State.noteFirst
  split <;> rfl

theorem State.runOutcome_remote (s : State) (c o : Nat) : (s.runOutcome c o).remote = s.remote := s.noteFirst_remote

/-! ### An operation at its target (R311, R317, R320) -/

theorem State.applyRemote_remote (s : State) (core idx : Nat) (amount : Int) : (s.applyRemote core idx amount).1.remote = s.remote := by
  unfold State.applyRemote
  split
  · rfl
  · split
    · rw [State.waitsMet_remote, State.gsemChange_eq]
    · split
      · rfl
      · exact State.waitsMet_remote _

/-- At an active core, with no switch or restart under way, the operation is one change of the semaphore. -/
theorem State.core_applyRemote {s : State} {core : Nat} (ha : s.fuse.active core = true) (hc : core < 160) (hs : s.switching = false)
    (hr : s.restarting = false) (idx : Nat) (amount : Int) :
    (s.applyRemote core idx amount).1.core core = (s.core core).semChange idx amount := by
  rw [State.applyRemote, if_neg (by simp [hs, hr]), if_neg (by omega), if_neg (by simp [ha])]
  exact (s.csemChange_waitsMet_spec core idx amount).2

/-- Every operation of op's number replaced by op. -/
def State.putRemote (s : State) (op : RemoteOp) : State := { s with remote := s.remote.map (fun q => if q.id = op.id then op else q) }

/-- The operation is among those under way after it has been put there in its place. -/
theorem State.find_putRemote {s : State} {op x : RemoteOp} (h : s.remote.find? (fun o => o.id == op.id) = some x) :
    (s.putRemote op).remote.find? (fun o => o.id == op.id) = some op := by
  have hid : (fun o : RemoteOp => o.id == op.id) ∘ (fun q => if q.id = op.id then op else q) = fun o => o.id == op.id := by
    funext q
    dsimp only [Function.comp]
    split
    next hq => rw [hq]
    next => rfl
  have hx : x.id = op.id := eq_of_beq (List.find?_some (p := fun o : RemoteOp => o.id == op.id) h)
  rw [State.putRemote, List.find?_map, hid, h, Option.map_some, if_pos hx]

/-- The device once operation op has been applied or refused at its target, and the transfer whose signal it is is over (R217). -/
def State.remoteReached (s : State) (op : RemoteOp) : State :=
  let r := s.applyRemote op.core op.idx op.amount
  let t := r.1.putRemote { op with outcome := some r.2 }
  match op.by_ with
  | .transfer c q _ i => t.dropTransfer c q i
  | _ => t

theorem State.remoteReached_mem (s : State) (op : RemoteOp) : (s.remoteReached op).mem = s.mem := by
  have h := s.applyRemote_mem op.core op.idx op.amount
  unfold State.remoteReached
  split
  · exact (State.dropTransfer_mem ..).trans h
  · exact h

/-- The transfer's end touches neither the operations nor the semaphores. -/
theorem State.remoteReached_signals (s : State) (op : RemoteOp) :
    (s.remoteReached op).signals = ((s.applyRemote op.core op.idx op.amount).1.putRemote
      { op with outcome := some (s.applyRemote op.core op.idx op.amount).2 }).signals := by
  unfold State.remoteReached
  split
  · exact State.dropTransfer_signals ..
  · rfl

theorem State.find_remoteReached {s : State} {op : RemoteOp} (h : s.remote.find? (fun o => o.id == op.id) = some op) :
    (s.remoteReached op).remote.find? (fun o => o.id == op.id) = some { op with outcome := some (s.applyRemote op.core op.idx op.amount).2 } := by
  have hremote : (s.remoteReached op).remote = _ := congrArg State.Signals.remote (s.remoteReached_signals op)
  have happly : (s.applyRemote op.core op.idx op.amount).1.remote.find? (fun o => o.id == op.id) = some op := by rwa [State.applyRemote_remote]
  rw [hremote]
  exact State.find_putRemote (op := { op with outcome := some (s.applyRemote op.core op.idx op.amount).2 }) happly

theorem State.sems_remoteReached (s : State) (op : RemoteOp) (c : Nat) :
    ((s.remoteReached op).core c).sems = ((s.applyRemote op.core op.idx op.amount).1.core c).sems :=
  congrArg (fun g : State.Signals => g.sems c) (s.remoteReached_signals op)

/-- The packet of the first operation under way that nothing holds up reaches its target (R317, R518). -/
theorem execRemoteSemaphorePacket_of_first {s : State} {op : RemoteOp} (hl : s.clk.lost = false)
    (hf : s.remote.find? (fun o => o.id == op.id) = some op) (hself : op.self = true) (ho : op.outcome = none) (hlost : op.lost = false)
    (hfirst : s.remote.takeWhile (fun o => o.id != op.id) = []) (hsem : s.semStopped op.core = false)
    (hroute : op.key.1 = 0 → s.routeStopped op.key.2 op.core = false) :
    exec (.remoteSemaphorePacket ⟨op.id, none⟩) s = .next (s.remoteReached op) := by
  have hheld : (s.semStopped op.core || (op.key.1 == 0 && s.routeStopped op.key.2 op.core)) = false := by
    simpa [hsem] using hroute
  refine (live_of s _ hl).trans (congrArg _ ?_)
  simp only [hf]
  rw [if_neg (by simp [hself, ho, hlost, hfirst, hheld])]
  unfold State.remoteReached
  cases op.by_ <;> rfl

/-! ### The end of an operation (R319, R320) -/

/-- The operation that ends is under way no longer, and no other one goes with it. -/
theorem State.remoteEnd_remote (s : State) (op : RemoteOp) (o : Nat) : (s.remoteEnd op o).remote = s.remote.filter (fun x => x.id != op.id) := by
  simp only [State.remoteEnd]
  split
  · exact State.runOutcome_remote ..
  · exact (State.runOutcome_remote ..).trans (State.dropTransfer_remote ..)
  · split
    · exact (State.complete_remote ..).trans (State.dropTransfer_remote ..)
    · exact State.dropTransfer_remote ..
  · exact State.complete_remote ..

theorem State.not_mem_remoteEnd (s : State) (op : RemoteOp) (o : Nat) : ∀ x ∈ (s.remoteEnd op o).remote, x.id ≠ op.id := by
  intro x hx
  rw [State.remoteEnd_remote] at hx
  exact bne_iff_ne.1 (List.mem_filter.1 hx).2

/-- The answer that nothing holds up ends the operation with the outcome at its target (R320, R518). -/
theorem execSemaphoreAcknowledgement_of_outcome {s : State} {op : RemoteOp} {o : Nat} (hl : s.clk.lost = false)
    (hf : s.remote.find? (fun x => x.id == op.id) = some op) (hself : op.self = true) (ho : op.outcome = some o) (hlost : op.lost = false)
    (hroute : op.key.1 = 0 → s.routeStopped op.core op.key.2 = false) :
    exec (.semaphoreAcknowledgement ⟨op.id, none⟩) s = .next (s.remoteEnd op o) := by
  have hheld : (op.lost || (op.key.1 == 0 && s.routeStopped op.core op.key.2)) = false := by
    simpa [hlost] using hroute
  refine (live_of s _ hl).trans (congrArg _ ?_)
  simp only [hf, hself, ho, hheld, State.discarded, Option.map_none, Bool.false_eq_true, if_false]

/-- The timeout comes with the 2^t-th period after the issue and not before (R319). -/
theorem execRemoteOperationTimeout_of_find {s : State} {op : RemoteOp} (hl : s.clk.lost = false)
    (hf : s.remote.find? (fun x => x.id == op.id) = some op) :
    exec (.remoteOperationTimeout op.id) s = .next (if op.since + 2 ^ s.tmoExp ≤ s.periods0 then s.remoteEnd op 5 else s) := by
  refine (live_of s _ hl).trans (congrArg _ ?_)
  simp only [hf]

/-- No epoch count ends before a timeout that is due in it. -/
theorem State.mayPass_of_timeoutDue {s : State} {op : RemoteOp} (hm : op ∈ s.remote) (hd : op.since + 2 ^ s.tmoExp ≤ s.periods0) :
    s.mayPass = false := by
  have hany : s.remote.any (fun o => decide (o.since + 2 ^ s.tmoExp ≤ s.periods0)) = true :=
    List.any_eq_true.2 ⟨op, hm, decide_eq_true hd⟩
  simp [State.mayPass, State.momentDue, hany]

theorem State.noteFirst_run {s : State} {r : RunState} (h : s.run = some r) : ∃ r', s.noteFirst.run = some r' := by
  unfold State.noteFirst
  rw [h]
  exact ⟨_, rfl⟩

/-- An outcome other than done is in the record of the run (R320, R587). -/
theorem State.mem_runOutcome {s : State} {r : RunState} (h : s.run = some r) (c : Nat) {o : Nat} (ho : o ≠ 0) :
    ∃ r', (s.runOutcome c o).run = some r' ∧ outcomeStatus o ∈ r'.remote := by
  obtain ⟨r1, h1⟩ := State.noteFirst_run h
  simp [State.runOutcome, h1, RunState.noteRemote, ho]

/-- The end of a core's operation: the outcome is noted on the core and in the record of the run (R320). -/
theorem State.remoteEnd_of_core (s : State) {op : RemoteOp} {c : Nat} (hby : op.by_ = .core c) (o : Nat) : s.remoteEnd op o =
    (({ s with remote := s.remote.filter (fun x => x.id != op.id) } : State).setCore c ((s.core c).noteRemote o)).runOutcome c o := by
  simp only [State.remoteEnd, hby]
  rfl

/-- An outcome other than done sets REMOTE_ERR on the issuing core (R320). -/
theorem State.bitOf_semErr_remoteEnd (s : State) {op : RemoteOp} {c o : Nat} (hby : op.by_ = .core c) (ho : o ≠ 0) :
    bitOf ((s.remoteEnd op o).core c).semErr 2 = true := by
  rw [State.remoteEnd_of_core s hby, State.core_of_pacing (State.runOutcome_pacing ..), State.core_setCore, if_pos rfl, Core.noteRemote, if_neg ho]
  exact bitOf_setBit_self ..

theorem State.mem_run_remoteEnd {s : State} {op : RemoteOp} {c o : Nat} {r : RunState} (hby : op.by_ = .core c) (ho : o ≠ 0)
    (hr : s.run = some r) : ∃ r', (s.remoteEnd op o).run = some r' ∧ outcomeStatus o ∈ r'.remote := by
  rw [State.remoteEnd_of_core s hby]
  refine State.mem_runOutcome (r := r) ?_ c ho
  exact hr

/-! ### From the issue to the end -/

/-- Settles O31: the packet at its target, the answer at the issuer, the timeout. -/
theorem remoteOperationsEnd : Obligations.RemoteOperationsEnd := by
  refine ⟨fun id s op hl hf hself ho hlost hfirst hc hsem hroute => ?reach, fun id o s op hl hf hself ho hlost hroute => ?answer,
    fun id c s op hl hf hby => ?timeout⟩ <;>
    obtain rfl : op.id = id := eq_of_beq (List.find?_some (p := fun o : RemoteOp => o.id == id) hf)
  case reach =>
    refine ⟨s.remoteReached op, execRemoteSemaphorePacket_of_first hl hf hself ho hlost hfirst hsem hroute,
      State.byteAt_congr (s.remoteReached_mem op), ⟨_, State.find_remoteReached hf, rfl⟩, fun ha hs hr hamount hnet => ?_⟩
    rw [State.sems_remoteReached, State.core_applyRemote ha hc hs hr, Core.coe_get_sems_semChange _ _ hamount, netBase_of_none hnet]
  case answer =>
    exact ⟨s.remoteEnd op o, execSemaphoreAcknowledgement_of_outcome hl hf hself ho hlost hroute, State.byteAt_congr (s.remoteEnd_mem op o),
      s.not_mem_remoteEnd op o⟩
  case timeout =>
    have hexec := execRemoteOperationTimeout_of_find hl hf
    refine ⟨fun hlt => ?_, fun hle => ⟨State.mayPass_of_timeoutDue (List.mem_of_find?_eq_some hf) hle, s.remoteEnd op 5, ?_,
      s.not_mem_remoteEnd op 5, s.bitOf_semErr_remoteEnd hby (by decide), fun r hr => State.mem_run_remoteEnd hby (by decide) hr⟩⟩
    · rw [hexec, if_neg (Nat.not_le.2 hlt)]
    · rw [hexec, if_pos hle]

end Sys2Proof.Machine
end

section
/-! PROOFS. Memory units and the maintenance window (12 R368 to R383): the registers of a unit change and no byte does, a scrub counts and
corrects what its read finds, and a maintenance operation starts, or is refused, and ends with what its command leaves. -/

namespace Sys2Proof.Machine

/-! ### Registers and their bits -/

/-- The registers answer only while the reference lasts (R492). -/
theorem State.lost_of_regAlive {s : State} (h : s.regAlive = true) : s.clk.lost = false := by
  simp only [State.regAlive, State.hostAlive, Bool.and_eq_true, Bool.not_eq_true'] at h
  obtain ⟨⟨_, hlost⟩, _⟩ := h
  exact hlost

theorem bitOf_zero (v : Nat) : bitOf v 0 = decide (v % 2 = 1) := by simp [bitOf]

/-! ### Refresh, temperature and quiescing (12 R368 to R370, R380) -/

theorem exec_refresh {s : State} {unit channel bank : Nat} (hl : s.clk.lost = false) (hu : unit < 9) (hbulk : unit = 8 → channel < 16)
    (hc : channel < 64) (hb : bank < 32) (queued : Bool) :
    let key := (unit * 64 + channel) * 32 + bank
    let n := Sparse.get 0 s.postponed key
    exec (.refresh unit channel bank queued) s =
      .next { s with postponed := Sparse.set 0 s.postponed key (if queued = true ∧ n < 7 then n + 1 else 0) } :=
  (live_of s _ hl).trans (congrArg _ (if_neg (by omega)))

theorem exec_temperatureRead {s : State} {k : Nat} (hl : s.clk.lost = false) (hk : k < 9) (temp : Nat) :
    exec (.temperatureRead k temp) s =
      .next (s.setUnit k { s.unit k with temp := if k < 8 then temp % 256 else 0, ref2x := decide (85 ≤ temp) }) :=
  (live_of s _ hl).trans (congrArg _ (if_pos hk))

theorem exec_stackQuiesced {s : State} {k : Nat} (hl : s.clk.lost = false) (hk : k < 8) (hq : (s.unit k).quiesce = true) :
    exec (.stackQuiesced k) s = .next (s.setUnit k { s.unit k with quiesced := true }) :=
  (live_of s _ hl).trans (congrArg _ (if_pos (by simp [hk, hq])))

/-- With no source block still to read, and an epoch that runs or none that waits, nothing goes on after a quiesced stack. -/
theorem State.afterQuiesce_of_idle {s : State} (hjobs : ∀ j ∈ s.press.jobs, j.todo = [])
    (hepoch : s.epochCmd.isSome = true ∨ s.epochQueue = []) : s.afterQuiesce = s := by
  have hnone : s.press.jobs.filter (fun j => !j.todo.isEmpty) = [] := List.filter_eq_nil_iff.2 fun j hj => by simp [hjobs j hj]
  simp only [State.afterQuiesce, hnone, List.map_nil, List.foldl_nil]
  split
  next hcmd =>
    obtain hsome | hqueue := hepoch
    · simp [Option.isNone_iff_eq_none.1 hcmd] at hsome
    · rw [hqueue]
      exact congrArg (fun q => { s with epochQueue := q }) hqueue.symm
  next => rfl

/-- A write of QUIESCE that finds nothing to go on sets the stack's bits and does no more (R380). -/
theorem exec_quiesce {s : State} {k value : Nat} (ha : s.regAlive = true) (hd : s.boot.done = true) (hk : k < 8)
    (ht : s.testOn 2 k = false) (hidle : value % 2 = 0 → (∀ j ∈ s.press.jobs, j.todo = []) ∧ (s.epochCmd.isSome = true ∨ s.epochQueue = [])) :
    exec (.quiesce k value) s =
      .next (s.setUnit k (if value % 2 = 1 then { s.unit k with quiesce := true } else { s.unit k with quiesce := false, quiesced := false })) := by
  refine (live_of s _ (State.lost_of_regAlive ha)).trans (congrArg _ ((if_neg (by simp [ha, hd, hk, ht])).trans ?_))
  rw [bitOf_zero]
  by_cases hv : value % 2 = 1
  · simp only [hv, decide_true, if_true]
  · obtain ⟨hjobs, hepoch⟩ := hidle (by omega)
    simp only [hv, decide_false, Bool.false_eq_true, if_false]
    exact State.afterQuiesce_of_idle hjobs hepoch

/-- A unit that is replaced reads as the new one, the others as before. -/
theorem State.setUnit_spec (s : State) (k : Nat) (m : MemUnit) :
    s.setUnit k m = { s with memUnits := (s.setUnit k m).memUnits } ∧ (s.setUnit k m).unit k = m ∧
      ∀ q, q ≠ k → (s.setUnit k m).unit q = s.unit q :=
  ⟨rfl, by simp, fun q hq => by simp [hq]⟩

theorem memoryUnitEvents : Claims.MemoryUnitEvents := by
  refine ⟨fun unit channel bank queued s hl hu hbulk hc hb => ?refresh, fun k temp s hl hk => ?temperature,
    fun k value s ha hd hk ht hidle => ?quiesce, fun k s hl hk hq => ?quiesced⟩
  case refresh =>
    exact ⟨_, exec_refresh hl hu hbulk hc hb queued, rfl, Sparse.get_set_self .., fun q hq => Sparse.get_set_ne _ _ _ hq⟩
  case temperature => exact ⟨_, exec_temperatureRead hl hk temp, s.setUnit_spec k _⟩
  case quiesce => exact ⟨_, exec_quiesce ha hd hk ht hidle, s.setUnit_spec k _⟩
  case quiesced =>
    obtain ⟨hframe, hself, _⟩ := s.setUnit_spec k { s.unit k with quiesced := true }
    exact ⟨_, exec_stackQuiesced hl hk hq, hframe, hself⟩

/-! ### Scrubbing (12 R371, R377) -/

theorem State.postEvent_ecc (s : State) (e kind source status : Nat) (detail : List Byte) :
    (s.postEvent e kind source status detail).ecc = s.ecc := by
  simp only [State.postEvent]
  split
  next h => exact (congrArg State.ecc (State.post_unrecorded h) :)
  next => rfl

@[simp] theorem MemUnit.first_cnt (m : MemUnit) (now kind a : Nat) : (m.first now kind a).cnt = m.cnt := by
  unfold MemUnit.first
  split
  · rfl
  · split <;> rfl

theorem MemUnit.get_cnt_bump (m : MemUnit) (c k : Nat) : Sparse.get 0 (m.bump c k).cnt c = min (Sparse.get 0 m.cnt c + k) (2 ^ 64 - 1) :=
  Sparse.get_set_self ..

section
variable {s : State} {w : Nat}

/-- The read of a sound word leaves no trace. -/
theorem State.wordRead_of_sound (h : Sparse.get 0 s.ecc w = 0) : s.wordRead w = s := by simp only [State.wordRead, h]

/-- The read of a word with a single-bit error counts it at its unit. -/
theorem State.unit_wordRead_of_single (h : Sparse.get 0 s.ecc w = 1) :
    (s.wordRead w).unit (unitOf (8 * w)) = ((s.unit (unitOf (8 * w))).bump 0 1).first s.epoch 0 (8 * w) := by
  have hset := (s.unit_setUnit (unitOf (8 * w)) (((s.unit (unitOf (8 * w))).bump 0 1).first s.epoch 0 (8 * w)) _).trans (if_pos rfl)
  simp only [State.wordRead, h]
  split <;> exact hset

/-- The read of an uncorrectable or poisoned word leaves the check bits as they are (R373). -/
theorem State.wordRead_ecc_of_marked (h : 2 ≤ Sparse.get 0 s.ecc w) : (s.wordRead w).ecc = s.ecc := by
  simp only [State.wordRead]
  split
  next h0 => omega
  next h1 => omega
  next => exact State.postEvent_ecc ..
  next => rfl

/-- A scrub of a word that nothing upsets reads it, and writes it back where its error is corrected (R377). -/
theorem exec_scrub (hl : s.clk.lost = false) (hen : s.memEccCtl / 2 % 2 = 1) (hmem : inWordMem (8 * w) = true)
    (hspan : (s.span false (8 * w)).isSome = true) (hready : (s.unit (unitOf (8 * w))).ready = true) :
    exec (.scrub w []) s = .next (if Sparse.get 0 s.ecc w = 1 then { s.wordRead w with ecc := Sparse.set 0 (s.wordRead w).ecc w 0 }
      else s.wordRead w) := by
  have hbit : bitOf s.memEccCtl 1 = true := decide_eq_true hen
  refine (live_of s _ hl).trans (congrArg _ ((if_pos (by simp [hbit, hmem, hspan, hready])).trans ?_))
  simp only [List.filter_nil, State.upset, List.foldl_nil, beq_iff_eq]

end

theorem scrubCorrects : Claims.ScrubCorrects := by
  intro w s hl hen hmem hspan hready
  refine ⟨_, exec_scrub hl hen hmem hspan hready, State.byteAt_congr ?_, fun h0 => ?_, fun h1 => ?_, fun h2 => ?_⟩
  · split <;> exact s.wordRead_mem w
  · rw [if_neg (by omega), State.wordRead_of_sound h0]
  · rw [if_pos h1]
    refine ⟨Sparse.get_set_self (0 : Nat) _ w 0, ?_⟩
    calc Sparse.get 0 ((s.wordRead w).unit (unitOf (8 * w))).cnt 0
        = Sparse.get 0 ((s.unit (unitOf (8 * w))).bump 0 1).cnt 0 := by rw [State.unit_wordRead_of_single h1, MemUnit.first_cnt]
      _ = _ := MemUnit.get_cnt_bump ..
  · rw [if_neg (by omega), State.wordRead_ecc_of_marked h2]

/-- Settles O41: each event of a unit changes its own registers, and a scrub does what the check bits of its word call for. -/
theorem memoryUnitsServe : Obligations.MemoryUnitsServe := ⟨memoryUnitEvents, scrubCorrects⟩

/-! ### The start of a maintenance operation (12 R382) -/

/-- The window after a GO of command cmd for a stack: refused on a stack that is not quiesced or for a bad argument, else running. -/
def Maint.go (m : Maint) (cmd stack : Nat) (quiesced : Bool) : Maint :=
  let m' := { m with stack := stack, cmd := cmd }
  if quiesced = false then m'.finish 2
  else if cmd < 4 ∧ 63 < m.pc then m'.finish 4
  else { m' with busy := true, done := false }

section
variable (m : Maint) {cmd : Nat} (stack : Nat) {quiesced : Bool}

theorem Maint.go_cmd : (m.go cmd stack quiesced).cmd = cmd := by
  simp only [Maint.go]
  split_ifs <;> rfl

theorem Maint.go_stack : (m.go cmd stack quiesced).stack = stack := by
  simp only [Maint.go]
  split_ifs <;> rfl

theorem Maint.go_of_unquiesced (hq : quiesced = false) :
    m.go cmd stack quiesced = ({ m with stack := stack, cmd := cmd } : Maint).finish 2 := if_pos hq

variable {m}

theorem Maint.go_of_fitting (hq : quiesced = true) (h : cmd < 4 → m.pc ≤ 63) :
    m.go cmd stack quiesced = { m with stack := stack, cmd := cmd, busy := true, done := false } :=
  (if_neg (by simp [hq])).trans (if_neg (by omega))

theorem Maint.go_of_badArgument (hq : quiesced = true) (hc : cmd < 4) (hp : 63 < m.pc) :
    m.go cmd stack quiesced = ({ m with stack := stack, cmd := cmd } : Maint).finish 4 :=
  (if_neg (by simp [hq])).trans (if_pos ⟨hc, hp⟩)

end

/-- A GO that finds the window idle is `Maint.go`, and changes nothing else. -/
theorem State.maintGo_of_idle {s : State} {cmd value : Nat} (ha : s.regAlive = true) (hd : s.boot.done = true) (hb : s.maint.busy = false)
    (hgo : value % 2 = 1) (hcmd : value / 2 % 8 = cmd) (h0 : cmd ≠ 0) (h4 : cmd ≤ 4) :
    s.maintGo cmd value = { s with maint := s.maint.go cmd (value / 32 % 8) (s.unit (value / 32 % 8)).quiesced } := by
  have hbit : bitOf value 0 = true := (bitOf_zero value).trans (decide_eq_true hgo)
  have hbits : bits value 3 1 = cmd := hcmd
  have hstack : bits value 7 5 = value / 32 % 8 := rfl
  simp only [State.maintGo, ha, hd, hbit, hbits, State.maintWrite, hb, hstack, h0, Maint.go, Nat.not_lt.2 h4, Bool.not_true,
    Bool.false_eq_true, beq_self_eq_true, Bool.and_self, Bool.not_eq_true', if_true, if_false, or_self]

/-- Each maintenance command is a GO with its own CMD. -/
theorem exec_maintenance {s : State} {f : Nat → Instr} {cmd : Nat}
    (h : (f, cmd) ∈ [((Instr.sppr : Nat → Instr), 1), (.hppr, 2), (.spares, 3), (.ieee1500, 4)]) (hl : s.clk.lost = false) (value : Nat) :
    exec (f value) s = .next (s.maintGo cmd value) ∧ cmd ≠ 0 ∧ cmd ≤ 4 := by
  simp only [List.mem_cons, Prod.mk.injEq, List.not_mem_nil, or_false] at h
  obtain ⟨rfl, rfl⟩ | ⟨rfl, rfl⟩ | ⟨rfl, rfl⟩ | ⟨rfl, rfl⟩ := h <;> exact ⟨live_of s _ hl, by decide, by decide⟩

/-! ### Its end (12 R382, R383) -/

/-- The hard-repair resources that the addressed bank has left. -/
def State.hardSpares (s : State) : Nat := Sparse.get 2 s.hardLeft s.maint.bankKey

/-- The soft repairs that stand in the addressed bank. -/
def State.softUsed (s : State) : Nat := (s.softReps.filter (fun p => p.1 == s.maint.bankKey)).length

/-- The state after the running operation has ended. -/
def State.maintEnded (s : State) (iface : Bool) (words : List (Nat × Nat)) (out : W64) : State :=
  if iface then { s with maint := s.maint.finish 3 }
  else if s.maint.cmd = 3 then { s with maint := { s.maint with remaining := min s.hardSpares 255 }.finish 0 }
  else if s.maint.cmd = 4 then { s with maint := { s.maint with data := out }.finish 0 }
  else if s.hardSpares ≤ s.softUsed then { s with maint := s.maint.finish 1 }
  else if s.maint.cmd = 1 then
    { s.rowLost words with maint := s.maint.finish 0, softReps := (s.rowLost words).softReps ++ [(s.maint.bankKey, s.maint.row)] }
  else
    { s.rowLost words with
      maint := s.maint.finish 0, hardLeft := Sparse.set 2 (s.rowLost words).hardLeft s.maint.bankKey (s.hardSpares - 1) }

theorem exec_maintenanceOperationEnd {s : State} (hl : s.clk.lost = false) (hb : s.maint.busy = true) (iface : Bool)
    (words : List (Nat × Nat)) (out : W64) : exec (.maintenanceOperationEnd iface words out) s = .next (s.maintEnded iface words out) :=
  (live_of s _ hl).trans (congrArg _ (if_neg (by simp [hb])))

/-- What the loss of one of the row's words leaves alone, the loss of them all leaves alone. -/
theorem State.rowLost_keeps {α : Type} {view : State → α} {s : State} {words : List (Nat × Nat)}
    (h : ∀ (t : State) (w : Nat × Nat), w ∈ words → s.maint.covers w.1 = true → view { t with
      mem := putBytes t.mem (8 * w.1) ((List.range 8).map (Config.freeByte t.free w.1))
      ecc := Sparse.set 0 t.ecc w.1 (w.2 % 4), free := t.free + 1 } = view t) : view (s.rowLost words) = view s :=
  List.foldlRecOn (motive := fun t => view t = view s) _ _ rfl fun t ht w hw =>
    (h t w (List.mem_filter.1 hw).1 (List.mem_filter.1 hw).2).trans ht

theorem State.rowLost_softReps (s : State) (words : List (Nat × Nat)) : (s.rowLost words).softReps = s.softReps :=
  State.rowLost_keeps (view := State.softReps) fun _ _ _ _ => rfl

theorem State.rowLost_hardLeft (s : State) (words : List (Nat × Nat)) : (s.rowLost words).hardLeft = s.hardLeft :=
  State.rowLost_keeps (view := State.hardLeft) fun _ _ _ _ => rfl

/-- A byte outside the row's words in the addressed pseudo-channel stays (R383). -/
theorem State.byteAt_rowLost {s : State} {words : List (Nat × Nat)} {a : Nat}
    (h : ∀ w ∈ words, ¬ (s.maint.covers w.1 = true ∧ a / 8 = w.1)) : (s.rowLost words).byteAt a = s.byteAt a :=
  State.rowLost_keeps (view := fun t => t.byteAt a) fun t w hw hcov => by
    have hne : a / 8 ≠ w.1 := fun ha => h w hw ⟨hcov, ha⟩
    refine (get_putBytes ..).trans (if_neg ?_)
    rw [List.length_map, List.length_range]
    omega

section
variable (s : State) (iface : Bool) (words : List (Nat × Nat)) (out : W64)

/-- However it ends, the operation is over. -/
theorem State.maintEnded_over : (s.maintEnded iface words out).maint.busy = false ∧ (s.maintEnded iface words out).maint.done = true := by
  unfold State.maintEnded
  split_ifs <;> exact ⟨rfl, rfl⟩

theorem State.byteAt_maintEnded {a : Nat} (h : ∀ w ∈ words, ¬ (s.maint.covers w.1 = true ∧ a / 8 = w.1)) :
    (s.maintEnded iface words out).byteAt a = s.byteAt a := by
  have hrow := State.byteAt_rowLost h
  unfold State.maintEnded
  split_ifs
  · rfl
  · rfl
  · rfl
  · rfl
  · exact hrow
  · exact hrow

theorem State.maintEnded_of_iface : s.maintEnded true words out = { s with maint := s.maint.finish 3 } := rfl

variable {s}

theorem State.maintEnded_of_spares (h : s.maint.cmd = 3) :
    s.maintEnded false words out = { s with maint := { s.maint with remaining := min s.hardSpares 255 }.finish 0 } := if_pos h

theorem State.maintEnded_of_shift (h : s.maint.cmd = 4) :
    s.maintEnded false words out = { s with maint := { s.maint with data := out }.finish 0 } := by simp [State.maintEnded, h]

theorem State.maintEnded_of_noSpare (h : s.maint.cmd = 1 ∨ s.maint.cmd = 2) (hle : s.hardSpares ≤ s.softUsed) :
    s.maintEnded false words out = { s with maint := s.maint.finish 1 } := by
  obtain h | h := h <;> simp [State.maintEnded, h, hle]

theorem State.maintEnded_of_soft (h : s.maint.cmd = 1) (hlt : s.softUsed < s.hardSpares) :
    s.maintEnded false words out =
      { s.rowLost words with maint := s.maint.finish 0, softReps := (s.rowLost words).softReps ++ [(s.maint.bankKey, s.maint.row)] } := by
  simp [State.maintEnded, h, Nat.not_le.2 hlt]

theorem State.maintEnded_of_hard (h : s.maint.cmd = 2) (hlt : s.softUsed < s.hardSpares) :
    s.maintEnded false words out = { s.rowLost words with
      maint := s.maint.finish 0, hardLeft := Sparse.set 2 (s.rowLost words).hardLeft s.maint.bankKey (s.hardSpares - 1) } := by
  simp [State.maintEnded, h, Nat.not_le.2 hlt]

end

/-- Settles O40: a GO of each command leaves the window that `Maint.go` says, and the end of the operation the state of its case. -/
theorem maintenanceOperations : Obligations.MaintenanceOperations := by
  refine ⟨fun e he value s ha hd hb hgo hcmd => ?start, fun iface words out s hl hb => ?finish⟩
  case start =>
    obtain ⟨hexec, h0, h4⟩ := exec_maintenance he (State.lost_of_regAlive ha) value
    rw [State.maintGo_of_idle ha hd hb hgo hcmd h0 h4] at hexec
    refine ⟨_, hexec, rfl, Maint.go_cmd .., Maint.go_stack .., fun hq => ?_, fun hq hfit => ?_, fun hq hlt hpc => ?_⟩
    · rw [Maint.go_of_unquiesced _ _ hq]
      exact ⟨rfl, rfl, rfl⟩
    · rw [Maint.go_of_fitting _ hq hfit]
      exact ⟨rfl, rfl⟩
    · rw [Maint.go_of_badArgument _ hq hlt hpc]
      exact ⟨rfl, rfl, rfl⟩
  case finish =>
    obtain ⟨hbusy, hdone⟩ := s.maintEnded_over iface words out
    refine ⟨_, exec_maintenanceOperationEnd hl hb iface words out, hbusy, hdone, ?_, ?_, ?_, ?_, ?_, ?_,
      fun a => s.byteAt_maintEnded iface words out⟩ <;> rintro rfl
    · rw [State.maintEnded_of_iface]
      exact ⟨rfl, fun _ => rfl⟩
    · intro hc
      rw [State.maintEnded_of_spares words out hc]
      exact ⟨rfl, rfl⟩
    · intro hc
      rw [State.maintEnded_of_shift words out hc]
      exact ⟨rfl, rfl⟩
    · intro hc hle
      rw [State.maintEnded_of_noSpare words out hc hle]
      exact ⟨rfl, fun _ => rfl⟩
    · intro hc hlt
      rw [State.maintEnded_of_soft words out hc hlt, State.rowLost_softReps]
      exact ⟨rfl, rfl, s.rowLost_hardLeft words⟩
    · intro hc hlt
      rw [State.maintEnded_of_hard words out hc hlt]
      exact ⟨rfl, s.rowLost_softReps words, Sparse.get_set_self ..⟩

end Sys2Proof.Machine
end

section
/-! PROOFS. Reads and writes by a party outside the compute plane (12 R371, R376, R379; 07 R209): what they find stands in the memory units, the
check bits, the scratchpads' error registers and in records, and the rest of the device does not change. -/

namespace Sys2Proof.Machine

/-! ### What reads and writes leave alone -/

/-- The state without what records change, and without the memories, their units and the cores. -/
def State.unaccessed (s : State) : State :=
  { s.unrecorded with mem := [], ecc := [], bytePar := [], memUnits := [], seqs := [], cores := [] }

/-- t is s after reads, events and completed commands: no byte has changed, none is marked that was not, none is clean that was marked, the
Bulk tank is as large as it was and the semaphores stand. -/
structure State.OnlyNoted (s t : State) : Prop where
  device : t.unaccessed = s.unaccessed
  mem : t.mem = s.mem
  bytePar : t.bytePar = s.bytePar
  marked : ∀ w, 2 ≤ Sparse.get 0 t.ecc w ↔ 2 ≤ Sparse.get 0 s.ecc w
  ready : t.bt.ready = s.bt.ready
  cap : t.bt.cap = s.bt.cap
  sems : ∀ c, (t.core c).sems = (s.core c).sems

namespace State.OnlyNoted

variable {s t u : State}

theorem refl (s : State) : OnlyNoted s s := ⟨rfl, rfl, rfl, fun _ => .rfl, rfl, rfl, fun _ => rfl⟩

theorem trans (h : OnlyNoted s t) (h' : OnlyNoted t u) : OnlyNoted s u :=
  ⟨h'.device.trans h.device, h'.mem.trans h.mem, h'.bytePar.trans h.bytePar, fun w => (h'.marked w).trans (h.marked w),
    h'.ready.trans h.ready, h'.cap.trans h.cap, fun c => (h'.sems c).trans (h.sems c)⟩

theorem foldl {α : Type} {f : State → α → State} (hf : ∀ s x, OnlyNoted s (f s x)) (l : List α) (s : State) : OnlyNoted s (l.foldl f s) :=
  List.foldlRecOn (motive := OnlyNoted s) l f (refl s) fun t ht x _ => ht.trans (hf t x)

/-- Where at most records and their sources' numbers differ. -/
theorem of_unrecorded {q : Sparse Nat} (h : t.unrecorded = { s.unrecorded with seqs := q }) : OnlyNoted s t where
  device := congrArg (fun u : State => { u with mem := [], ecc := [], bytePar := [], memUnits := [], seqs := [], cores := [] }) h
  mem := (congrArg State.mem h :)
  bytePar := (congrArg State.bytePar h :)
  marked w := by
    have hecc : t.ecc = s.ecc := (congrArg State.ecc h :)
    rw [hecc]
  ready := (congrArg (fun u : State => u.bt.ready) h :)
  cap := (congrArg (fun u : State => u.bt.cap) h :)
  sems c := (congrArg (fun u : State => (u.core c).sems) h :)

theorem complete (s : State) (id : Nat) (found : List Nat) (detail : List Byte) : OnlyNoted s (s.complete id found detail) :=
  of_unrecorded (q := s.seqs) (s.complete_unrecorded id found detail)

theorem memEvent (s : State) (v status a : Nat) : OnlyNoted s (s.memEvent v status a) := by
  simp only [State.memEvent, State.postEvent]
  split
  next h => exact of_unrecorded (State.post_unrecorded h :)
  next => exact of_unrecorded rfl

theorem setUnit (v : Nat) {m : MemUnit} (hr : m.ready = (s.unit v).ready) (hc : m.cap = (s.unit v).cap) : OnlyNoted s (s.setUnit v m) where
  device := rfl
  mem := rfl
  bytePar := rfl
  marked _ := .rfl
  ready := by
    refine (congrArg MemUnit.ready (s.unit_setUnit v m 8)).trans ?_
    split
    next h => rw [hr, ← h]; rfl
    next => rfl
  cap := by
    refine (congrArg MemUnit.cap (s.unit_setUnit v m 8)).trans ?_
    split
    next h => rw [hc, ← h]; rfl
    next => rfl
  sems _ := rfl

/-- A corrected word was not marked. -/
theorem corrected {w : Nat} (h : Sparse.get 0 s.ecc w = 1) : OnlyNoted s { s with ecc := Sparse.set 0 s.ecc w 0 } where
  device := rfl
  mem := rfl
  bytePar := rfl
  marked j := by
    rw [Sparse.get_set]
    split
    next hj => rw [hj, h]; decide
    next => exact .rfl
  ready := rfl
  cap := rfl
  sems _ := rfl

theorem setCore (c : Nat) {k : Core} (h : k.sems = (s.core c).sems) : OnlyNoted s (s.setCore c k) where
  device := rfl
  mem := rfl
  bytePar := rfl
  marked _ := .rfl
  ready := rfl
  cap := rfl
  sems j := congrArg (fun g : State.Signals => g.sems j) (s.setCore_signals c h)

end State.OnlyNoted

/-! ### The units' counters and first errors -/

theorem MemUnit.first_limits (m : MemUnit) (now kind a : Nat) : (m.first now kind a).ready = m.ready ∧ (m.first now kind a).cap = m.cap := by
  unfold MemUnit.first
  split
  · exact ⟨rfl, rfl⟩
  · split <;> exact ⟨rfl, rfl⟩

theorem State.OnlyNoted.bump (s : State) (v c k : Nat) : s.OnlyNoted (s.setUnit v ((s.unit v).bump c k)) := .setUnit v rfl rfl

theorem State.OnlyNoted.bumpFirst (s : State) (v c k kind a : Nat) :
    s.OnlyNoted (s.setUnit v (((s.unit v).bump c k).first s.epoch kind a)) :=
  .setUnit v (MemUnit.first_limits ..).1 (MemUnit.first_limits ..).2

/-! ### Reads -/

theorem State.wordRead_onlyNoted (s : State) (w : Nat) : s.OnlyNoted (s.wordRead w) := by
  simp only [State.wordRead]
  split
  next => exact .refl s
  next h =>
    have hunit := OnlyNoted.bumpFirst s (unitOf (8 * w)) 0 1 0 (8 * w)
    split
    · exact hunit.trans (.corrected h)
    · exact hunit
  next => exact (OnlyNoted.bumpFirst s _ 1 1 1 (8 * w)).trans (.memEvent ..)
  next => exact .bump s ..

theorem State.noteRead_onlyNoted (s : State) (a n : Nat) : s.OnlyNoted (s.noteRead a n) := by
  simp only [State.noteRead]
  split
  · exact (OnlyNoted.foldl State.wordRead_onlyNoted _ s).trans (.bump ..)
  · split
    · refine .setCore _ ?_
      rw [spadCheck_fetchErrs]
    · exact .refl s

/-! ### What a read leaves of the checks before it (R214, R371, R559) -/

section
variable {s t : State} (h : s.OnlyNoted t)
include h

theorem State.OnlyNoted.anyBad (a n : Nat) : t.anyBad a n = s.anyBad a n := by
  have hbad (b : Nat) : t.byteBad b = s.byteBad b := by simp only [State.byteBad, h.bytePar, h.marked]
  simp only [State.anyBad, hbad]

theorem State.OnlyNoted.rangeOkDev (dst : Bool) (lo hi : Nat) : t.rangeOkDev dst lo hi = s.rangeOkDev dst lo hi := by
  have hfuse : t.fuse = s.fuse := (congrArg State.fuse h.device :)
  have hpwin : t.pwin = s.pwin := (congrArg State.pwin h.device :)
  have hself : t.grbSelf = s.grbSelf := (congrArg State.grbSelf h.device :)
  simp only [State.rangeOkDev, State.span, h.ready, h.cap, hfuse, hpwin, hself]

end

/-! ### Writes -/

theorem State.wordPoisoned_onlyNoted (s : State) (w : Nat) : s.OnlyNoted (s.wordPoisoned w) :=
  (OnlyNoted.bumpFirst s _ 2 1 2 (8 * w)).trans (.memEvent ..)

/-- A write stores its bytes, and notes what it has found. -/
theorem State.noteWrite_onlyNoted (s : State) (a : Nat) (bs : List MByte) : (s.storeBytes a bs).OnlyNoted (s.noteWrite a bs) := by
  simp only [State.noteWrite]
  split
  · exact (OnlyNoted.foldl State.wordPoisoned_onlyNoted _ _).trans (.bump ..)
  · exact .refl _

end Sys2Proof.Machine
end

section
/-! PROOFS. Decode jobs (13 R386 to R391, R402 to R411): what every part of a job leaves alone, and which state its assignment, its clips'
signals and its completion leave. -/

namespace Sys2Proof.Machine

/-! ### A step of a job -/

/-- t is s after steps of engine e's job, whose staging ring is bytes lo to hi - 1: its number stands, and so do the queue, the other
engines and every byte outside the ring. -/
structure State.JobStep (e lo hi : Nat) (s t : State) : Prop where
  queue : t.ingestQ = s.ingestQ
  job : (t.engine e).cmd = (s.engine e).cmd
  others : ∀ f, f ≠ e → t.engine f = s.engine f
  bytes : ∀ x, x < lo ∨ hi ≤ x → t.byteAt x = s.byteAt x

namespace State.JobStep

variable {e lo hi : Nat} {s t u : State}

theorem trans (h : JobStep e lo hi s t) (h' : JobStep e lo hi t u) : JobStep e lo hi s u :=
  ⟨h'.queue.trans h.queue, h'.job.trans h.job, fun f hf => (h'.others f hf).trans (h.others f hf),
    fun x hx => (h'.bytes x hx).trans (h.bytes x hx)⟩

theorem of_same (hq : t.ingestQ = s.ingestQ) (he : t.engines = s.engines) (hm : t.mem = s.mem) : JobStep e lo hi s t :=
  have heng (f : Nat) : t.engine f = s.engine f := congrArg (Sparse.get ({} : Ingest) · f) he
  ⟨hq, congrArg Ingest.cmd (heng e), fun f _ => heng f, fun x _ => State.byteAt_congr hm x⟩

theorem refl (s : State) : JobStep e lo hi s s := of_same rfl rfl rfl

theorem foldl {α : Type} {f : State → α → State} (hf : ∀ s x, JobStep e lo hi s (f s x)) (l : List α) (s : State) :
    JobStep e lo hi s (l.foldl f s) :=
  List.foldlRecOn (motive := JobStep e lo hi s) l f (refl s) fun t ht x _ => ht.trans (hf t x)

/-- The engine's own record changes, but for the job's number. -/
theorem of_engine {g : Ingest} (hq : t.ingestQ = s.ingestQ) (hm : t.mem = s.mem) (he : t.engines = Sparse.set {} s.engines e g)
    (hg : g.cmd = (s.engine e).cmd) : JobStep e lo hi s t := by
  have heng (f : Nat) : t.engine f = if f = e then g else s.engine f :=
    (congrArg (Sparse.get ({} : Ingest) · f) he).trans (Sparse.get_set ..)
  refine ⟨hq, ?_, fun f hf => ?_, fun x _ => State.byteAt_congr hm x⟩
  · rw [heng, if_pos rfl, hg]
  · rw [heng, if_neg hf]

theorem setEngine {g : Ingest} (hg : g.cmd = (s.engine e).cmd) : JobStep e lo hi s (s.setEngine e g) := of_engine rfl rfl rfl hg

theorem of_onlyNoted (h : s.OnlyNoted t) : JobStep e lo hi s t :=
  of_same (congrArg State.ingestQ h.device :) (congrArg State.engines h.device :) h.mem

/-- A write inside the ring. -/
theorem noteWrite (s : State) {a : Nat} {bs : List MByte} (hlo : lo ≤ a) (hhi : a + bs.length ≤ hi) : JobStep e lo hi s (s.noteWrite a bs) := by
  have hstore : JobStep e lo hi s (s.storeBytes a bs) := by
    refine ⟨rfl, rfl, fun _ _ => rfl, fun x hx => ?_⟩
    rw [State.byteAt_storeBytes, if_neg (by omega)]
  exact hstore.trans (of_onlyNoted (s.noteWrite_onlyNoted a bs))

theorem writeClip (s : State) (p : Profile) (codec : Nat) (d : Desc) (filt : List Byte) (c pic : Nat) (frames : List OutPic) :
    JobStep e lo hi s (s.writeClip e p codec d filt c pic frames) := of_engine rfl rfl rfl rfl

theorem dropClip (s : State) : JobStep e lo hi s (s.dropClip e) := of_engine rfl rfl rfl rfl

theorem runClips (p : Profile) (codec : Nat) (d : Desc) (filt : List Byte) (pics : List OutPic) (n c : Nat) (s : State) :
    JobStep e lo hi s (runClips p codec d filt e pics n c s).1 := by
  induction n generalizing c s with
  | zero => exact refl s
  | succ n ih =>
    unfold Machine.runClips
    extract_lets first frames s1
    have h1 : JobStep e lo hi s s1 := by
      simp only [s1]
      split
      · exact writeClip ..
      · exact dropClip s
    split
    · exact h1
    · exact h1.trans (ih ..)

theorem passThrough (s : State) (p : Profile) (pkts : List (List Byte)) : JobStep e lo hi s (s.passThrough e p pkts) :=
  of_engine rfl rfl rfl rfl

/-- A whole job is steps of the job, where the staging of its input is. -/
theorem runIngest {p : Profile} (hstaged : ∀ (t : State) (bs : List MByte), JobStep e lo hi t (t.staged p e bs)) (s : State) (d : Desc)
    (filt : List Byte) (par : Option Nat) (cut : Cut) : JobStep e lo hi s (s.runIngest e p d filt par cut) := by
  unfold State.runIngest
  extract_lets a n all good poisoned pkts units codec dec pics span whole stop copied r g partly failed s1 s2 found early seen
  have hcopied (t : State) (k : Nat) : JobStep e lo hi t (copied t k) := (of_onlyNoted (t.noteRead_onlyNoted a k)).trans (hstaged ..)
  have hr : JobStep e lo hi s r.1 := runClips ..
  have h1 : JobStep e lo hi s s1 := by
    simp only [s1]
    split
    · exact hr.trans (dropClip _)
    · exact hr
  have h2 : JobStep e lo hi s s2 := by
    simp only [s2]
    split
    · exact h1.trans (of_same rfl rfl rfl)
    · split
      · exact h1.trans (of_same rfl rfl rfl)
      · exact h1
  split
  · exact ((hr.trans (hcopied ..)).trans (passThrough ..)).trans (setEngine rfl)
  · exact ((h2.trans (hcopied ..)).trans (passThrough ..)).trans (setEngine rfl)

end State.JobStep

/-! ### The staging ring (R387, R388) -/

/-- An accepted profile's ring is a multiple of 4,096 bytes, and not empty. -/
theorem stageBytes_of_fieldsOk {b : List Byte} (h : profileFieldsOk b = true) :
    (profileOf b).stageBytes % 4096 = 0 ∧ 0 < (profileOf b).stageBytes := by
  simp only [profileFieldsOk, Bool.and_eq_true, beq_iff_eq, decide_eq_true_eq] at h
  obtain ⟨⟨⟨⟨⟨⟨⟨_, hmod⟩, hlow⟩, _⟩, _⟩, _⟩, _⟩, _⟩ := h
  exact ⟨hmod, by omega⟩

section
variable {p : Profile} (hmod : p.stageBytes % 4096 = 0) (hpos : 0 < p.stageBytes)
include hmod hpos

/-- 32 bytes from a place of the ring that is a multiple of 32 lie in the ring. -/
theorem stagePlace_mem_ring (e k i : Nat) :
    p.stage + e * p.stageBytes ≤ stagePlace p e (k * 32) (32 * i) ∧
      stagePlace p e (k * 32) (32 * i) + 32 ≤ p.stage + (e + 1) * p.stageBytes := by
  have hlt := Nat.mod_lt (k * 32 + 32 * i) hpos
  have hdvd : 32 ∣ (k * 32 + 32 * i) % p.stageBytes := by
    rw [Nat.dvd_mod_iff (by omega)]
    omega
  have hsucc : (e + 1) * p.stageBytes = e * p.stageBytes + p.stageBytes := Nat.succ_mul ..
  rw [stagePlace, hsucc]
  omega

theorem State.JobStep.staged (s : State) (e : Nat) (bs : List MByte) :
    State.JobStep e (p.stage + e * p.stageBytes) (p.stage + (e + 1) * p.stageBytes) s (s.staged p e bs) := by
  refine foldl (fun t i => ?_) _ s
  obtain ⟨hlo, hhi⟩ := stagePlace_mem_ring hmod hpos e ((Config.freeBits s.free 387).toNat % (p.stageBytes / 32)) i
  have hlen : ((bs.drop (32 * i)).take 32).length ≤ 32 := List.length_take_le ..
  exact (noteWrite t hlo (by omega)).trans (of_onlyNoted (State.noteRead_onlyNoted ..))

end

/-! ### The assignment (R386 to R389) -/

/-- The state once the queue's head has been taken from it. -/
def State.dequeued (s : State) (rest : List Nat) : State := { s with ingestQ := rest, noProgress := 0 }

@[simp] theorem State.anyBad_dequeued (s : State) (rest : List Nat) (a n : Nat) : (s.dequeued rest).anyBad a n = s.anyBad a n := rfl

@[simp] theorem State.bytesAt_dequeued (s : State) (rest : List Nat) (a n : Nat) : (s.dequeued rest).bytesAt a n = s.bytesAt a n := rfl

@[simp] theorem State.cvReady_dequeued (s : State) (rest : List Nat) (p : Profile) : (s.dequeued rest).cvReady p = s.cvReady p := rfl

@[simp] theorem State.ingestRangesOk_dequeued (s : State) (rest : List Nat) (p : Profile) (d : Desc) (e : Nat) :
    (s.dequeued rest).ingestRangesOk p d e = s.ingestRangesOk p d e := rfl

theorem State.OnlyNoted.ingestRangesOk {s t : State} (h : s.OnlyNoted t) (p : Profile) (d : Desc) (e : Nat) :
    t.ingestRangesOk p d e = s.ingestRangesOk p d e := by
  simp only [State.ingestRangesOk, h.rangeOkDev]

theorem State.OnlyNoted.cvReady {s t : State} (h : s.OnlyNoted t) (p : Profile) : t.cvReady p = s.cvReady p := by
  have hclk : t.clk = s.clk := (congrArg State.clk h.device :)
  have hcvs : t.cvs = s.cvs := (congrArg State.cvs h.device :)
  simp only [State.cvReady, State.cvOn, State.cv, hclk, hcvs]

/-- The job of descriptor d is accepted on engine e: its profile p and its filter block arrive clean, nothing that it reads waits, and every
field and range is in order (R388, R389). -/
structure State.AcceptsJob (s : State) (p : Profile) (d : Desc) (e : Nat) : Prop where
  profile : profileOf (s.bytesAt (fieldAt d 32 8) 256) = p
  waits : s.ingestWaits d e = false
  inRange : s.rangeOkDev false (fieldAt d 32 8) (fieldAt d 32 8 + 255) = true
  clean : s.anyBad (fieldAt d 32 8) 256 = false
  fields : profileFieldsOk (s.bytesAt (fieldAt d 32 8) 256) = true
  ranges : s.ingestRangesOk p d e = true
  slot : p.clipBytes ≤ p.slot
  cv : s.cvReady p = true
  filter : s.anyBad p.filter 3072 = false

section
variable {par : Option Nat} {cut : Cut} {s : State} {id e : Nat} {rest : List Nat} {c : Cmd} (hl : s.clk.lost = false)
  (hq : s.ingestQ = id :: rest) (he : s.freeEngine = some e) (hc : s.cmd id = some c)
include hl hq he hc

theorem exec_ingestJobAssign_of_waits (hw : s.ingestWaits c.desc e = true) : exec (.ingestJobAssign par cut) s = .next s := by
  refine (live_of s _ hl).trans (congrArg _ ?_)
  simp only [hq, he, hc]
  exact if_pos hw

theorem exec_ingestJobAssign_of_outside (hw : s.ingestWaits c.desc e = false)
    (hr : s.rangeOkDev false (fieldAt c.desc 32 8) (fieldAt c.desc 32 8 + 255) = false) :
    exec (.ingestJobAssign par cut) s = .next ((s.dequeued rest).complete id [0x40] (({} : Ingest).detail e)) := by
  refine (live_of s _ hl).trans (congrArg _ ?_)
  simp only [hq, he, hc]
  rw [if_neg (by simp [hw]), if_pos (by simp [hr])]
  rfl

/-- An accepted job runs on its engine from the state in which its profile and its filter block have been read. -/
theorem exec_ingestJobAssign_of_accepted {p : Profile} (h : s.AcceptsJob p c.desc e) :
    ∃ t filt, (s.dequeued rest).OnlyNoted t ∧ exec (.ingestJobAssign par cut) s =
      .next { (t.setEngine e { cmd := id, sem := p.sem, cv := p.cv }).runIngest e p c.desc filt par cut with free := s.free + 1 } := by
  have h1 := (s.dequeued rest).noteRead_onlyNoted (fieldAt c.desc 32 8) 256
  refine ⟨_, ((s.dequeued rest).noteRead (fieldAt c.desc 32 8) 256).bytesAt p.filter 3072,
    h1.trans (State.noteRead_onlyNoted _ p.filter 3072), (live_of s _ hl).trans (congrArg _ ?_)⟩
  simp only [hq, he, hc]
  rw [if_neg (by simp [h.waits]), if_neg (by simp [h.inRange])]
  simp only [State.readStruct, ← State.dequeued.eq_def, State.bytesAt_dequeued, State.anyBad_dequeued, State.ingestRangesOk_dequeued,
    State.cvReady_dequeued, h1.ingestRangesOk, h1.cvReady, h1.anyBad, h.profile, h.clean, h.fields, h.ranges, h.slot, h.cv, h.filter,
    decide_true, Bool.and_self, Bool.not_true, Bool.false_eq_true, if_false]

/-- An accepted job holds its engine, and what it writes at once lies in that engine's staging ring. -/
theorem ingestJobAssign_of_accepted {p : Profile} (h : s.AcceptsJob p c.desc e) :
    ∃ t, exec (.ingestJobAssign par cut) s = .next t ∧ t.ingestQ = rest ∧ (t.engine e).cmd = id ∧
      (∀ f, f ≠ e → t.engine f = s.engine f) ∧
      ∀ x, (x < p.stage + e * p.stageBytes ∨ p.stage + (e + 1) * p.stageBytes ≤ x) → t.byteAt x = s.byteAt x := by
  obtain ⟨t, filt, hnoted, hexec⟩ := exec_ingestJobAssign_of_accepted (par := par) (cut := cut) hl hq he hc h
  obtain ⟨hmod, hpos⟩ := stageBytes_of_fieldsOk h.fields
  rw [h.profile] at hmod hpos
  have hrun := State.JobStep.runIngest (fun t => .staged hmod hpos t e) (t.setEngine e { cmd := id, sem := p.sem, cv := p.cv }) c.desc
    filt par cut
  have heng (f : Nat) : t.engine f = s.engine f := (congrArg (fun u : State => u.engine f) hnoted.device :)
  refine ⟨_, hexec, hrun.queue.trans (congrArg State.ingestQ hnoted.device :), hrun.job.trans ?_, fun f hf => (hrun.others f hf).trans ?_,
    fun x hx => (hrun.bytes x hx).trans (State.byteAt_congr hnoted.mem x)⟩
  · rw [State.engine_setEngine, if_pos rfl]
  · rw [State.engine_setEngine, if_neg hf, heng]

end

/-! ### Clips and the end of a job (R407, R408) -/

/-- The signal of a clip adds 1 to the job's device-global semaphore, if it names one. -/
def State.clipAdd (s : State) : Option Nat → State
  | some i => (s.gsemChange i 1).waitsMet
  | none => s

theorem State.clipAdd_mem (s : State) (o : Option Nat) : (s.clipAdd o).mem = s.mem := by
  cases o with
  | none => rfl
  | some i => exact (s.gsemChange_waitsMet_spec i 1).1

theorem State.clipAdd_engines (s : State) (o : Option Nat) : (s.clipAdd o).engines = s.engines := by
  cases o with
  | none => rfl
  | some i =>
    have hwaits : (s.gsemChange i 1).waitsMet.engines = (s.gsemChange i 1).engines :=
      (congrArg State.engines (s.gsemChange i 1).waitsMet_unrecorded :)
    exact hwaits.trans (congrArg State.engines (s.gsemChange_eq i 1) :)

theorem State.get_gsems_clipAdd {s : State} {i : Nat} (h : netOf s.gsemNet i = none) :
    Sparse.get 0 (s.clipAdd (some i)).gsems i = min (Sparse.get 0 s.gsems i + 1) (2 ^ 32 - 1) := by
  refine (congrArg (Sparse.get 0 · i) (s.gsemChange_waitsMet_spec i 1).2.2).trans ?_
  exact (State.get_gsems_gsemChange h one_ne_zero i).trans (if_pos rfl)

section
variable {s : State} {e k : Nat} {rest : List (Nat × Nat)} (hl : s.clk.lost = false) (hc : (s.engine e).clips = (k, 0) :: rest)
include hl hc

theorem exec_clipSignal_of_recent (ht : s.epoch ≤ (s.engine e).doneAt) : exec (.clipSignal e) s = .next s := by
  refine (live_of s _ hl).trans (congrArg _ ?_)
  simp only [hc]
  exact if_pos (by simp [ht])

theorem exec_clipSignal_of_due (ht : (s.engine e).doneAt < s.epoch) (hs : (s.engine e).sem = none ∨ s.semStopped 255 = false) :
    exec (.clipSignal e) s = .next ((s.setEngine e { s.engine e with clips := rest }).clipAdd (s.engine e).sem) := by
  refine (live_of s _ hl).trans (congrArg _ ?_)
  simp only [hc]
  rw [if_neg (by obtain hs | hs := hs <;> simp [ht, hs])]
  cases (s.engine e).sem <;> rfl

end

theorem exec_ingestJobComplete {s : State} (hl : s.clk.lost = false) (e : Nat) : exec (.ingestJobComplete e) s =
    .next (if (s.engine e).cmd ≠ 0 ∧ (s.engine e).clips = [] ∧ (s.engine e).auxOut = 0 then
      (s.setEngine e {}).complete (s.engine e).cmd (s.engine e).found ((s.engine e).detail e) else s) := live_of s _ hl

end Sys2Proof.Machine
end

section
/-! PROOFS. The Stirrer's credits and batches (13 R414, R415; 07 R210) and the host's check values (13 R419, R420, R423). -/

namespace Sys2Proof.Machine

/-! ### Credits (R414) -/

/-- The first subtraction from a semaphore in its period takes one from a value above 0. -/
theorem Core.get_sems_semChange_neg_one {k : Core} {idx : Nat} (h : netOf k.semNet idx = none) (hpos : 0 < Sparse.get 0 k.sems idx)
    (hlt : Sparse.get 0 k.sems idx < 2 ^ 32) : Sparse.get 0 (k.semChange idx (-1)).sems idx = Sparse.get 0 k.sems idx - 1 := by
  have hval := k.coe_get_sems_semChange idx (d := -1) (by decide)
  rw [netBase_of_none h] at hval
  omega

/-- Transfers put at the end of a queue wait there in their order, and the core's semaphores stand. -/
theorem Core.foldl_offer_spec (k : Core) (q : Nat) (ts : List Transfer) :
    (ts.foldl (fun k x => k.offer q x) k).sems = k.sems ∧
      (Sparse.get {} (ts.foldl (fun k x => k.offer q x) k).ladle q).waiting = (Sparse.get {} k.ladle q).waiting ++ ts := by
  induction ts generalizing k with
  | nil => exact ⟨rfl, (List.append_nil _).symm⟩
  | cons x ts ih =>
    obtain ⟨hsems, hwaiting⟩ := ih (k.offer q x)
    refine ⟨hsems, hwaiting.trans ?_⟩
    rw [Core.waiting_offer, List.append_assoc, List.singleton_append]

/-- The epoch command with n samples more in a batch under way. -/
def Epoch.credited (e : Epoch) (n : Nat) : Epoch :=
  { e with emitted := e.emitted + n, credits := e.credits + 1, left := e.left ++ [(e.credits, n)] }

/-- The Stirrer meets a parity error in command cmd, or none: it is recorded, and the epoch goes on (CRM_ERR, log 49). -/
def State.stirrerMet (s : State) (par : Bool) (cmd : Nat) : State :=
  if par then { s with crmErr := setBit s.crmErr 2 }.modCmd cmd (fun x => { x with found := x.found ++ [5] }) else s

theorem State.stirrerMet_eq (s : State) (par : Bool) (cmd : Nat) :
    s.stirrerMet par cmd = { s with crmErr := (s.stirrerMet par cmd).crmErr, cmds := (s.stirrerMet par cmd).cmds } := by
  unfold State.stirrerMet
  split <;> rfl

/-- The state in which a batch of n transfers for core c has taken its credit from semaphore free. -/
def State.creditTaken (s : State) (par : Bool) (e : Epoch) (n c free : Nat) : State :=
  { (s.csemChange c free (-1)).stirrerMet par e.cmd with epochCmd := some (e.credited n), noProgress := 0 }

section
variable (s : State) (par : Bool) (e : Epoch) (n c free : Nat)

theorem State.core_creditTaken (j : Nat) :
    (s.creditTaken par e n c free).core j = if j = c then (s.core c).semChange free (-1) else s.core j := by
  have hcores : ((s.csemChange c free (-1)).stirrerMet par e.cmd).cores = (s.csemChange c free (-1)).cores :=
    (congrArg State.cores ((s.csemChange c free (-1)).stirrerMet_eq par e.cmd) :)
  exact (congrArg (Sparse.get ({} : Core) · j) hcores).trans (s.core_setCore c _ j)

theorem State.creditTaken_mem : (s.creditTaken par e n c free).mem = s.mem :=
  (congrArg State.mem ((s.csemChange c free (-1)).stirrerMet_eq par e.cmd) :)

theorem State.queueOwner_creditTaken (q : Nat) : (s.creditTaken par e n c free).queueOwner c q = s.queueOwner c q := by
  have hfuse : (s.creditTaken par e n c free).fuse = s.fuse :=
    (congrArg State.fuse ((s.csemChange c free (-1)).stirrerMet_eq par e.cmd) :)
  rw [State.queueOwner, hfuse, State.core_creditTaken, if_pos rfl, Core.ladle_semChange]
  rfl

end

/-- The target of an epoch's batch b: its core, its queue, its full and its free semaphore, its base address. -/
def Epoch.target (e : Epoch) (b : Nat) : Nat × Nat × Nat × Nat × Nat := e.targets.getD (b % e.plan.nt) (0, 0, 0, 0, 0)

section
variable {par : Bool} {s : State} {e : Epoch} {c : Cmd} (hl : s.clk.lost = false) (he : s.epochCmd = some e) (hc : s.cmd e.cmd = some c)
include hl he hc

theorem exec_stirrerCredit_of_none (h : Sparse.get 0 (s.core (e.target e.credits).1).sems (e.target e.credits).2.2.2.1 = 0 ∨
    fieldAt c.desc 32 4 ≤ e.emitted ∨ s.semStopped (e.target e.credits).1 = true) : exec (.stirrerCredit par) s = .next s := by
  refine (live_of s _ hl).trans (congrArg _ ?_)
  simp only [he, hc]
  refine if_pos ?_
  obtain h | h | h := h
  · exact .inr (.inl h)
  · exact .inl h
  · exact .inr (.inr h)

/-- A credit on a queue that the Stirrer owns: the batch's transfers wait there. -/
theorem exec_stirrerCredit_of_free (hfree : Sparse.get 0 (s.core (e.target e.credits).1).sems (e.target e.credits).2.2.2.1 ≠ 0)
    (hstop : s.semStopped (e.target e.credits).1 = false) (hleft : e.emitted < fieldAt c.desc 32 4)
    (hown : s.queueOwner (e.target e.credits).1 (e.target e.credits).2.1 = 2) :
    let t := e.target e.credits
    let n := min e.plan.per (fieldAt c.desc 32 4 - e.emitted)
    let s1 := s.creditTaken par e n t.1 t.2.2.2.1
    exec (.stirrerCredit par) s = .next (s1.setCore t.1 (((List.range n).map (fun w => e.transfer c.desc (e.emitted + w))).foldl
      (fun k x => k.offer t.2.1 x) (s1.core t.1))) := by
  intro t n s1
  refine (live_of s _ hl).trans (congrArg _ ?_)
  simp only [he, hc]
  refine (if_neg ?_).trans (if_pos ?_)
  · rintro (h | h | h)
    · omega
    · exact hfree h
    · exact absurd h (ne_true_of_eq_false hstop)
  · exact (s.queueOwner_creditTaken par e n t.1 t.2.2.2.1 t.2.1).trans hown

/-- The credit is taken, the batch is under way, and no other core and no byte changes. -/
theorem stirrerCredit_of_free (hpos : 0 < Sparse.get 0 (s.core (e.target e.credits).1).sems (e.target e.credits).2.2.2.1)
    (hlt : Sparse.get 0 (s.core (e.target e.credits).1).sems (e.target e.credits).2.2.2.1 < 2 ^ 32)
    (hstop : s.semStopped (e.target e.credits).1 = false)
    (hnet : netOf (s.core (e.target e.credits).1).semNet (e.target e.credits).2.2.2.1 = none)
    (hleft : e.emitted < fieldAt c.desc 32 4) (hown : s.queueOwner (e.target e.credits).1 (e.target e.credits).2.1 = 2) :
    let t := e.target e.credits
    let n := min e.plan.per (fieldAt c.desc 32 4 - e.emitted)
    ∃ u, exec (.stirrerCredit par) s = .next u ∧
      Sparse.get 0 (u.core t.1).sems t.2.2.2.1 = Sparse.get 0 (s.core t.1).sems t.2.2.2.1 - 1 ∧ u.epochCmd = some (e.credited n) ∧
      (Sparse.get {} (u.core t.1).ladle t.2.1).waiting =
        (Sparse.get {} (s.core t.1).ladle t.2.1).waiting ++ (List.range n).map (fun w => e.transfer c.desc (e.emitted + w)) ∧
      (∀ x, x ≠ t.1 → u.core x = s.core x) ∧ ∀ a, u.byteAt a = s.byteAt a := by
  intro t n
  have hcore (x : Nat) := s.core_creditTaken par e n t.1 t.2.2.2.1 x
  obtain ⟨hsems, hwaiting⟩ := Core.foldl_offer_spec ((s.core t.1).semChange t.2.2.2.1 (-1)) t.2.1
    ((List.range n).map (fun w => e.transfer c.desc (e.emitted + w)))
  refine ⟨_, exec_stirrerCredit_of_free hl he hc hpos.ne' hstop hleft hown, ?_, rfl, ?_, fun x hx => ?_,
    State.byteAt_congr (s.creditTaken_mem par e n ..)⟩
  · rw [State.core_setCore, if_pos rfl, hcore, if_pos rfl, hsems]
    exact Core.get_sems_semChange_neg_one hnet hpos hlt
  · rw [State.core_setCore, if_pos rfl, hcore, if_pos rfl, hwaiting, Core.ladle_semChange]
  · rw [State.core_setCore, if_neg hx, hcore, if_neg hx]

end

/-! ### Full batches (R415, R413) -/

theorem State.readStruct_onlyNoted (s : State) (a n : Nat) : s.OnlyNoted (s.readStruct a n).2.2 := s.noteRead_onlyNoted a n

theorem State.stirStart_onlyNoted (s : State) (id : Nat) (d : Desc) : s.OnlyNoted (s.stirStart id d).1 := by
  unfold State.stirStart
  extract_lets a b p t m
  have hplan : s.OnlyNoted b.2.2 := s.readStruct_onlyNoted ..
  have htables : s.OnlyNoted m.2.2 := (hplan.trans (b.2.2.readStruct_onlyNoted ..)).trans (t.2.2.readStruct_onlyNoted ..)
  clear_value m t b
  split
  · exact .refl s
  · split
    · exact hplan
    · split
      · exact hplan
      · split
        · exact hplan
        · split
          · exact htables
          · split <;> exact htables

/-- The start of the waiting epoch commands changes no semaphore of a core. -/
theorem sems_stirNext (l : List Nat) (s : State) (c : Nat) : ((stirNext l s).core c).sems = (s.core c).sems := by
  induction l generalizing s with
  | nil => rfl
  | cons id t ih =>
    unfold stirNext
    split
    · exact ih s
    next x _ =>
      have hstart := (s.stirStart_onlyNoted id x.desc).sems c
      split
      · rfl
      · split
        next h =>
          rw [h] at hstart
          exact ((ih _).trans ((State.OnlyNoted.complete ..).sems c)).trans hstart
        next h =>
          rw [h] at hstart
          exact hstart

/-- The epoch command without batch b, which is full. -/
def Epoch.batchOver (e : Epoch) (b : Nat) : Epoch := { e with left := e.left.filter (fun x => x.1 != b), batches := e.batches + 1 }

/-- The state in which batch b is full: its target's full semaphore has 1 more. -/
def State.batchFull (s : State) (e : Epoch) (b : Nat) : State :=
  (({ s with epochCmd := some (e.batchOver b) } : State).csemChange (e.target b).1 (e.target b).2.2.1 1).waitsMet

theorem State.batchFull_mem (s : State) (e : Epoch) (b : Nat) : (s.batchFull e b).mem = s.mem :=
  (State.csemChange_waitsMet_spec _ _ _ _).1

theorem State.get_sems_batchFull {s : State} {e : Epoch} {b : Nat}
    (h : netOf (s.core (e.target b).1).semNet (e.target b).2.2.1 = none) :
    Sparse.get 0 ((s.batchFull e b).core (e.target b).1).sems (e.target b).2.2.1 =
      min (Sparse.get 0 (s.core (e.target b).1).sems (e.target b).2.2.1 + 1) (2 ^ 32 - 1) := by
  rw [State.batchFull, (State.csemChange_waitsMet_spec _ _ _ _).2]
  exact (Core.get_sems_semChange h one_ne_zero _).trans (if_pos rfl)

/-- The epoch command completes, and the next one starts (R413). -/
def State.epochOver (s : State) (e : Epoch) : State :=
  let s1 := ({ s with epochCmd := none } : State).complete e.cmd [] (detailOf [(4, e.emitted), (4, e.batches)])
  stirNext s1.epochQueue s1

theorem State.epochOver_mem (s : State) (e : Epoch) : (s.epochOver e).mem = s.mem :=
  (stirNext_mem ..).trans (State.complete_mem ..)

theorem State.sems_epochOver (s : State) (e : Epoch) (c : Nat) : ((s.epochOver e).core c).sems = (s.core c).sems :=
  (sems_stirNext ..).trans ((State.OnlyNoted.complete ..).sems c)

section
variable {b : Nat} {s : State} {e : Epoch} (hl : s.clk.lost = false) (he : s.epochCmd = some e)
include hl he

theorem exec_stirrerBatchFull_of_open (h : (b, 0) ∉ e.left ∨ s.semStopped (e.target b).1 = true) :
    exec (.stirrerBatchFull b) s = .next s := by
  refine (live_of s _ hl).trans (congrArg _ ?_)
  simp only [he]
  refine if_pos ((Bool.or_eq_true ..).mpr ?_)
  obtain h | h := h
  · exact .inl (by simp [h])
  · exact .inr h

/-- A full batch adds to its target's semaphore, and the last one ends the command. -/
theorem exec_stirrerBatchFull_of_full (hb : (b, 0) ∈ e.left) (hs : s.semStopped (e.target b).1 = false) :
    exec (.stirrerBatchFull b) s = .next ((s.batchFull e b).epochOver (e.batchOver b)) ∨
      exec (.stirrerBatchFull b) s = .next (s.batchFull e b) := by
  have hopen : (!e.left.contains (b, 0) || s.semStopped (e.targets.getD (b % e.plan.nt) (0, 0, 0, 0, 0)).1) = false :=
    Bool.or_eq_false_iff.2 ⟨by simp [hb], hs⟩
  have hexec : exec (.stirrerBatchFull b) s = _ := live_of s _ hl
  simp only [he] at hexec
  rw [hexec, if_neg (ne_true_of_eq_false hopen)]
  exact (ite_eq_or_eq ..).imp (congrArg _) (congrArg _)

end

/-! ### The host's check values (R419, R420, R423) -/

/-- A unit in reach is one of a device that answers. -/
theorem State.lost_of_cvReach {s : State} {n : Nat} (h : s.cvReach n = true) : s.clk.lost = false := by
  simp only [State.cvReach, Bool.and_eq_true] at h
  obtain ⟨⟨⟨halive, _⟩, _⟩, _⟩ := h
  exact State.lost_of_regAlive halive

/-- START of a unit that nothing uses writes its fields, and opens the host's block where the host is its source (R419). -/
theorem exec_checkValueBlockStart {s : State} {n value : Nat} (hr : s.cvReach n = true) (hv : value / 2 ^ 31 % 2 = 1)
    (hu : s.cvInUse n = false) :
    let w := (s.cv n).setFields (value % 2 ^ 32)
    exec (.checkValueBlockStart n value) s =
      .next (s.setCv n { w with opened := w.src == 0, reg := if w.src = 0 then cvPrefix w w.seq.toNat else w.reg }) := by
  intro w
  have hstart : bitOf value 31 = true := decide_eq_true hv
  have hstart' : bitOf (value % 2 ^ 32) 31 = true := decide_eq_true (by omega)
  refine (live_of s _ (State.lost_of_cvReach hr)).trans (congrArg _ ((if_pos (by simp [hr, hstart])).trans ?_))
  rw [State.writeCvCtl, if_neg (by simp [hu]), if_neg (by rw [hstart']; decide)]

section
variable {s : State} {n : Nat} (hr : s.cvReach n = true) (k : Nat) (x : Fed)
include hr

theorem State.feed_of_opened (hsrc : (s.cv n).src = 0) (ho : (s.cv n).opened = true) : s.feed n k x = s.setCv n { s.cv n with
    reg := crcBytes (s.cv n).poly (s.cv n).reg (leBytes k x.value), par := (s.cv n).par || x.poison } := by
  simp [State.feed, hr, hsrc, ho]

theorem State.feed_of_source (hsrc : (s.cv n).src ≠ 0) : s.feed n k x = s.setCv n { s.cv n with feedErr := true } := by
  simp [State.feed, hr, hsrc]

end

/-- The three feed commands feed 1, 2 and 4 bytes. -/
theorem exec_feed {e : (Nat → Fed → Instr) × Nat} (he : e ∈ [((Instr.feedb : Nat → Fed → Instr), 1), (.feedh, 2), (.feedw, 4)])
    {s : State} (hl : s.clk.lost = false) (n : Nat) (x : Fed) : exec (e.1 n x) s = .next (s.feed n e.2 x) := by
  simp only [List.mem_cons, List.not_mem_nil, or_false] at he
  obtain rfl | rfl | rfl := he <;> exact live_of s _ hl

/-! ### Decode jobs, batches and check values -/

/-- Settles O53: each command's outcome, and what its state leaves as it was. -/
theorem creameryAndStirrerAct : Obligations.CreameryAndStirrerAct := by
  refine ⟨fun par cut s id e rest c hl hq he hc => ⟨exec_ingestJobAssign_of_waits hl hq he hc, exec_ingestJobAssign_of_outside hl hq he hc,
      fun hw hr hb hfields hranges hslot hcv hfilter => ?accepted⟩,
    fun e k s rest hl hc => ⟨exec_clipSignal_of_recent hl hc, fun ht hs => ?signal⟩,
    fun e s hl => ⟨fun h1 h2 h3 => ?ended, fun h => ?running⟩,
    fun par s e c hl he hc => ⟨exec_stirrerCredit_of_none hl he hc, fun hpos hlt hs hnet hleft hown => ?credit⟩,
    fun b s e hl he => ⟨exec_stirrerBatchFull_of_open hl he, fun hb hs hnet => ?full⟩,
    fun n value s => exec_checkValueBlockStart,
    fun f hf n data poison s hr => ⟨fun hsrc ho => ?fed, fun hsrc => ?refused⟩⟩
  case accepted =>
    exact ingestJobAssign_of_accepted hl hq he hc ⟨rfl, hw, hr, hb, hfields, hranges, hslot, hcv, hfilter⟩
  case signal =>
    refine ⟨_, exec_clipSignal_of_due hl hc ht hs, ?_, State.byteAt_congr (State.clipAdd_mem ..), fun hnone => ?_, fun i hsome hnet => ?_⟩
    · exact (congrArg (Sparse.get ({} : Ingest) · e) (State.clipAdd_engines ..)).trans (Sparse.get_set_self ..)
    · rw [hnone]
      rfl
    · rw [hsome]
      exact State.get_gsems_clipAdd hnet
  case ended =>
    rw [exec_ingestJobComplete hl, if_pos ⟨h1, h2, h3⟩]
  case running =>
    rw [exec_ingestJobComplete hl, if_neg (by tauto)]
  case credit =>
    exact stirrerCredit_of_free hl he hc hpos hlt hs hnet hleft hown
  case full =>
    have hfull := State.get_sems_batchFull (s := s) hnet
    obtain hexec | hexec := exec_stirrerBatchFull_of_full hl he hb hs
    · refine ⟨_, hexec, ?_, State.byteAt_congr ((State.epochOver_mem ..).trans (s.batchFull_mem e b))⟩
      rw [State.sems_epochOver]
      exact hfull
    · exact ⟨_, hexec, hfull, State.byteAt_congr (s.batchFull_mem e b)⟩
  case fed =>
    rw [exec_feed hf (State.lost_of_cvReach hr), State.feed_of_opened hr _ _ hsrc ho]
  case refused =>
    rw [exec_feed hf (State.lost_of_cvReach hr), State.feed_of_source hr _ _ hsrc]

end Sys2Proof.Machine
end

section
/-! PROOFS. The queue, and a block whose reference is lost (16 R492, R508). -/

namespace Sys2Proof.Machine

/-- Settles O1: the command's meaning is what a step of a queue that is not empty answers. -/
theorem stepRunsTheFrontCommand : Obligations.StepRunsTheFrontCommand := by
  intro s c rest h
  rw [step, h]

theorem live_of_lost {s : State} (h : s.clk.lost = true) (o : Host.Outcome State Fault Refusal) : live s o = .next s := if_pos h

theorem fetched_of_lost {s : State} (h : s.clk.lost = true) (n : Nat) (w : SlotWord) (o : Host.Outcome State Fault Refusal) :
    fetched s n w o = .next s := if_pos (by rw [h]; rfl)

/-- Settles O35: every other command is a slot of the core program, which needs its bundle fetched, or needs the device's clocks. -/
theorem lostReferenceStopsEverything : Obligations.LostReferenceStopsEverything := by
  intro c s hl hreset hbypass hidcode hsample hextest hclamp hhighz
  cases c
  case deviceReset => exact absurd rfl hreset
  case jtagBypass d => exact absurd rfl (hbypass d)
  case jtagIdcode => exact absurd rfl hidcode
  case samplePreload p d => exact absurd rfl (hsample p d)
  case jtagExtest p d => exact absurd rfl (hextest p d)
  case jtagClamp d => exact absurd rfl (hclamp d)
  case jtagHighz d => exact absurd rfl (hhighz d)
  case mop | fadd | fsub | fmul | fma | fmin | fmax | fabs | fneg | fcmpeq | fcmpne | fcmplt
    | fcmple | sel | fdiv | fsqrt | exp2 | exp | log2 | ln | rsqrt | sinpi | cospi | tanh
    | sigm | erf | f2i | f2iz | i2f | frnd | iadd | isub | imul | imin | imax | iabs
    | icmpeq | icmpne | icmplt | icmple | vand | vor | vxor | vnot | vshl | vshr | vsar
    | rol | madd | mullo | mulhi | ucmplt | ucmple | laneidx | perm | genrd | rfsum | risum
    | rfmax | rfmin | rimax | rimin | ridxmax | mand | mor | mxor | mandn | mrange | setvl
    | add | sub | mul | and | or | xor | shl | shr | sar | min | max | slt | sltu
    | seq | li | addi | andi | ori | xori | shli | shri | sari | lui | ld | lds | st
    | rdsr | idle | br | fill | store | movsv | movvs | setas | mpop | semwait | semadd
    | semsub | nop | beq | bne | blt | bge | loop | rsemadd | rsemsub | endProg | semrd | stepChurn | ldi =>
    exact fetched_of_lost hl ..
  all_goals exact live_of_lost hl _

end Sys2Proof.Machine
end

section
/-! PROOFS. The passing of an epoch count on an empty queue (16 R492, R508); reset (19 R588 to R591). -/

namespace Sys2Proof.Machine

theorem refuseReserved_pacing (n : Nat) (s : State) : (refuseReserved n s).pacing = s.pacing := by
  induction n generalizing s with
  | zero => rfl
  | succ n ih =>
    unfold refuseReserved
    split
    · rfl
    split
    · rfl
    split
    · exact (ih _).trans (State.complete_pacing ..)
    · rfl

theorem State.noteCrossings_epoch (s before : State) : (s.noteCrossings before).epoch = s.epoch := by
  unfold State.noteCrossings
  split <;> rfl

theorem State.settledFrom_epoch (s before : State) : (s.settledFrom before).epoch = s.epoch := by
  have h : (s.noteCrossings before).settleHold.epoch = s.epoch := (State.settleHold_epoch _).trans (s.noteCrossings_epoch before)
  unfold State.settledFrom
  extract_lets settled
  split <;> exact h

theorem State.pass_epoch (s : State) : s.pass.epoch = s.epoch + 1 := by
  have hlast : s.pass.clocks = (s.passIdle.begun.settledFrom s.passIdle).clocks := by
    rw [State.pass_eq]
    exact (State.clocks_of_pacing ((State.waitsMet_pacing _).trans (State.noteFirst_pacing _))).trans (State.copyOld_clocks _)
  calc s.pass.epoch = (s.passIdle.begun.settledFrom s.passIdle).epoch := congrArg State.Clocks.epoch hlast
    _ = s.passIdle.epoch + 1 := (State.settledFrom_epoch ..).trans s.passIdle.begun_epoch
    _ = s.epoch + 1 := congrArg (State.Clocks.epoch · + 1) s.passIdle_clocks

/-- Settles O57: a step on an empty queue is `tick`, which counts an epoch where `mayPass` and then only refuses reserved commands. -/
theorem emptyQueuePassesOnePeriod : Obligations.EmptyQueuePassesOnePeriod := by
  refine ⟨fun s h => by rw [step, h], fun s h => if_pos (by simpa using h), fun s hl hb => ?_⟩
  have htick : s.tick = refuseReserved 512 (if s.mayPass then s.pass else s) := if_neg (by simp [hl, hb])
  have hepoch : s.tick.epoch = (if s.mayPass then s.pass else s).epoch :=
    htick ▸ congrArg State.Pacing.epoch (refuseReserved_pacing 512 _)
  rw [hepoch, apply_ite State.epoch, State.pass_epoch]

/-! ### Reset -/

/-- Settles O58: each field of the state after reset is its default, and every fuse ceiling is STEP 0. -/
theorem resetLeavesTheTablesValues : Obligations.ResetLeavesTheTablesValues := by
  have hregions : State.reset.regions = [] := by decide +kernel
  refine ⟨rfl, rfl, rfl, fun _ => rfl, rfl, rfl, rfl, rfl, rfl, fun _ => ⟨rfl, rfl, rfl, rfl⟩, fun _ => ⟨rfl, rfl⟩, fun _ => ⟨rfl, rfl⟩,
    fun r => ?_, rfl, rfl, rfl, rfl, fun _ _ => rfl, fun _ => rfl, rfl, rfl, rfl, rfl, rfl, rfl, rfl, rfl⟩
  rw [State.region_fresh hregions]

theorem Sparse.get_filter_key {α : Type} (d : α) (p : Nat → Bool) (m : Sparse α) (i : Nat) :
    Sparse.get d (m.filter fun e => p e.1) i = if p i then Sparse.get d m i else d := by
  induction m with
  | nil => simp [Sparse.get]
  | cons e t ih =>
    obtain ⟨k, v⟩ := e
    by_cases hk : k = i
    · subst hk
      cases hp : p k <;> simp [hp, Sparse.get, ih]
    · cases hp : p k <;> simp [hp, Sparse.get, ih, hk]

theorem State.byteAt_afterReset (s : State) (a : Nat) : s.afterReset.byteAt a = if inHost a then s.byteAt a else 0 :=
  Sparse.get_filter_key unlisted inHost s.mem a

/-- No CAL_WRITE is under way, so none is cut short (R606). -/
theorem State.cutFlash_of_no_calWrite {s : State} (h : ∀ c ∈ s.cmds, rowOf c.desc ≠ some .calWrite) : s.cutFlash = s.flash := by
  have hnone : s.cmds.find? (fun c => rowOf c.desc == some .calWrite && c.ended.isNone) = none :=
    List.find?_eq_none.2 fun c hc => by simp [h c hc]
  rw [State.cutFlash, hnone]

/-- Settles O38: both sources give `afterReset`, which keeps host memory, the fuses, the record and the hard repairs. -/
theorem deviceResetClearsTheDevice : Obligations.DeviceResetClearsTheDevice := by
  refine ⟨fun _ => rfl, fun value s hr hkey => ?request, fun s => ⟨rfl, rfl, rfl, rfl, State.cutFlash_of_no_calWrite, fun a ha => ?_, fun a ha => ?_,
    rfl, rfl, rfl, rfl, rfl, rfl, rfl, rfl, rfl, rfl, rfl⟩⟩
  case request => exact (live_of s _ (State.lost_of_regAlive hr)).trans (congrArg _ (if_pos (by rw [hr, hkey]; rfl)))
  · rw [State.byteAt_afterReset, if_neg (by simp [ha])]
  · rw [State.byteAt_afterReset, if_pos ha]

end Sys2Proof.Machine
end

section
/-! PROOFS. The reference, THROTTLE and the hold counters, the stretch of a period (16 R490 to R492, R521; 09 R297; 23 R661). -/

namespace Sys2Proof.Machine

/-! ### The reference -/

/-- Settles O34: a write that names another source starts a switch, which is over at once where either clock has stopped. -/
theorem referenceSwitches : Obligations.ReferenceSwitches := by
  refine ⟨fun value s hr hsw hport hnew => ?start, fun s hl hsw => (live_of s _ hl).trans (congrArg _ (if_pos hsw)), fun s hl => live_of s _ hl⟩
  case start =>
    have hbit : bitOf value 8 = decide (value / 256 % 2 = 1) := rfl
    have hold : ¬ (!s.regAlive || s.clk.switching || (bitOf value 8 && decide (23 < value % 32)) ||
        (s.clk.refSrc == bitOf value 8 && s.clk.refPort == value % 32)) = true := by
      have hlow : bitOf value 8 = true → ¬ 23 < value % 32 := fun h => Nat.not_lt.2 (hport (by simpa [hbit] using h))
      rw [← hbit] at hnew
      simp only [hr, hsw, Bool.not_true, Bool.or_false, Bool.false_or, Bool.or_eq_true, Bool.and_eq_true, decide_eq_true_eq, beq_iff_eq]
      rintro (⟨hb, hp⟩ | ⟨hs, hp⟩)
      · exact hlow hb hp
      · exact hnew.elim (· hs) (· hp)
    refine ⟨_, (live_of s _ (State.lost_of_regAlive hr)).trans (congrArg _ (if_neg hold)), rfl, ?_⟩
    simp [hbit]

/-! ### THROTTLE and the counters of the hold -/

theorem Sparse.get_ofFn_lt {α : Type} [DecidableEq α] (d : α) {n : Nat} (f : Nat → α) {j : Nat} (h : j < n) :
    Sparse.get d (Sparse.ofFn d n f) j = f j := (Sparse.get_ofFn ..).trans (if_pos h)

/-- The hold root's note of the causes and the stops is a change of its own registers. -/
theorem State.settleHold_frame (s : State) : s.settleHold = { s with hold := s.settleHold.hold } := by
  obtain ⟨_, h⟩ := s.settleHold_eq
  exact h.trans (congrArg (fun x : HoldState => { s with hold := x }) (congrArg State.hold h).symm)

/-- The registers that the root's note of the stops leaves alone. -/
structure HoldState.SameCauses (h h' : HoldState) : Prop where
  throttle : h'.throttle = h.throttle
  change : h'.change = h.change

theorem State.noteEpisode_sameCauses (s : State) : s.hold.SameCauses s.noteEpisode.hold := by
  unfold State.noteEpisode
  split <;> exact ⟨rfl, rfl⟩

theorem State.settleHold_sameCauses (s : State) : s.hold.SameCauses s.settleHold.hold := by
  obtain ⟨ready, h⟩ := s.settleHold_eq
  obtain ⟨ht, hc⟩ := State.noteEpisode_sameCauses { s with hold := s.causesNoted }
  have hnoted : s.causesNoted.throttle = s.hold.throttle ∧ s.causesNoted.change = s.hold.change := by
    simp only [State.causesNoted]
    split <;> exact ⟨rfl, rfl⟩
  rw [h]
  exact ⟨ht.trans hnoted.1, hc.trans hnoted.2⟩

/-- A cause that is raised has a raise on its way, and no release stands against it (R289, R294). -/
theorem State.settleHold_raising {s : State} (h : s.keepsHold = true) : s.settleHold.hold.raising = true ∧ s.settleHold.hold.release = none := by
  have hcause : s.causeRaised = true := by simp [State.causeRaised, h]
  obtain ⟨hrel, hrai⟩ := State.noteEpisode_keeps { s with hold := s.causesNoted }
  obtain ⟨ready, e⟩ := s.settleHold_eq
  rw [e]
  refine ⟨hrai.trans (by simp [State.causesNoted, hcause]), hrel.trans ?_⟩
  cases hr : s.hold.release <;> simp [State.causesNoted, hcause, hr]

theorem State.keepsHold_of_throttle {s : State} (h : s.hold.throttle = true) : s.keepsHold = true := by simp [State.keepsHold, h]

theorem State.keepsHold_of_change {s : State} (h : s.hold.change = true) : s.keepsHold = true := by simp [State.keepsHold, h]

theorem State.throttle_mem_anyRaised {s : State} (h : s.hold.throttle = true) : 5 ∈ s.anyRaised := by simp [State.anyRaised, h]

theorem throttleAndHoldCounters : Claims.ThrottleAndHoldCounters := by
  intro s hl
  refine ⟨fun hb => ?early, fun hb => ?raised, ?cleared, fun value hr hv => ?counters⟩
  case early => exact (live_of s _ hl).trans (congrArg _ (if_neg (by simp [hb])))
  case raised =>
    have hmark : ({ s with hold := { s.hold with throttle := true } } : State).settleHold.hold.throttle = true :=
      (State.settleHold_sameCauses _).throttle
    obtain ⟨hraising, hrelease⟩ := State.settleHold_raising (s := { s with hold := { s.hold with throttle := true } })
      (State.keepsHold_of_throttle rfl)
    exact ⟨_, (live_of s _ hl).trans (congrArg _ (if_pos hb)), State.settleHold_frame _, hmark, hraising, hrelease,
      State.throttle_mem_anyRaised hmark⟩
  case cleared => exact ⟨_, live_of s _ hl, State.settleHold_frame _, (State.settleHold_sameCauses _).throttle⟩
  case counters =>
    refine ⟨_, (live_of s _ hl).trans (congrArg _ (if_neg (by simp [hr, bitOf_zero, hv]))), rfl, rfl, rfl, rfl, rfl, rfl,
      fun c _ ha => ?_, fun r hlt => Sparse.get_ofFn_lt _ _ hlt⟩
    exact State.core_mapCores_of_active ha fun _ k => { k with holdTotal := 0, holdCause := [] }

/-! ### Stretch -/

/-- The trip of a region's monitor, noted before its budget is looked at. -/
def Region.tripped (g : Region) (duty : Bool) : Region := if duty then { g with duty := true } else { g with jit := true }

theorem Region.tripped_marks (g : Region) (duty : Bool) :
    if duty then (g.tripped duty).duty = true else (g.tripped duty).jit = true := by
  cases duty <;> rfl

section
variable (g : Region) (duty : Bool)

@[simp] theorem Region.tripped_trip : (g.tripped duty).trip = g.trip := by cases duty <;> rfl
@[simp] theorem Region.tripped_window : (g.tripped duty).window = g.window := by cases duty <;> rfl
@[simp] theorem Region.tripped_lag : (g.tripped duty).lag = g.lag := by cases duty <;> rfl
@[simp] theorem Region.tripped_half : (g.tripped duty).half = g.half := by cases duty <;> rfl
@[simp] theorem Region.tripped_stretched : (g.tripped duty).stretched = g.stretched := by cases duty <;> rfl
@[simp] theorem Region.tripped_denied : (g.tripped duty).denied = g.denied := by cases duty <;> rfl

end

theorem State.setRegion_spec (s : State) (r : Nat) (g : Region) :
    s.setRegion r g = { s with regions := (s.setRegion r g).regions } ∧ (∀ q, q ≠ r → (s.setRegion r g).region q = s.region q) ∧
      (s.setRegion r g).region r = g :=
  ⟨rfl, fun q hq => by simp [hq], by simp⟩

/-- What a trip leaves of the region, by its budget: nothing more in a period that is stretched already; a stretch; a denial. -/
def Region.afterTrip (g : Region) (now : Nat) (frozen : Bool) : Region :=
  let recent := g.window.filter (fun p => now < p + 64)
  if g.trip then g
  else if 4 ≤ recent.length then { g with window := recent, denied := if frozen then g.denied else min (g.denied + 1) (2 ^ 32 - 1) }
  else { g with window := recent ++ [now], trip := true, stretched := if frozen then g.stretched else min (g.stretched + 1) (2 ^ 32 - 1) }

section
variable (g : Region) (now : Nat) (frozen : Bool)

theorem Region.afterTrip_keeps : (g.afterTrip now frozen).duty = g.duty ∧ (g.afterTrip now frozen).jit = g.jit ∧
    (g.afterTrip now frozen).lag = g.lag ∧ (g.afterTrip now frozen).half = g.half := by
  unfold Region.afterTrip
  extract_lets recent
  split_ifs <;> exact ⟨rfl, rfl, rfl, rfl⟩

variable {g now}

theorem Region.afterTrip_of_trip (h : g.trip = true) : g.afterTrip now frozen = g := if_pos h

theorem Region.afterTrip_of_spent (h : g.trip = false) (hb : 4 ≤ (g.window.filter (fun p => now < p + 64)).length) :
    g.afterTrip now frozen = { g with
      window := g.window.filter (fun p => now < p + 64), denied := if frozen then g.denied else min (g.denied + 1) (2 ^ 32 - 1) } :=
  (if_neg (by simp [h])).trans (if_pos hb)

theorem Region.afterTrip_of_budget (h : g.trip = false) (hb : (g.window.filter (fun p => now < p + 64)).length < 4) :
    g.afterTrip now frozen = { g with
      window := g.window.filter (fun p => now < p + 64) ++ [now], trip := true
      stretched := if frozen then g.stretched else min (g.stretched + 1) (2 ^ 32 - 1) } :=
  (if_neg (by simp [h])).trans (if_neg (Nat.not_le.2 hb))

end

theorem exec_stretch {s : State} {r : Nat} (hl : s.clk.lost = false) (hr : r < 16) (hs : (s.region r).stopped = false) (duty : Bool) :
    exec (.stretch r duty) s =
      .next (s.setRegion r (((s.region r).tripped duty).afterTrip (s.epoch - (s.region r).lost) s.hold.freeze)) := by
  refine (live_of s _ hl).trans (congrArg _ ((if_neg ?_).trans ?_))
  · cases duty <;> simp [hs, hr]
  · simp only [Region.afterTrip, apply_ite (s.setRegion r)]
    cases duty <;> rfl

theorem stretchSpendsItsBudget : Claims.StretchSpendsItsBudget := by
  refine ⟨fun r duty s hl hr hs => ?trip, fun g hs => ⟨fun hh => ?plain, fun hh => ?first, ?lag⟩⟩
  case trip =>
    intro now recent
    obtain ⟨hframe, hothers, hregion⟩ := s.setRegion_spec r (((s.region r).tripped duty).afterTrip now s.hold.freeze)
    refine ⟨_, exec_stretch hl hr hs duty, hframe, hothers, ?_⟩
    obtain ⟨hduty, hjit, hlag, hhalf⟩ := ((s.region r).tripped duty).afterTrip_keeps now s.hold.freeze
    rw [hregion, hduty, hjit, hlag, hhalf]
    refine ⟨Region.tripped_marks .., Region.tripped_lag .., Region.tripped_half .., fun ht => ?_, fun ht hb => ?_, fun ht hb => ?_⟩
    · simp [Region.afterTrip_of_trip, ht]
    · rw [Region.afterTrip_of_budget _ (by simpa using ht) (by simpa using hb)]
      exact ⟨rfl, by simp [recent], fun hf => by simp [hf]⟩
    · rw [Region.afterTrip_of_spent _ (by simpa using ht) (by simpa using hb)]
      exact ⟨by simpa using ht, fun hf => by simp [hf]⟩
  case plain => simp [Region.pass, hs, hh]
  case first => simp [Region.pass, Region.ticks, hs, hh]
  case lag =>
    rw [Region.pass, if_neg (by simp [hs]), apply_ite Region.lag]
    split
    · next h => rw [if_neg (by omega)]
    · rfl

/-- Settles O33: the root's registers, then a region's budget and the two counts of its stretched period. -/
theorem throttleCountersAndStretch : Obligations.ThrottleCountersAndStretch := ⟨throttleAndHoldCounters, stretchSpendsItsBudget⟩

end Sys2Proof.Machine
end

section
/-! PROOFS. Clock enables, and the training of the Bulk tank (16 R497 to R500; 12 R367). -/

namespace Sys2Proof.Machine

/-! ### Sets of bits -/

theorem bitOf_eq_testBit (v i : Nat) : bitOf v i = v.testBit i := by
  rw [Nat.testBit_eq_decide_div_mod_eq]
  rfl

theorem bitOf_or (v w i : Nat) : bitOf (v ||| w) i = (bitOf v i || bitOf w i) := by simp [bitOf_eq_testBit]

theorem bitOf_and (v w i : Nat) : bitOf (v &&& w) i = (bitOf v i && bitOf w i) := by simp [bitOf_eq_testBit]

theorem bitOf_mod_two_pow {v n i : Nat} (h : i < n) : bitOf (v % 2 ^ n) i = bitOf v i := by
  simp [bitOf_eq_testBit, Nat.testBit_mod_two_pow, h]

/-- The bits above one that is set stay as they are: setting it carries nothing. -/
theorem bitOf_setBit_of_gt {v i j : Nat} (h : i < j) : bitOf (setBit v i) j = bitOf v j := by
  unfold setBit
  split
  · rfl
  next hbit =>
    simp only [bitOf, decide_eq_true_eq] at hbit
    have hcarry : (v + 2 ^ i) / 2 ^ (i + 1) = v / 2 ^ (i + 1) := by
      rw [Nat.pow_succ, ← Nat.div_div_eq_div_mul, ← Nat.div_div_eq_div_mul, Nat.add_div_right _ (by positivity)]
      omega
    obtain ⟨k, rfl⟩ := Nat.exists_eq_add_of_lt h
    rw [bitOf, bitOf, Nat.add_right_comm i k 1, Nat.pow_add, ← Nat.div_div_eq_div_mul, ← Nat.div_div_eq_div_mul, hcarry]

theorem bitOf_setBit (v i j : Nat) : bitOf (setBit v i) j = (bitOf v j || j == i) := by
  obtain h | rfl | h := Nat.lt_trichotomy j i
  · simp [bitOf_setBit_of_lt h, h.ne]
  · simp [bitOf_setBit_self]
  · simp [bitOf_setBit_of_gt h, h.ne']

/-- The bits of a list's numbers that satisfy a test, added to a set of bits. -/
theorem bitOf_foldl_setBit (p : Nat → Bool) (l : List Nat) (v j : Nat) :
    bitOf (l.foldl (fun m i => if p i then setBit m i else m) v) j = (bitOf v j || (l.contains j && p j)) := by
  induction l generalizing v with
  | nil => simp
  | cons i t ih =>
    rw [List.foldl_cons, ih]
    by_cases hj : j = i
    · subst hj
      cases hp : p j <;> simp [bitOf_setBit]
    · cases hp : p i <;> simp [bitOf_setBit, hj, beq_false_of_ne hj]

/-- The set of the numbers below n that satisfy a test. -/
theorem bitOf_bitsWhere (p : Nat → Bool) {n j : Nat} (h : j < n) :
    bitOf ((List.range n).foldl (fun m i => if p i then setBit m i else m) 0) j = p j := by
  have hzero : bitOf 0 j = false := by simp [bitOf]
  simp [bitOf_foldl_setBit, h, hzero]

theorem bitOf_bitsUnless (p : Nat → Prop) [DecidablePred p] {n j : Nat} (h : j < n) :
    bitOf ((List.range n).foldl (fun m i => if p i then m else setBit m i) 0) j = !decide (p j) := by
  have hflip : (fun (m i : Nat) => if p i then m else setBit m i) = fun m i => if (fun i => !decide (p i)) i then setBit m i else m := by
    funext m i
    by_cases hp : p i <;> simp [hp]
  rw [hflip, bitOf_bitsWhere _ h]

theorem mod_two_pow_eq_ones_iff (v n : Nat) : v % 2 ^ n = 2 ^ n - 1 ↔ ∀ i, i < n → bitOf v i = true := by
  simp only [bitOf_eq_testBit]
  constructor
  · intro h i hi
    have := congrArg (Nat.testBit · i) h
    simpa [Nat.testBit_mod_two_pow, Nat.testBit_two_pow_sub_one, hi] using this
  · intro h
    refine Nat.eq_of_testBit_eq fun i => ?_
    rw [Nat.testBit_mod_two_pow, Nat.testBit_two_pow_sub_one]
    by_cases hi : i < n
    · simp [hi, h i hi]
    · simp [hi]

/-! ### The clock enables -/

/-- The engines that keep their clock for their job (R499). -/
theorem bitOf_busyEngines (s : State) {e : Nat} (he : e < 32) :
    bitOf ((List.range 32).foldl (fun m e => if (s.engine e).cmd = 0 then m else setBit m e) 0) e = ((s.engine e).cmd != 0) :=
  (bitOf_bitsUnless _ he).trans (by simp [bne, BEq.beq])

theorem clkEnCrm_sets {value : Nat} {s : State} (hr : s.regAlive = true) (hpos : 0 < value % 2 ^ 32) :
    ∃ t, exec (.clkEnCrm value) s = .next t ∧ t = { s with clk := t.clk } ∧
      ∀ e, e < 32 → bitOf t.clk.enCrm e = (bitOf value e || (bitOf s.clk.enCrm e && (s.engine e).cmd != 0)) := by
  have hne : ∀ w, ¬ (value % 2 ^ 32) ||| w = 0 := fun w h => absurd (Nat.or_eq_zero_iff.1 h).1 hpos.ne'
  refine ⟨_, (live_of s _ (State.lost_of_regAlive hr)).trans (congrArg _ ((if_neg (by simp [hr])).trans (if_neg (hne _)))), rfl, fun e he => ?_⟩
  rw [bitOf_or, bitOf_and, bitOf_busyEngines s he, bitOf_mod_two_pow he]

/-- The ports of a list that fail a test, emptied. -/
theorem foldl_emptyPorts (en : Nat) (l : List Nat) (hl : l.Nodup) (s : State) :
    let t := l.foldl (fun s n => if bitOf s.clk.enGrb n && bitOf en n then s else s.setPort n {}) s
    t = { s with ports := t.ports } ∧ ∀ n ∈ l, bitOf en n = false → t.port n = {} := by
  intro t
  have hframe : t = { s with ports := t.ports } :=
    List.foldlRecOn (motive := fun t : State => t = { s with ports := t.ports }) l _ rfl fun t ht n _ => by
      split
      · exact ht
      · exact congrArg (fun u : State => u.setPort n {}) ht
  refine ⟨hframe, fun n hn hoff => ?_⟩
  obtain ⟨-, hin⟩ := foldl_step (view := fun (s : State) n => s.port n)
    (f := fun s n => if bitOf s.clk.enGrb n && bitOf en n then s else s.setPort n {})
    (fun s a c hc => by split <;> simp [hc]) hl s n
  obtain ⟨s', -, he⟩ := hin hn
  exact he.trans (by simp [hoff])

theorem and_beq_eq_false {b : Bool} {x y : Nat} (h : b = true → x ≠ y) : (b && x == y) = false := by
  cases b
  · rfl
  · exact beq_false_of_ne (h rfl)

theorem clkEnGrb_sets {value : Nat} {s : State} (hr : s.regAlive = true) :
    ∃ t, exec (.clkEnGrb value) s = .next t ∧ t = { s with clk := t.clk, ports := t.ports } ∧
      (∀ n, n < 24 → bitOf value n = true → bitOf t.clk.enGrb n = true) ∧
      ∀ n, n < 24 → bitOf value n = false → (s.port n).state = 0 → s.testOn 0 n = false → (s.clk.refSrc = true → s.clk.refPort ≠ n) →
        (s.clk.useSrc = true → s.clk.usePort ≠ n) → bitOf t.clk.enGrb n = false ∧ t.port n = {} := by
  obtain ⟨en, hen, hexec⟩ : ∃ en, (∀ n, n < 24 → bitOf en n = (bitOf value n || (bitOf s.clk.enGrb n && ((s.port n).state != 0 || s.testOn 0 n ||
        (s.clk.refSrc && s.clk.refPort == n) || (s.clk.useSrc && s.clk.usePort == n))))) ∧
      exec (.clkEnGrb value) s = .next ((List.range 24).foldl
        (fun s n => if bitOf s.clk.enGrb n && bitOf en n then s else s.setPort n {}) { s with clk := { s.clk with enGrb := en } }) :=
    ⟨_, fun n hn => bitOf_bitsWhere _ hn, (live_of s _ (State.lost_of_regAlive hr)).trans (congrArg _ (if_neg (by simp [hr])))⟩
  obtain ⟨hframe, hempty⟩ := foldl_emptyPorts en (List.range 24) List.nodup_range { s with clk := { s.clk with enGrb := en } }
  have hclk := congrArg State.clk hframe
  refine ⟨_, hexec, ?_, fun n hn hv => ?_, fun n hn hv hdown htest href huse => ?_⟩
  · rw [hframe]
  · rw [hclk, hen n hn, hv, Bool.true_or]
  · have hoff : bitOf en n = false := by
      rw [hen n hn]
      simp [hv, hdown, htest, and_beq_eq_false href, and_beq_eq_false huse]
    exact ⟨(congrArg (fun c : Clk => bitOf c.enGrb n) hclk).trans hoff, hempty n (List.mem_range.2 hn) hoff⟩

/-- Check-value units reset with their clock: nothing but their own registers. -/
theorem foldl_resetCvs (p : Nat → Bool) (l : List Nat) (s : State) :
    let t := l.foldl (fun s n => if p n then s else s.setCv n {}) s
    t = { s with cvs := t.cvs } :=
  List.foldlRecOn (motive := fun t : State => t = { s with cvs := t.cvs }) l _ rfl fun t ht n _ => by
    split
    · exact ht
    · exact congrArg (fun u : State => u.setCv n {}) ht

/-- What starts the Bulk tank's training: all its channels enabled, not all of them before (R500). -/
theorem training_of_all {p : Prop} [Decidable p] {new : Bool} (hp : p) (hnew : new = true) (old : Bool) :
    (decide p && ((decide p && new) || old)) = true := by simp [hp, hnew]

theorem clkEnMisc_sets {value : Nat} {s : State} (hr : s.regAlive = true) :
    ∃ t, exec (.clkEnMisc value) s = .next t ∧ (∀ i, i < 24 → bitOf value i = true → bitOf t.clk.enMisc i = true) ∧
      (value % 2 ^ 16 = 2 ^ 16 - 1 → s.clk.enMisc % 2 ^ 16 ≠ 2 ^ 16 - 1 → t.clk.btTraining = true) ∧ ∀ a, t.byteAt a = s.byteAt a := by
  obtain ⟨en, s2, hexec, hen, hset, htrain, hmem⟩ : ∃ (en : Nat) (s2 : State),
      exec (.clkEnMisc value) s = .next ((List.range 4).foldl
        (fun t n => if bitOf en (20 + n) == bitOf s.clk.enMisc (20 + n) then t else t.setCv n {}) s2) ∧
      (∀ i, i < 24 → bitOf value i = true → bitOf en i = true) ∧ s2.clk.enMisc = en ∧
      (en % 2 ^ 16 = 2 ^ 16 - 1 → s.clk.enMisc % 2 ^ 16 ≠ 2 ^ 16 - 1 → s2.clk.btTraining = true) ∧ s2.mem = s.mem := by
    refine ⟨_, _, (live_of s _ (State.lost_of_regAlive hr)).trans (congrArg _ (if_neg (by simp [hr]))), fun i hi hv => ?_, ?_, fun hall hold => ?_, ?_⟩
    · rw [bitOf_bitsWhere _ hi, hv, Bool.true_or]
    · split <;> rfl
    · split <;> exact training_of_all hall (bne_iff_ne.2 hold) _
    · split <;> rfl
  have hlast := foldl_resetCvs (fun n => bitOf en (20 + n) == bitOf s.clk.enMisc (20 + n)) (List.range 4) s2
  have hclk := congrArg State.clk hlast
  refine ⟨_, hexec, fun i hi hv => ?_, fun hv hold => ?_, State.byteAt_congr ((congrArg State.mem hlast).trans hmem)⟩
  · exact (congrArg (fun c : Clk => bitOf c.enMisc i) hclk).trans ((congrArg (bitOf · i) hset).trans (hen i hi hv))
  · have hall : en % 2 ^ 16 = 2 ^ 16 - 1 := (mod_two_pow_eq_ones_iff ..).2 fun i hi =>
      hen i (by omega) ((mod_two_pow_eq_ones_iff ..).1 hv i hi)
    exact (congrArg Clk.btTraining hclk).trans (htrain hall hold)

/-! ### The Bulk tank's training -/

theorem State.byteAt_clear {s t : State} {lo hi : Nat} (h : t.mem = Sparse.clear s.mem lo hi) (a : Nat) :
    t.byteAt a = if a < lo ∨ hi ≤ a then s.byteAt a else 0 := by
  have hget := Sparse.get_filter_key unlisted (fun a => decide (a < lo) || decide (hi ≤ a)) s.mem a
  rw [State.byteAt, h]
  exact hget.trans (by simp [State.byteAt, unlisted])

/-- The channels whose devices do not report the option of MEM_BT_CFG. -/
def failedChannels (fitted : List Nat) (option : Nat) : Nat :=
  (List.range 16).foldl (fun m c => if fitted.getD c 4 = option then m else setBit m c) 0

theorem bitOf_failedChannels (fitted : List Nat) (option : Nat) {c : Nat} (hc : c < 16) :
    bitOf (failedChannels fitted option) c = (fitted.getD c 4 != option) := by
  rw [failedChannels, bitOf_bitsUnless _ hc]
  rfl

theorem failedChannels_eq_zero {fitted : List Nat} {option : Nat} (h : ∀ c, c < 16 → fitted.getD c 4 = option) :
    failedChannels fitted option = 0 :=
  foldl_eq_self fun c hc => if_pos (h c (List.mem_range.1 hc))

/-- Training over with the tank ready, at the capacity of its option (R364). -/
def State.tankTrained (s : State) : State :=
  ({ s with clk := { s.clk with btTraining := false } } : State).setUnit 8
    { s.unit 8 with ready := true, chFail := 0, cap := btCapacity (s.unit 8).cfg }

/-- The trained tank reads as zeros (R601). -/
def State.tankReady (s : State) : State :=
  { s.tankTrained with mem := Sparse.clear s.tankTrained.mem 0x10000000000 0x20000000000, ecc := Sparse.clear s.tankTrained.ecc (0x10000000000 / 8) (0x20000000000 / 8) }

theorem State.unit_tankTrained (s : State) :
    s.tankTrained.unit 8 = { s.unit 8 with ready := true, chFail := 0, cap := btCapacity (s.unit 8).cfg } :=
  (State.unit_setUnit ..).trans (if_pos rfl)

/-- Training over with channels that differ from MEM_BT_CFG (R367). -/
def State.tankFailed (s : State) (bad : Nat) : State :=
  ({ s with clk := { s.clk with btTraining := false } } : State).setUnit 8 { s.unit 8 with chFail := bad }

theorem bulkTankReady_ends (fitted : List Nat) {s : State} (hl : s.clk.lost = false) (ht : s.clk.btTraining = true) :
    ∃ t, exec (.bulkTankReady fitted) s = .next t ∧ t.clk.btTraining = false ∧
    ((∀ c, c < 16 → fitted.getD c 4 = (s.unit 8).cfg % 4) → (t.unit 8).ready = true ∧ (t.unit 8).chFail = 0 ∧
      (∀ a, 0x10000000000 ≤ a → a < 0x20000000000 → t.byteAt a = 0) ∧
      ∀ a, a < 0x10000000000 ∨ 0x20000000000 ≤ a → t.byteAt a = s.byteAt a) ∧
    ((∃ c, c < 16 ∧ fitted.getD c 4 ≠ (s.unit 8).cfg % 4) → (t.unit 8).ready = (s.unit 8).ready ∧ (∀ a, t.byteAt a = s.byteAt a) ∧
      ∀ c, c < 16 → (bitOf (t.unit 8).chFail c = true ↔ fitted.getD c 4 ≠ (s.unit 8).cfg % 4)) := by
  have hbad : ∀ c, c < 16 → (bitOf (failedChannels fitted ((s.unit 8).cfg % 4)) c = true ↔ fitted.getD c 4 ≠ (s.unit 8).cfg % 4) := fun c hc => by
    rw [bitOf_failedChannels _ _ hc, bne_iff_ne]
  by_cases h0 : failedChannels fitted ((s.unit 8).cfg % 4) = 0
  · have hgood : ∀ c, c < 16 → fitted.getD c 4 = (s.unit 8).cfg % 4 := fun c hc => by
      by_contra hc'
      simpa [h0, bitOf] using (hbad c hc).2 hc'
    have hexec : exec (.bulkTankReady fitted) s = .next s.tankReady :=
      (live_of s _ hl).trans (congrArg _ ((if_neg (by simp [ht])).trans (if_pos h0)))
    have hunit : s.tankReady.unit 8 = { s.unit 8 with ready := true, chFail := 0, cap := btCapacity (s.unit 8).cfg } :=
      s.unit_tankTrained
    refine ⟨_, hexec, rfl, fun _ => ⟨by rw [hunit], by rw [hunit], fun a hlo hhi => ?_, fun a ha => ?_⟩, fun ⟨c, hc, hne⟩ => absurd (hgood c hc) hne⟩
    · exact (State.byteAt_clear rfl a).trans (if_neg (by omega))
    · exact (State.byteAt_clear rfl a).trans (if_pos ha)
  · have hexec : exec (.bulkTankReady fitted) s = .next (s.tankFailed (failedChannels fitted ((s.unit 8).cfg % 4))) :=
      (live_of s _ hl).trans (congrArg _ ((if_neg (by simp [ht])).trans (if_neg h0)))
    have hunit : (s.tankFailed (failedChannels fitted ((s.unit 8).cfg % 4))).unit 8 =
        { s.unit 8 with chFail := failedChannels fitted ((s.unit 8).cfg % 4) } := (State.unit_setUnit ..).trans (if_pos rfl)
    refine ⟨_, hexec, rfl, fun hgood => absurd ?_ h0, fun _ => ⟨by rw [hunit], fun _ => rfl, fun c hc => ?_⟩⟩
    · exact failedChannels_eq_zero hgood
    · rw [hunit]
      exact hbad c hc

/-- Settles O37: each write's bits, then the two ends of the Bulk tank's training. -/
theorem clockEnables : Obligations.ClockEnables :=
  ⟨fun _ _ hr hpos => clkEnCrm_sets hr hpos, fun _ _ hr => clkEnGrb_sets hr, fun _ _ hr => clkEnMisc_sets hr,
    fun fitted _ hl ht => bulkTankReady_ends fitted hl ht⟩

end Sys2Proof.Machine
end

section
/-! PROOFS. Frequency changes: synchronised at an epoch, and stopped for one region (16 R506 to R520). -/

namespace Sys2Proof.Machine

/-! ### The request of a synchronised change -/

section
variable {s : State} {step cfg : Nat}

theorem State.changeRefusal_of_busy (h : s.clk.change.isSome ∨ s.clk.ecfPend.isSome ∨ s.mixed = true) : s.changeRefusal step cfg = 1 :=
  if_pos (by simpa [or_assoc] using h)

/-- No change is pending and the steps are not mixed. -/
def State.FreeToChange (s : State) : Prop := s.clk.change = none ∧ s.clk.ecfPend = none ∧ s.mixed = false

variable (hf : s.FreeToChange)

include hf in
theorem State.changeRefusal_of_free : s.changeRefusal step cfg =
    if 5 < step ∨ 4 < cfg then 6 else if step < s.dieTop then 2 else if s.clk.fchgN < s.epoch + 65536 then 3 else 0 := by
  obtain ⟨hc, he, hm⟩ := hf
  exact if_neg (by simp [hc, he, hm])

include hf in
theorem State.changeRefusal_of_code (h : 5 < step ∨ 4 < cfg) : s.changeRefusal step cfg = 6 := by
  rw [State.changeRefusal_of_free hf, if_pos h]

variable (hs : step ≤ 5) (hc : cfg ≤ 4)
include hf hs hc

theorem State.changeRefusal_of_fast (h : step < s.dieTop) : s.changeRefusal step cfg = 2 := by
  rw [State.changeRefusal_of_free hf, if_neg (by omega), if_pos h]

theorem State.changeRefusal_of_soon (h : s.dieTop ≤ step) (hn : s.clk.fchgN < s.epoch + 65536) : s.changeRefusal step cfg = 3 := by
  rw [State.changeRefusal_of_free hf, if_neg (by omega), if_neg (by omega), if_pos hn]

theorem State.changeRefusal_of_allowed (h : s.dieTop ≤ step) (hn : s.epoch + 65536 ≤ s.clk.fchgN) : s.changeRefusal step cfg = 0 := by
  rw [State.changeRefusal_of_free hf, if_neg (by omega), if_neg (by omega), if_neg (by omega)]

end

/-- The request's fields in the register, before it is judged. -/
def State.changeAsked (s : State) (value : Nat) : State :=
  { s with clk := { s.clk with fchgStep := value % 8, fchgCfg := bits value 6 4, fchgRing := bits value 10 8 } }

section
variable {s : State} {value : Nat} (hr : s.regAlive = true) (hgo : value / 2 ^ 31 % 2 = 1)
include hr hgo

theorem exec_synchronisedChangeRequest_of_refused {e : Nat} (h : s.changeRefusal (value % 8) (value / 16 % 8) = e + 1) :
    exec (.synchronisedChangeRequest value) s = .next { s.changeAsked value with clk := (s.changeAsked value).clk.ended (e + 1) } := by
  refine (live_of s _ (State.lost_of_regAlive hr)).trans (congrArg _ ((if_neg (by simp [hr, show bitOf value 31 = true from decide_eq_true hgo])).trans ?_))
  have hasked : (s.changeAsked value).changeRefusal (value % 8) (bits value 6 4) = e + 1 := h
  simp only [State.changeAsked] at hasked
  simp only [hasked]
  rfl

theorem exec_synchronisedChangeRequest_of_allowed (h : s.changeRefusal (value % 8) (value / 16 % 8) = 0) :
    exec (.synchronisedChangeRequest value) s =
      .next ((s.changeAsked value).acceptChange (value % 8) (value / 16 % 8) s.clk.fchgN false) := by
  refine (live_of s _ (State.lost_of_regAlive hr)).trans (congrArg _ ((if_neg (by simp [hr, show bitOf value 31 = true from decide_eq_true hgo])).trans ?_))
  have hasked : (s.changeAsked value).changeRefusal (value % 8) (bits value 6 4) = 0 := h
  simp only [State.changeAsked] at hasked
  simp only [hasked]
  rfl

/-- The answer to a request by the number that judges it. -/
theorem synchronisedChangeRequest_answers : ∃ t, exec (.synchronisedChangeRequest value) s = .next t ∧
    t = { s with clk := t.clk, regions := t.regions } ∧ t.clk.fchgStep = value % 8 ∧ t.clk.fchgCfg = value / 16 % 8 ∧
    (∀ e, s.changeRefusal (value % 8) (value / 16 % 8) = e + 1 →
      t.clk.fchgDone = true ∧ t.clk.fchgResult = e + 1 ∧ t.clk.change = s.clk.change) ∧
    (s.changeRefusal (value % 8) (value / 16 % 8) = 0 →
      t.clk.change = some { step := value % 8, cfg := value / 16 % 8, n := s.clk.fchgN, hw := false } ∧ ∀ r, r < 16 → (t.region r).locked = false) := by
  cases h : s.changeRefusal (value % 8) (value / 16 % 8) with
  | zero =>
    refine ⟨_, exec_synchronisedChangeRequest_of_allowed hr hgo h, rfl, rfl, rfl, fun e he => absurd he (by omega), fun _ => ⟨rfl, fun r hlt => ?_⟩⟩
    exact congrArg Region.locked ((State.region_mapRegions _ (fun _ g => { g with locked := false }) r).trans (if_pos hlt))
  | succ e =>
    refine ⟨_, exec_synchronisedChangeRequest_of_refused hr hgo h, rfl, rfl, rfl, fun e' he => ?_, fun h0 => absurd h0 (by omega)⟩
    rw [← he]
    exact ⟨rfl, rfl, rfl⟩

end

/-! ### The moments of a synchronised change -/

theorem State.mayPass_of_momentDue {s : State} (h : s.momentDue = true) : s.mayPass = false := by simp [State.mayPass, h]

theorem State.mayPass_of_change {s : State} {c : Change} {m : Nat} (hc : s.clk.change = some c) (hm : c.moment = some m) (hd : m ≤ s.epoch) :
    s.mayPass = false :=
  State.mayPass_of_momentDue (by simp [State.momentDue, hc, hm, hd])

theorem State.settleHold_crossing (s : State) : ∀ r ∈ s.settleHold.hold.crossing, r ∈ s.hold.crossing := by
  have hnote : ∀ t : State, t.noteEpisode.hold.crossing = t.hold.crossing := fun t => by
    unfold State.noteEpisode
    split <;> rfl
  have hnoted : s.causesNoted.crossing = if s.allStopped then [] else s.hold.crossing := by
    simp only [State.causesNoted]
    congr 1
    split <;> rfl
  obtain ⟨ready, h⟩ := s.settleHold_eq
  rw [h]
  intro r hr
  have hr' : r ∈ s.causesNoted.crossing := (hnote { s with hold := s.causesNoted }) ▸ hr
  rw [hnoted] at hr'
  split at hr'
  · exact absurd hr' List.not_mem_nil
  · exact hr'

/-- The root's note of the causes adds none to what some source raises. -/
theorem State.settleHold_anyRaised (s : State) : ∀ x ∈ s.settleHold.anyRaised, x ∈ s.anyRaised := by
  have hraised : ∀ c, ∀ x ∈ s.settleHold.raised c, x ∈ s.raised c := fun c x hx => by
    have hcore : s.settleHold.core c = s.core c := congrArg (fun l => Sparse.get ({} : Core) l c) s.settleHold_cores
    simp only [State.raised, hcore, List.mem_append] at hx ⊢
    refine hx.imp id fun hx => ?_
    split at hx
    · next hin => rwa [if_pos (List.contains_iff_mem.2 (s.settleHold_crossing _ (List.contains_iff_mem.1 hin)))]
    · exact absurd hx List.not_mem_nil
  intro x hx
  simp only [State.anyRaised, List.mem_eraseDups, List.mem_append, List.mem_flatMap, s.settleHold_sameCauses.throttle, State.settleHold_fuse] at hx ⊢
  exact hx.imp (fun ⟨c, hc, hx⟩ => ⟨c, hc, hraised c x hx⟩) id

section
variable {s : State} {c : Change} (hl : s.clk.lost = false) (hc : s.clk.change = some c)
include hl hc

theorem exec_lockCheck (h0 : c.stage = 0) : exec .lockCheck s = .next
    (if s.epoch + 64 < c.n then s
    else if (List.range 16).all (fun r => (s.region r).locked) then { s with clk := { s.clk with change := some { c with stage := 1 } } }
    else { s with clk := { s.clk with change := none }.ended 4 }) := by
  refine (live_of s _ hl).trans (congrArg _ ?_)
  simp only [hc, h0, ne_eq, not_true_eq_false, false_or]

theorem lockCheck_judges (h0 : c.stage = 0) :
    (s.epoch + 64 < c.n → exec .lockCheck s = .next s) ∧
    (c.n ≤ s.epoch + 64 → s.mayPass = false ∧ ∃ t, exec .lockCheck s = .next t ∧ t = { s with clk := t.clk } ∧
      ((∀ r, r < 16 → (s.region r).locked = true) → t.clk = { s.clk with change := some { c with stage := 1 } }) ∧
      ((∃ r, r < 16 ∧ (s.region r).locked = false) → t.clk.change = none ∧ t.clk.fchgResult = 4 ∧ t.clk.fchgDone = true)) := by
  refine ⟨fun h => by rw [exec_lockCheck hl hc h0, if_pos h], fun h => ⟨State.mayPass_of_change hc (by simp [Change.moment, h0]; rfl) (by omega), ?_⟩⟩
  rw [exec_lockCheck hl hc h0, if_neg (by omega)]
  by_cases hall : ∀ r, r < 16 → (s.region r).locked = true
  · rw [if_pos (by simpa using hall)]
    exact ⟨_, rfl, rfl, fun _ => rfl, fun ⟨r, hr, hn⟩ => by simp [hall r hr] at hn⟩
  · rw [if_neg (by simpa using hall)]
    exact ⟨_, rfl, rfl, fun h => absurd h hall, fun _ => ⟨rfl, rfl, rfl⟩⟩

theorem exec_changeHold (h1 : c.stage = 1) : exec .changeHold s = .next
    (if s.epoch + 32 < c.n then s
    else ({ s with hold := { s.hold with change := true }, clk := { s.clk with change := some { c with stage := 2 } } } : State).settleHold) := by
  refine (live_of s _ hl).trans (congrArg _ ?_)
  simp only [hc, h1, ne_eq, not_true_eq_false, false_or]

theorem changeHold_raises (h1 : c.stage = 1) :
    (s.epoch + 32 < c.n → exec .changeHold s = .next s) ∧
    (c.n ≤ s.epoch + 32 → s.mayPass = false ∧ ∃ t, exec .changeHold s = .next t ∧ t = { s with clk := t.clk, hold := t.hold } ∧
      t.hold.change = true ∧ t.hold.raising = true ∧ (∀ x ∈ t.anyRaised, x ∈ s.anyRaised) ∧ t.clk = { s.clk with change := some { c with stage := 2 } }) := by
  refine ⟨fun h => by rw [exec_changeHold hl hc h1, if_pos h], fun h => ⟨State.mayPass_of_change hc (by simp [Change.moment, h1]; rfl) (by omega), ?_⟩⟩
  rw [exec_changeHold hl hc h1, if_neg (by omega)]
  have hframe := State.settleHold_frame { s with hold := { s.hold with change := true }, clk := { s.clk with change := some { c with stage := 2 } } }
  have hclk := congrArg State.clk hframe
  refine ⟨_, rfl, ?_, (State.settleHold_sameCauses _).change, (State.settleHold_raising (State.keepsHold_of_change rfl)).1,
    State.settleHold_anyRaised _, hclk⟩
  rw [hclk]
  exact hframe

/-- Every region at the change's step, after four counts without a period, and no change hold (R512). -/
def State.switched (s : State) (c : Change) : State :=
  { s.mapRegions (fun _ g => { g with step := c.step, lost := g.lost + 4 }) with
    clk := { s.clk with cfg := c.cfg, change := some { c with stage := 3 } }
    hold := { s.hold with change := false }
    epoch := s.epoch + 4 }

/-- The root announces the release at a given epoch (R291, R513). -/
def State.releasedAt (s : State) (n : Nat) : State := { s.announce with hold := { s.announce.hold with release := some n } }

theorem exec_clockSwitch (h2 : c.stage = 2) (hn : c.n ≤ s.epoch) (ht : s.dieTop ≤ c.step) : exec .clockSwitch s = .next
    (if s.allStopped && !(s.switched c).keepsHold then (s.switched c).releasedAt (c.n + 8) else (s.switched c).settleHold) := by
  refine (live_of s _ hl).trans (congrArg _ ?_)
  simp only [hc, h2, ne_eq, not_true_eq_false, false_or]
  rw [if_neg (by omega), if_neg (by omega)]
  rfl

omit hl hc in
/-- What the switch and the root's note after it leave, by the root's registers. -/
theorem State.switched_of_hold {t : State} (h : t = { s.switched c with hold := t.hold }) :
    t = { s with clk := t.clk, hold := t.hold, regions := t.regions, epoch := s.epoch + 4 } ∧ t.clk.cfg = c.cfg ∧
      ∀ r, r < 16 → (t.region r).step = c.step := by
  have hclk : t.clk = (s.switched c).clk := by rw [h]
  have hregions : t.regions = (s.switched c).regions := by rw [h]
  refine ⟨?_, congrArg Clk.cfg hclk, fun r hr => ?_⟩
  · rw [hclk, hregions]
    exact h
  · have hregion := (State.region_mapRegions s (fun _ g => { g with step := c.step, lost := g.lost + 4 }) r).trans (if_pos hr)
    exact congrArg Region.step ((congrArg (fun l => Sparse.get ({} : Region) l r) hregions).trans hregion)

theorem clockSwitch_switches (h2 : c.stage = 2) :
    (s.epoch < c.n → exec .clockSwitch s = .next s) ∧
    (c.n ≤ s.epoch → s.dieTop ≤ c.step → s.mayPass = false ∧
      ∃ t, exec .clockSwitch s = .next t ∧ t = { s with clk := t.clk, hold := t.hold, regions := t.regions, epoch := s.epoch + 4 } ∧
        t.hold.change = false ∧ t.clk.cfg = c.cfg ∧ (∀ r, r < 16 → (t.region r).step = c.step) ∧
        (s.allStopped = true → { s with hold := { s.hold with change := false } }.keepsHold = false → t.hold.release = some (c.n + 8))) := by
  refine ⟨fun h => ?_, fun hn ht => ⟨State.mayPass_of_change hc (by simp [Change.moment, h2]) hn, ?_⟩⟩
  · refine (live_of s _ hl).trans (congrArg _ ?_)
    simp only [hc, h2, ne_eq, not_true_eq_false, false_or, if_pos h]
  · by_cases hrel : (s.allStopped && !(s.switched c).keepsHold) = true
    · obtain ⟨hframe, hcfg, hstep⟩ := State.switched_of_hold (s := s) (c := c) (t := (s.switched c).releasedAt (c.n + 8)) rfl
      exact ⟨_, (exec_clockSwitch hl hc h2 hn ht).trans (congrArg _ (if_pos hrel)), hframe, rfl, hcfg, hstep, fun _ _ => rfl⟩
    · obtain ⟨hframe, hcfg, hstep⟩ := State.switched_of_hold (s.switched c).settleHold_frame
      refine ⟨_, (exec_clockSwitch hl hc h2 hn ht).trans (congrArg _ (if_neg hrel)), hframe, (s.switched c).settleHold_sameCauses.change, hcfg, hstep,
        fun hall hk => absurd ?_ hrel⟩
      have hfree : (s.switched c).keepsHold = false := hk
      simp [hall, hfree]

end

theorem synchronisedChangeRuns : Claims.SynchronisedChangeRuns := by
  refine ⟨fun value s hr hgo => ?request, fun r s hl hr hp => ?lock, fun s c hl hc h0 => lockCheck_judges hl hc h0,
    fun s c hl hc h1 => changeHold_raises hl hc h1, fun s c hl hc h2 => clockSwitch_switches hl hc h2⟩
  case request =>
    obtain ⟨t, hexec, hframe, hstep, hcfg, hrefused, hallowed⟩ := synchronisedChangeRequest_answers hr hgo
    refine ⟨t, hexec, hframe, hstep, hcfg, fun hbusy => hrefused 0 (State.changeRefusal_of_busy hbusy), fun hc he hm => ?_⟩
    have hfree : s.FreeToChange := ⟨hc, he, hm⟩
    have hnone : ∀ e, s.changeRefusal (value % 8) (value / 16 % 8) = e + 1 → t.clk.fchgDone = true ∧ t.clk.fchgResult = e + 1 ∧ t.clk.change = none :=
      fun e h => hc ▸ hrefused e h
    exact ⟨fun h => hnone 5 (State.changeRefusal_of_code hfree h), fun h1 h2 h => hnone 1 (State.changeRefusal_of_fast hfree h1 h2 h),
      fun h1 h2 h3 h => hnone 2 (State.changeRefusal_of_soon hfree h1 h2 h3 h), fun h1 h2 h3 h => hallowed (State.changeRefusal_of_allowed hfree h1 h2 h3 h)⟩
  case lock =>
    obtain ⟨hframe, hothers, hself⟩ := s.setRegion_spec r { s.region r with locked := true }
    exact ⟨_, (live_of s _ hl).trans (congrArg _ (if_pos ⟨hr, hp⟩)), hframe, hself, hothers⟩

/-! ### A stopped change -/

/-- The request's fields in the register. -/
def Clk.stopAsked (c : Clk) (value : Nat) : Clk := { c with ecfStep := bits value 10 8, ecfRegion := value % 16 }

/-- The region stops for the change (R518). -/
def State.stoppedFor (s : State) (value : Nat) : State :=
  ({ s with clk := { s.clk.stopAsked value with ecfBusy := true, ecfPend := some (value % 16, bits value 10 8) } } : State).setRegion (value % 16)
    { s.region (value % 16) with stopped := true, locked := false }

section
variable {s : State} {value : Nat} (hr : s.regAlive = true) (hgo : value / 2 ^ 31 % 2 = 1)
include hr hgo

theorem exec_stoppedChangeRequest : exec (.stoppedChangeRequest value) s = .next
    (if s.run.isSome || s.clk.change.isSome || s.clk.ecfPend.isSome then { s with clk := { s.clk.stopAsked value with ecfResult := 1 } }
    else if decide (5 < value / 256 % 8) || decide (value / 256 % 8 < (s.region (value % 16)).top) || (s.debug && value / 256 % 8 == 0) then
      { s with clk := { s.clk.stopAsked value with ecfResult := 2 } }
    else s.stoppedFor value) :=
  (live_of s _ (State.lost_of_regAlive hr)).trans (congrArg _ (if_neg (by simp [hr, show bitOf value 31 = true from decide_eq_true hgo])))

theorem stoppedChangeRequest_answers : ∃ t, exec (.stoppedChangeRequest value) s = .next t ∧
    t = { s with clk := t.clk, regions := t.regions } ∧ (∀ q, q ≠ value % 16 → t.region q = s.region q) ∧
    (s.run.isSome ∨ s.clk.change.isSome ∨ s.clk.ecfPend.isSome → t.clk.ecfResult = 1 ∧ t.region (value % 16) = s.region (value % 16)) ∧
    (s.run = none → s.clk.change = none → s.clk.ecfPend = none →
      (5 < value / 256 % 8 ∨ value / 256 % 8 < (s.region (value % 16)).top ∨ (s.debug = true ∧ value / 256 % 8 = 0) →
        t.clk.ecfResult = 2 ∧ t.region (value % 16) = s.region (value % 16)) ∧
      (value / 256 % 8 ≤ 5 → (s.region (value % 16)).top ≤ value / 256 % 8 → (s.debug = true → value / 256 % 8 ≠ 0) →
        t.clk.ecfBusy = true ∧ t.clk.ecfPend = some (value % 16, value / 256 % 8) ∧
        t.region (value % 16) = { s.region (value % 16) with stopped := true, locked := false })) := by
  rw [exec_stoppedChangeRequest hr hgo]
  by_cases hbusy : (s.run.isSome || s.clk.change.isSome || s.clk.ecfPend.isSome) = true
  · rw [if_pos hbusy]
    exact ⟨_, rfl, rfl, fun _ _ => rfl, fun _ => ⟨rfl, rfl⟩, fun h1 h2 h3 => by simp [h1, h2, h3] at hbusy⟩
  rw [if_neg hbusy]
  have hfree : ¬ (s.run.isSome ∨ s.clk.change.isSome ∨ s.clk.ecfPend.isSome) := by simpa [or_assoc] using hbusy
  by_cases hfast : (decide (5 < value / 256 % 8) || decide (value / 256 % 8 < (s.region (value % 16)).top) || (s.debug && value / 256 % 8 == 0)) = true
  · rw [if_pos hfast]
    refine ⟨_, rfl, rfl, fun _ _ => rfl, fun h => absurd h hfree, fun _ _ _ => ⟨fun _ => ⟨rfl, rfl⟩, fun h1 h2 h3 => ?_⟩⟩
    simp only [Bool.or_eq_true, Bool.and_eq_true, decide_eq_true_eq, beq_iff_eq] at hfast
    obtain (h | h) | ⟨h, h'⟩ := hfast
    · omega
    · omega
    · exact absurd h' (h3 h)
  · rw [if_neg hfast]
    obtain ⟨-, hothers, hself⟩ := ({ s with clk := { s.clk.stopAsked value with ecfBusy := true, ecfPend := some (value % 16, bits value 10 8) } } : State).setRegion_spec
      (value % 16) { s.region (value % 16) with stopped := true, locked := false }
    exact ⟨_, rfl, rfl, hothers, fun h => absurd h hfree, fun _ _ _ => ⟨fun h => absurd (by simpa [or_assoc] using h) hfast, fun _ _ _ => ⟨rfl, rfl, hself⟩⟩⟩

end

/-- The region runs again at its new step (R518). -/
def State.restarted (s : State) (r step : Nat) : State :=
  ({ s with clk := { s.clk with ecfBusy := false, ecfPend := none, ecfResult := 0 } } : State).setRegion r { s.region r with stopped := false, step := step }

theorem exec_stoppedChangeRestart {s : State} {r step : Nat} (hl : s.clk.lost = false) (hp : s.clk.ecfPend = some (r, step))
    (hk : (s.region r).locked = true) (hw : s.clk.wanted = none) (ht : (s.region r).top ≤ step) :
    exec .stoppedChangeRestart s = .next (s.restarted r step).cfgResume.waitsMet := by
  refine (live_of s _ hl).trans (congrArg _ ?_)
  simp only [hp]
  rw [if_neg (by simp [hk])]
  simp only [decide_eq_true ht, if_true]
  split
  next w hwant => exact absurd (hw.symm.trans hwant) (by simp)
  next => rfl

theorem State.cfgResume_of_none {s : State} (h : s.cfgWait = []) : s.cfgResume = s := by
  rw [State.cfgResume, h]
  exact congrArg (fun w => { s with cfgWait := w }) h.symm

theorem State.cfgResume_of_one {s : State} {off w v : Nat} (h : s.cfgWait = [(off, w, v)]) (hc : s.regWaits off = false) :
    s.cfgResume = { s.cfgWrite off w v with cfgWait := [] } := by
  rw [State.cfgResume, h]
  exact if_neg (by simp [hc])

theorem State.heldBack_of_routeStopped {s : State} {p : Packet} (h : s.routeStopped p.route.1 p.route.2 = true) (id : Nat) :
    s.heldBack id p = true := by simp [State.heldBack, h]

theorem exec_writePacket_of_heldBack {id : Nat} {o : Owner} {a : Nat} {bs : List MByte} {add : Bool} {s : State} (hl : s.clk.lost = false)
    (hid : s.mesh.find? (fun p => p.1 == id) = some (id, .write o a bs add)) (hh : s.heldBack id (.write o a bs add) = true)
    (bad : List Nat) (router : Nat) (hdr : Bool) : exec (.writePacket id bad router hdr) s = .next s := by
  refine (live_of s _ hl).trans (congrArg _ ?_)
  simp only [hid, hh, if_true]

theorem stoppedChangeRuns : Claims.StoppedChangeRuns := by
  refine ⟨fun value s hr hgo => stoppedChangeRequest_answers hr hgo, fun s r step hl hp hk hw ht => ?restart,
    fun id router bad hdr add o a bs s hl hid hstop => ?packet, fun value s hr hv hc => ?bus⟩
  case restart =>
    intro up
    refine ⟨fun hnone => ?_, fun off w v hone hclock => ?_⟩
    · rw [exec_stoppedChangeRestart hl hp hk hw ht, State.cfgResume_of_none (s := s.restarted r step) hnone]
      rfl
    · rw [exec_stoppedChangeRestart hl hp hk hw ht, State.cfgResume_of_one (s := s.restarted r step) hone hclock]
      rfl
  case packet =>
    exact exec_writePacket_of_heldBack hl hid (State.heldBack_of_routeStopped (p := .write o a bs add) hstop id) bad router hdr
  case bus => exact (live_of s _ (State.lost_of_regAlive hr)).trans (congrArg _ (if_neg (by simp [hr, hc, hv])))

/-- Settles O36: each request's refusals in their order, and the moments at which a change goes on. -/
theorem frequencyChangesRun : Obligations.FrequencyChangesRun := ⟨synchronisedChangeRuns, stoppedChangeRuns⟩

end Sys2Proof.Machine
end

section
/-! PROOFS. Start-up to phase 6, the service request, the link's replays (19 R592 to R602; 12 R358; 17 R526, R527). -/

namespace Sys2Proof.Machine

/-! ### Rates of the stacks (R358) -/

/-- No pseudo-channel of stack k fails at rate r. -/
def RatePasses (fails : List (Nat × Nat)) (k r : Nat) : Prop := ∀ f ∈ fails, f.1 / 64 = k → f.2 ≠ r

theorem ratePasses_iff (fails : List (Nat × Nat)) (k r : Nat) : fails.all (fun f => f.1 / 64 != k || f.2 != r) = true ↔ RatePasses fails k r := by
  simp only [RatePasses, List.all_eq_true, Bool.or_eq_true, bne_iff_ne, imp_iff_not_or, ne_eq]

theorem stackRate_eq_none {fails : List (Nat × Nat)} {k : Nat} : stackRate fails k = none ↔ ∀ r, r < 3 → ¬ RatePasses fails k r := by
  simp only [stackRate, List.find?_range_eq_none, Bool.not_eq_true', ← Bool.not_eq_true, ratePasses_iff]

theorem stackRate_eq_some {fails : List (Nat × Nat)} {k r : Nat} :
    stackRate fails k = some r ↔ r < 3 ∧ RatePasses fails k r ∧ ∀ q, q < r → ¬ RatePasses fails k q := by
  simp only [stackRate, List.find?_range_eq_some, Bool.not_eq_true', ← Bool.not_eq_true, ratePasses_iff, List.mem_range]
  exact ⟨fun ⟨h1, h2, h3⟩ => ⟨h2, h1, h3⟩, fun ⟨h2, h1, h3⟩ => ⟨h1, h2, h3⟩⟩

/-! ### Start-up -/

/-- What the calibration of the crossings leaves alone. -/
structure State.SameButTiming (s t : State) : Prop where
  mem : t.mem = s.mem
  boot : t.boot = s.boot
  mgmt : t.mgmt = s.mgmt

theorem crossStep_sameButTiming (cross : List (Nat × Nat)) (s : State) (p : Nat × Nat × Nat) : s.SameButTiming (crossStep cross s p) := by
  unfold crossStep
  extract_lets l ab lower
  split <;> exact ⟨rfl, rfl, rfl⟩

theorem calibration_sameButTiming (cross : List (Nat × Nat)) (l : List (Nat × Nat × Nat)) (s : State) :
    s.SameButTiming (l.foldl (crossStep cross) s) := by
  induction l generalizing s with
  | nil => exact ⟨rfl, rfl, rfl⟩
  | cons p l ih =>
    obtain ⟨hm, hb, hg⟩ := ih (crossStep cross s p)
    obtain ⟨hm', hb', hg'⟩ := crossStep_sameButTiming cross s p
    exact ⟨hm.trans hm', hb.trans hb', hg.trans hg'⟩

/-- Reset released: the modules that entered service and the strap are known (R592, R526). -/
def State.linkUp (s : State) (modules : Nat) (slow : Bool) (strap : Nat) : State :=
  { s with boot := { s.boot with started := true, modules := inService modules, rate := slow, phase := 1 }, mgmt := { s.mgmt with strap := strap % 4 } }

/-- The regions at STEP 5 with their tops, from the record and the gauges' first sample (R597, R598). -/
def State.regionsUp (s : State) (bad : Nat) (up : Nat → Region) : State :=
  { s with
    boot := { s.boot with recBad := bad }, sec := { s.sec with calImage := s.flash }
    regions := Sparse.ofFn {} 16 up }

/-- The stacks in service, each at its rate (R358). -/
def State.stacksUp (s : State) (fails : List (Nat × Nat)) : State :=
  { s with
    memUnits := Sparse.ofFn {} 9 (fun k => if k < 8 then { ready := true, rate := (stackRate fails k).getD 0 } else s.unit 8)
    boot := { s.boot with phase := 6 } }

theorem State.unit_stacksUp (s : State) {fails : List (Nat × Nat)} {k : Nat} (hk : k < 8) :
    (s.stacksUp fails).unit k = { ready := true, rate := (stackRate fails k).getD 0 } :=
  (Sparse.get_ofFn_lt _ _ (by omega)).trans (if_pos hk)

/-- Phases 2 to 4 of a device whose link is up: the regions, then the crossings between them. -/
def State.calibrated (s : State) (bad : Nat) (up : Nat → Region) (cross : List (Nat × Nat)) : State :=
  (Machine.crossings (s.regionsUp bad up).dieTop).foldl (crossStep cross) (s.regionsUp bad up)

/-- What every way that start-up takes leaves: the strap and the modules known, no byte changed. -/
structure State.Started (s : State) (modules strap : Nat) (t : State) : Prop where
  started : t.boot.started = true
  mem : t.mem = s.mem
  strap : t.mgmt.strap = strap % 4
  modules : t.boot.modules = inService modules

section
variable {s t : State} {modules strap : Nat}

theorem State.started_linkUp (s : State) (modules : Nat) (slow : Bool) (strap : Nat) : s.Started modules strap (s.linkUp modules slow strap) :=
  ⟨rfl, rfl, rfl, rfl⟩

theorem State.calibrated_sameButTiming (s : State) (bad : Nat) (up : Nat → Region) (cross : List (Nat × Nat)) :
    (s.regionsUp bad up).SameButTiming (s.calibrated bad up cross) := calibration_sameButTiming cross _ _

theorem State.boot_calibrated (s : State) (bad : Nat) (up : Nat → Region) (cross : List (Nat × Nat)) :
    (s.calibrated bad up cross).boot = { s.boot with recBad := bad } := (s.calibrated_sameButTiming bad up cross).boot

theorem State.failed_calibrated (s : State) (bad : Nat) (up : Nat → Region) (cross : List (Nat × Nat)) :
    (s.calibrated bad up cross).boot.failed = s.boot.failed :=
  (congrArg Boot.failed (s.boot_calibrated bad up cross)).trans rfl

theorem State.failed_stacksUp (s : State) (fails : List (Nat × Nat)) : (s.stacksUp fails).boot.failed = s.boot.failed := rfl

theorem State.Started.calibrated (h : s.Started modules strap t) (bad : Nat) (up : Nat → Region) (cross : List (Nat × Nat)) :
    s.Started modules strap (t.calibrated bad up cross) where
  started := (congrArg Boot.started (t.boot_calibrated bad up cross)).trans h.started
  mem := (t.calibrated_sameButTiming bad up cross).mem.trans h.mem
  strap := (congrArg Mgmt.strap (t.calibrated_sameButTiming bad up cross).mgmt).trans h.strap
  modules := (congrArg Boot.modules (t.boot_calibrated bad up cross)).trans h.modules

theorem State.Started.startFail (h : s.Started modules strap t) (code : Nat) : s.Started modules strap (t.startFail code) :=
  ⟨h.started, h.mem, h.strap, h.modules⟩

theorem State.Started.stacksUp (h : s.Started modules strap t) (fails : List (Nat × Nat)) : s.Started modules strap (t.stacksUp fails) :=
  ⟨h.started, h.mem, h.strap, h.modules⟩

end

section
variable (modules range strap : Nat) (slow : Bool) (drifts temps : List Nat) (cross fails : List (Nat × Nat))

/-- The state after start-up, by the first of its phases that fails. -/
def State.afterStart (s : State) : State :=
  let up := s.linkUp modules slow strap
  let ready := up.calibrated (s.recBad range) (s.regionUp (s.recBad range) drifts temps) cross
  if !s.fuse.mapOk then up.startFail 4
  else if inService modules = 0 then up
  else if crossFails cross then ready.startFail 2
  else if (List.range 8).any (fun k => (stackRate fails k).isNone) then ready.startFail 1
  else ready.stacksUp fails

theorem exec_startUp {s : State} (hl : s.clk.lost = false) (hs : s.boot.started = false) :
    exec (.startUp modules slow range drifts temps cross fails strap) s = .next (s.afterStart modules range strap slow drifts temps cross fails) := by
  refine (live_of s _ hl).trans (congrArg _ ?_)
  simp only [hs, Bool.false_eq_true, if_false]
  unfold State.afterStart
  by_cases hm : (!s.fuse.mapOk) = true
  · rw [if_pos hm, if_pos hm]
    rfl
  rw [if_neg hm, if_neg hm]
  by_cases hu : inService modules = 0
  · rw [if_pos hu, if_pos hu]
    rfl
  rw [if_neg hu, if_neg hu]
  by_cases hc : crossFails cross = true
  · rw [if_pos hc, if_pos hc]
    rfl
  rw [if_neg hc, if_neg hc]
  by_cases hf : ((List.range 8).any fun k => (stackRate fails k).isNone) = true
  · rw [if_pos hf, if_pos hf]
    rfl
  rw [if_neg hf, if_neg hf]
  refine congrArg (fun s3 : State => s3.stacksUp fails) ?_
  rfl

end

/-- The start that a link's modules lead to, once the fuse map is good. -/
theorem startUp_of_map {s : State} {modules range strap : Nat} {slow : Bool} {drifts temps : List Nat} {cross fails : List (Nat × Nat)}
    (hl : s.clk.lost = false) (hs : s.boot.started = false) (hm : s.fuse.mapOk = true) (hu : inService modules ≠ 0) :
    ∃ t, exec (.startUp modules slow range drifts temps cross fails strap) s = .next t ∧ s.Started modules strap t ∧
      (crossFails cross = true → t.boot.failed = true ∧ t.boot.fail = 2) ∧
      (crossFails cross = false → (∃ k, k < 8 ∧ stackRate fails k = none) → t.boot.failed = true ∧ t.boot.fail = 1) ∧
      (crossFails cross = false → (∀ k, k < 8 → stackRate fails k ≠ none) → t.boot.failed = s.boot.failed ∧ t.boot.phase = 6 ∧
        ∀ k, k < 8 → t.unit k = { ready := true, rate := (stackRate fails k).getD 0 }) := by
  have hready := (s.started_linkUp modules slow strap).calibrated (s.recBad range) (s.regionUp (s.recBad range) drifts temps) cross
  rw [exec_startUp _ _ _ _ _ _ _ _ hl hs, State.afterStart, if_neg (by simp [hm]), if_neg hu]
  by_cases hc : crossFails cross = true
  · rw [if_pos hc]
    exact ⟨_, rfl, hready.startFail 2, fun _ => ⟨rfl, rfl⟩, fun h => by simp [hc] at h, fun h => by simp [hc] at h⟩
  rw [if_neg hc]
  by_cases hf : ∃ k, k < 8 ∧ stackRate fails k = none
  · rw [if_pos (by simpa [and_comm] using hf)]
    exact ⟨_, rfl, hready.startFail 1, fun h => absurd h hc, fun _ _ => ⟨rfl, rfl⟩, fun _ h => absurd hf (by push Not; exact h)⟩
  · rw [if_neg (by simpa [and_comm] using hf)]
    refine ⟨_, rfl, hready.stacksUp fails, fun h => absurd h hc, fun _ h => absurd h hf, fun _ _ => ⟨?_, rfl, fun k hk => State.unit_stacksUp _ hk⟩⟩
    exact (State.failed_stacksUp ..).trans (State.failed_calibrated (s.linkUp modules slow strap) _ _ _)

theorem startUpReachesPhaseSix : Claims.StartUpReachesPhaseSix := by
  intro modules range strap slow drifts temps cross fails s hl hs passes
  have hnone : ∀ k, stackRate fails k = none ↔ ∀ r, r < 3 → ¬ passes k r := fun k => stackRate_eq_none
  by_cases hm : s.fuse.mapOk = true
  case neg =>
    have hexec : exec (.startUp modules slow range drifts temps cross fails strap) s = .next ((s.linkUp modules slow strap).startFail 4) :=
      (exec_startUp _ _ _ _ _ _ _ _ hl hs).trans (congrArg _ (if_pos (by simp [hm])))
    exact ⟨_, hexec, rfl, fun _ => rfl, rfl, rfl, fun _ => ⟨rfl, rfl⟩, fun h => absurd h hm, fun h => absurd h hm⟩
  by_cases hu : inService modules = 0
  case pos =>
    have hexec : exec (.startUp modules slow range drifts temps cross fails strap) s = .next (s.linkUp modules slow strap) :=
      (exec_startUp _ _ _ _ _ _ _ _ hl hs).trans (congrArg _ ((if_neg (by simp [hm])).trans (if_pos hu)))
    exact ⟨_, hexec, rfl, fun _ => rfl, rfl, rfl, fun h => by simp [hm] at h, fun _ _ => ⟨rfl, rfl⟩, fun _ h => absurd hu h⟩
  case neg =>
    obtain ⟨t, hexec, ⟨hstarted, hmem, hstrap, hmodules⟩, hcross, hstack, hgood⟩ := startUp_of_map hl hs hm hu
    refine ⟨t, hexec, hstarted, State.byteAt_congr hmem, hstrap, hmodules, fun h => by simp [hm] at h, fun _ h => absurd (hmodules ▸ h) hu,
      fun _ _ => ⟨hcross, fun hc ⟨k, hk, hr⟩ => hstack hc ⟨k, hk, (hnone k).2 hr⟩, fun hc hrates => ?_⟩⟩
    have hsome : ∀ k, k < 8 → stackRate fails k ≠ none := fun k hk h => by
      obtain ⟨r, hr, hp⟩ := hrates k hk
      exact (hnone k).1 h r hr hp
    obtain ⟨hfailed, hphase, hunits⟩ := hgood hc hsome
    refine ⟨hfailed, hphase, fun k hk => ?_⟩
    obtain ⟨r, hr⟩ := Option.ne_none_iff_exists'.1 (hsome k hk)
    obtain ⟨hlt, hp, hfirst⟩ := stackRate_eq_some.1 hr
    exact ⟨r, hlt, hp, hfirst, by rw [hunits k hk, hr]; rfl⟩

/-! ### Service and the link -/

theorem serviceAndLinkReplays : Claims.ServiceAndLinkReplays := by
  refine ⟨fun value s hr hv hserv href hfail hphase => ?service, fun passes s hl hm hd => ?replay⟩
  case service =>
    have hexec : exec (.serviceRequest value) s = .next (match s.serviceRefusal with
        | 0 => { s with meshRegs := { s.meshRegs with service := true, updown := s.goodRouters != BitVec.allOnes 160 }, boot := { s.boot with done := true, phase := 7 } }
        | e => { s with meshRegs := { s.meshRegs with refuse := e }, boot := { s.boot with failed := true, fail := 3, phase := 7 } }) :=
      (live_of s _ (State.lost_of_regAlive hr)).trans (congrArg _ ((if_neg (by simp [hr, bitOf_zero, hv, hserv, href, hfail, hphase])).trans rfl))
    cases h : s.serviceRefusal with
    | zero =>
      simp only [h] at hexec
      exact ⟨_, hexec, rfl, rfl, fun _ => ⟨rfl, rfl, hfail⟩, fun h => absurd rfl h⟩
    | succ e =>
      simp only [h] at hexec
      exact ⟨_, hexec, rfl, rfl, fun h => absurd h (by omega), fun _ => ⟨hserv, rfl, rfl, rfl, rfl⟩⟩
  case replay =>
    refine ⟨_, (live_of s _ hl).trans (congrArg _ (if_neg (by simp [hm, hd]))), rfl, rfl, rfl, ?_⟩
    cases passes <;> simp

/-- Settles O39: each phase that can fail in its order, then the service request and the link's replays. -/
theorem startUpAndService : Obligations.StartUpAndService := ⟨startUpReachesPhaseSix, serviceAndLinkReplays⟩

end Sys2Proof.Machine
end

section
/-! PROOFS. Attestation reports, boot checks, I3C, telemetry, the test access port (21 R633 to R645). -/

namespace Sys2Proof.Machine

/-! ### Requests of the security block (R634, R638, R640) -/

section
variable {s : State} {value : Nat} (hr : s.regAlive = true) (hd : s.boot.done = true)
include hr hd

theorem exec_attestationRequest (ha : value / 2 ^ 31 % 2 = 1) (hb : value / 2 ^ 30 % 2 = 0) : exec (.attestationRequest value) s = .next s.attGo := by
  have hgo : bitOf value 31 = true := decide_eq_true ha
  have hboot : bitOf value 30 = false := decide_eq_false (by omega)
  refine (live_of s _ (State.lost_of_regAlive hr)).trans (congrArg _ ((if_pos (by simp [hr, hd, hgo])).trans ?_))
  rw [State.writeSecCtl, bitOf_mod_two_pow (i := 30) (by decide), bitOf_mod_two_pow (i := 31) (by decide), hgo, hboot]
  rfl

theorem exec_bootCheckRequest (hb : value / 2 ^ 30 % 2 = 1) (ha : value / 2 ^ 31 % 2 = 0) : exec (.bootCheckRequest value) s = .next s.bootGo := by
  have hboot : bitOf value 30 = true := decide_eq_true hb
  have hgo : bitOf value 31 = false := decide_eq_false (by omega)
  refine (live_of s _ (State.lost_of_regAlive hr)).trans (congrArg _ ((if_pos (by simp [hr, hd, hboot])).trans ?_))
  rw [State.writeSecCtl, bitOf_mod_two_pow (i := 30) (by decide), bitOf_mod_two_pow (i := 31) (by decide), hgo, hboot]
  rfl

end

/-- The address of a report is one that it may be written to (R634). -/
def State.ReportFits (s : State) : Prop :=
  s.sec.attAddr % 128 = 0 ∧ (inHost s.sec.attAddr = true ∨ s.sec.attAddr < 0x0C000000000) ∧ s.rangeOkDev false s.sec.attAddr (s.sec.attAddr + 767) = true

theorem State.reportFits_iff (s : State) : s.ReportFits ↔ (s.sec.attAddr % 128 != 0 || !(inHost s.sec.attAddr || decide (s.sec.attAddr < 0x0C000000000)) ||
    !s.rangeOkDev false s.sec.attAddr (s.sec.attAddr + 767)) = false := by
  cases h : inHost s.sec.attAddr <;> simp [State.ReportFits, h, and_assoc]

theorem State.attGo_of_busy {s : State} (h : s.sec.attBusy = true) : s.attGo = s := if_pos h

theorem State.attGo_of_unfit {s : State} (h : s.sec.attBusy = false) (hf : ¬ s.ReportFits) :
    s.attGo = { s with sec := { s.sec with attDone := true, attResult := 1 } } :=
  (if_neg (by simp [h])).trans (if_pos (by rwa [s.reportFits_iff, Bool.not_eq_false] at hf))

/-- A report's bytes captured and its writes on their way (R635). -/
def State.captured (s : State) : State :=
  ({ s with sec := { s.sec with report := some s.reportBytes768, repOut := (chunks s.sec.attAddr s.reportBytes768).length } } : State).send
    ((chunks s.sec.attAddr s.reportBytes768).map (fun w => Packet.write .report w.1 (markAll false w.2) false))

theorem State.secStart_of_free {s : State} {l : List Bool} (hq : s.sec.queue = true :: l) (hr : s.sec.report = none) (hc : s.celBusy = false)
    (hp : s.replacing = none) : s.secStart = s.captured := by
  unfold State.secStart
  rw [hq]
  exact if_neg (by simp [hr, hc, hp])

/-- What a report says does not depend on the requests that wait. -/
theorem State.reportBytes768_queue (s : State) (busy : Bool) (queue : List Bool) :
    ({ s with sec := { s.sec with attBusy := busy, queue := queue } } : State).reportBytes768 = s.reportBytes768 := rfl

theorem State.secNext_of_single {s : State} {b : Bool} (h : s.sec.queue = [b]) : s.secNext = { s with sec := { s.sec with queue := [] } } := by
  rw [State.secNext, h]
  rfl

/-! ### The end of a boot check (R638, R639) -/

/-- The state with a boot check's outcome in the registers. -/
def State.bootEnded (s : State) (r : Nat × List Byte) : State :=
  { s with sec := { s.sec with
      bootBusy := false, bootDone := true, bootResult := r.1
      bootDigest := if r.1 = 0 then some (sha256 (bootMessage r.2)) else s.sec.bootDigest } }

theorem exec_bootCheckEnd {s : State} (err : Bool) (hl : s.clk.lost = false) (hq : s.sec.queue = [false]) :
    exec (.bootCheckEnd err) s = .next (if s.bootWaits s.sec.bootAddr then s
      else ((s.noteRead s.sec.bootAddr (s.bootCheck s.sec.bootAddr err).2.length).bootEnded (s.bootCheck s.sec.bootAddr err)).secNext) := by
  refine (live_of s _ hl).trans (congrArg _ ?_)
  simp only [hq]
  rfl

/-- Settles O54: each request by what it finds, and each end by what the queue then holds. -/
theorem securityRequestsAct : Obligations.SecurityRequestsAct := by
  refine ⟨fun value s hr hd ha hb => ⟨fun h => ?busy, fun h hbad => ?refused, fun h hgood hq hrep hc hp => ?accepted⟩,
    fun err s r hl hq hrep => ?reportEnd, fun value s hr hd hb ha => exec_bootCheckRequest hr hd hb ha, fun err s hl hq => ?check⟩
  case busy => rw [exec_attestationRequest hr hd ha hb, State.attGo_of_busy h]
  case refused => rw [exec_attestationRequest hr hd ha hb, State.attGo_of_unfit h hbad]
  case accepted =>
    have hgo : s.attGo = ({ s with sec := { s.sec with attBusy := true, queue := [true] } } : State).captured := by
      refine (if_neg (by simp [h])).trans ((if_neg ?_).trans ?_)
      · rw [(s.reportFits_iff).1 hgood]
        exact Bool.false_ne_true
      · rw [hq]
        exact State.secStart_of_free rfl hrep hc hp
    refine ⟨_, _, (exec_attestationRequest hr hd ha hb).trans (congrArg _ hgo), rfl, rfl, rfl, s.reportBytes768_queue true [true], rfl, State.byteAt_congr rfl⟩
  case reportEnd =>
    have hexec : exec (.attestationDone err) s = .next (if 0 < s.sec.repOut then s
        else ({ s with sec := { s.sec with report := none, attBusy := false, attDone := true, attResult := if err then 2 else 0 } } : State).secNext) := by
      refine (live_of s _ hl).trans (congrArg _ ?_)
      simp only [hq, hrep]
      rfl
    refine ⟨fun h => by rw [hexec, if_pos h], fun h => ?_⟩
    rw [hexec, if_neg (by omega)]
    exact congrArg _ (State.secNext_of_single hq)
  case check =>
    intro r
    rw [exec_bootCheckEnd err hl hq]
    refine ⟨fun hw => by rw [if_pos hw], fun hw => ?_⟩
    have hnoted := s.noteRead_onlyNoted s.sec.bootAddr r.2.length
    have hsec : (s.noteRead s.sec.bootAddr r.2.length).sec = s.sec := (congrArg State.sec hnoted.device :)
    have hqueue : ((s.noteRead s.sec.bootAddr r.2.length).bootEnded r).sec.queue = [false] := (congrArg Sec.queue hsec).trans hq
    refine ⟨_, congrArg _ ((if_neg (by simp [hw])).trans (State.secNext_of_single hqueue)), rfl, rfl, rfl, rfl, fun h => if_pos h, fun h => ?_, State.byteAt_congr hnoted.mem⟩
    exact (if_neg h).trans (congrArg Sec.bootDigest hsec)

/-! ### Reads (R642) -/

/-- The offset alone moves with the bytes of a read by I3C, and the captured item with it. -/
theorem mgmtReadGo_spec (n : Nat) : ∀ (s : State) (acc : List Byte), s.mgmt.offset < 2 ^ 16 → ∃ item data,
    mgmtReadGo n s acc = ({ s with mgmt := { s.mgmt with offset := (s.mgmt.offset + n) % 2 ^ 16, item := item } }, acc ++ data) ∧ data.length = n := by
  induction n with
  | zero =>
    intro s acc h
    refine ⟨s.mgmt.item, [], ?_, rfl⟩
    rw [Nat.add_zero, Nat.mod_eq_of_lt h, List.append_nil]
    rfl
  | succ n ih =>
    intro s acc _
    obtain ⟨item, data, heq, hlen⟩ := ih s.mgmtNext.1 (acc ++ [s.mgmtNext.2]) (Nat.mod_lt _ (by decide))
    refine ⟨item, s.mgmtNext.2 :: data, ?_, by simp [hlen]⟩
    rw [mgmtReadGo, heq, List.append_assoc, List.singleton_append]
    have hoff : (s.mgmtNext.1.mgmt.offset + n) % 2 ^ 16 = (s.mgmt.offset + (n + 1)) % 2 ^ 16 := by
      show ((s.mgmt.offset + 1) % 2 ^ 16 + n) % 2 ^ 16 = _
      omega
    rw [hoff]
    rfl

/-- A byte of a captured item. -/
theorem State.mgmtNext_of_item {s : State} {base k : Nat} {l : List Byte} (hi : s.mgmt.item = some (base, l)) (hb : base % 8 = 0)
    (ho : s.mgmt.offset = base + k) (hk : 0 < k) (hk8 : k < 8) :
    s.mgmtNext = ({ s with mgmt := { s.mgmt with offset := (base + (k + 1)) % 2 ^ 16, item := some (base, l) } }, l.getD k 0) := by
  have hmod : (base + k) % 8 = k := by omega
  have hbase : (base + k) / 8 * 8 = base := by omega
  simp only [State.mgmtNext, ho, hmod, hbase, if_neg (Nat.ne_of_gt hk), hi, if_true, Nat.add_assoc]

/-- The captured item is read on from its byte k. -/
theorem mgmtReadGo_of_item {base : Nat} {l : List Byte} (hb : base % 8 = 0) (hlt : base < 2 ^ 16) (m : Nat) :
    ∀ (k : Nat) (s : State) (acc : List Byte), s.mgmt.item = some (base, l) → s.mgmt.offset = (base + k) % 2 ^ 16 → 0 < k → k + m = 8 →
    (mgmtReadGo m s acc).2 = acc ++ (List.range' k m).map (fun i => l.getD i 0) := by
  induction m with
  | zero => intro k s acc _ _ _ _; simp [mgmtReadGo]
  | succ m ih =>
    intro k s acc hi ho hk hsum
    have hoff : s.mgmt.offset = base + k := by omega
    rw [mgmtReadGo, State.mgmtNext_of_item hi hb hoff hk (by omega), ih (k + 1) _ _ rfl rfl (by omega) (by omega)]
    simp [List.range'_succ]

/-- Eight bytes from an aligned offset are the item as its first byte found it. -/
theorem mgmtReadGo_eight {s : State} (hlt : s.mgmt.offset < 2 ^ 16) (ha : s.mgmt.offset % 8 = 0) :
    (mgmtReadGo 8 s []).2 = s.mgmtBytes s.mgmt.offset 8 := by
  have hbase : s.mgmt.offset / 8 * 8 = s.mgmt.offset := by omega
  have hfirst : s.mgmtNext = ({ s with mgmt := { s.mgmt with
      offset := (s.mgmt.offset + 1) % 2 ^ 16, item := some (s.mgmt.offset, s.mgmtBytes s.mgmt.offset 8) } }, (s.mgmtBytes s.mgmt.offset 8).getD 0 0) := by
    simp only [State.mgmtNext, ha, hbase, if_true]
  have hlen : (s.mgmtBytes s.mgmt.offset 8).length = 8 := by simp [State.mgmtBytes]
  rw [mgmtReadGo, hfirst, mgmtReadGo_of_item ha hlt 7 1 _ _ rfl rfl (by decide) (by decide)]
  refine List.ext_getElem (by simp [hlen]) fun i h1 h2 => ?_
  rcases i with _ | i
  · simp [List.getElem?_eq_getElem h2]
  · simp [List.getD_eq_getElem?_getD, Nat.add_comm 1 i, h2]

/-! ### I3C, telemetry, the test access port -/

theorem State.i3cAlive_of {s : State} (hl : s.clk.lost = false) (hs : s.boot.started = true) : s.i3cAlive = true := by
  simp [State.i3cAlive, hl, hs]

/-- An instruction that leaves the balls to the device. -/
theorem State.jtagInstr_of_quiet (s : State) (i : Nat) : s.jtagInstr i false = { s with jtag := { s.jtag with instr := i } } := by
  simp [State.jtagInstr]

/-- An instruction that takes the balls. -/
theorem State.jtagInstr_of_driving (s : State) (i : Nat) : s.jtagInstr i true = { s with jtag := { s.jtag with instr := i, driven := true } } := by
  simp [State.jtagInstr]

/-- The bypass register's own bit comes out first. -/
theorem shiftOut_bypass (data : List Bool) : shiftOut (false :: data) = 2 * shiftOut data := Nat.zero_add _

section
variable (s : State) (pins data : List Bool)

theorem exec_jtagBypass : exec (.jtagBypass data) s =
    .next { s with jtag := { s.jtag with instr := 0 }, outbox := s.outbox ++ [.jtag (2 * shiftOut data)] } := by
  rw [← shiftOut_bypass]
  exact congrArg (fun t : State => Host.Outcome.next (t.emit (.jtag (shiftOut (false :: data))))) (s.jtagInstr_of_quiet 0)

theorem exec_jtagIdcode : exec .jtagIdcode s =
    .next { s with jtag := { s.jtag with instr := 1 }, outbox := s.outbox ++ [.jtag (0x0530956B + s.fuse.stepping % 16 * 2 ^ 28)] } :=
  congrArg (fun t : State => Host.Outcome.next (t.emit (.jtag (0x0530956B + s.fuse.stepping % 16 * 2 ^ 28)))) (s.jtagInstr_of_quiet 1)

theorem exec_samplePreload : exec (.samplePreload pins data) s =
    .next { s with jtag := { s.jtag with instr := 2, boundary := data }, outbox := s.outbox ++ [.jtag (shiftOut pins)] } :=
  congrArg (fun t : State => Host.Outcome.next (({ t with jtag := { t.jtag with boundary := data } } : State).emit (.jtag (shiftOut pins)))) (s.jtagInstr_of_quiet 2)

theorem exec_jtagExtest : exec (.jtagExtest pins data) s =
    .next { s with jtag := { s.jtag with instr := 3, driven := true, boundary := data }, outbox := s.outbox ++ [.jtag (shiftOut pins)] } :=
  congrArg (fun t : State => Host.Outcome.next (({ t with jtag := { t.jtag with boundary := data } } : State).emit (.jtag (shiftOut pins)))) (s.jtagInstr_of_driving 3)

theorem exec_jtagClamp : exec (.jtagClamp data) s =
    .next { s with jtag := { s.jtag with instr := 4, driven := true }, outbox := s.outbox ++ [.jtag (2 * shiftOut data)] } := by
  rw [← shiftOut_bypass]
  exact congrArg (fun t : State => Host.Outcome.next (t.emit (.jtag (shiftOut (false :: data))))) (s.jtagInstr_of_driving 4)

theorem exec_jtagHighz : exec (.jtagHighz data) s =
    .next { s with jtag := { s.jtag with instr := 5, driven := true }, outbox := s.outbox ++ [.jtag (2 * shiftOut data)] } := by
  rw [← shiftOut_bypass]
  exact congrArg (fun t : State => Host.Outcome.next (t.emit (.jtag (shiftOut (false :: data))))) (s.jtagInstr_of_driving 5)

end

/-- Settles O55: the management target's transfers, the rails' samples, and each instruction of the test port. -/
theorem managementAndTestPort : Obligations.ManagementAndTestPort := by
  refine ⟨fun s hl hst => ?i3c, fun s => ⟨fun data => exec_jtagBypass s data, exec_jtagIdcode s, fun pins data => exec_samplePreload s pins data,
    fun pins data => exec_jtagExtest s pins data, fun data => exec_jtagClamp s data, fun data => exec_jtagHighz s data⟩⟩
  case i3c =>
    have hal := State.i3cAlive_of hl hst
    refine ⟨fun static dyn hnone haddr => ?_, fun dyn hnone => ?_, fun addr lo hi hm => ?_, fun addr data hlen => ?_, fun addr n hm ho => ?_, fun rails => ?_⟩
    · exact (live_of s _ hl).trans (congrArg _ (if_pos (by simp [hal, hnone, Mgmt.static, haddr])))
    · exact ⟨_, _, (live_of s _ hl).trans (congrArg _ (if_pos (by simp [hal, hnone]))), rfl, List.reverse_reverse _⟩
    · exact (live_of s _ hl).trans (congrArg _ (if_pos (by simp [hal, hm])))
    · exact (live_of s _ hl).trans (congrArg _ (if_neg (by simp [hlen])))
    · obtain ⟨item, data, heq, hlen⟩ := mgmtReadGo_spec n s [] ho
      refine ⟨_, data, (live_of s _ hl).trans (congrArg _ ((if_pos (by simp [hal, hm])).trans (congrArg (fun r : State × List Byte => r.1.emit (.i3c r.2)) heq))),
        rfl, hlen, rfl, fun h8 ha => ?_⟩
      subst h8
      exact (congrArg Prod.snd heq).symm.trans (mgmtReadGo_eight ho ha)
    · refine ⟨_, (live_of s _ hl).trans (congrArg _ (if_pos hal)), rfl, fun i hi => ?_⟩
      simp [List.getD_eq_getElem?_getD, hi]

end Sys2Proof.Machine
end

section
/-! PROOFS. Writes that land and their acknowledgements (15 R455, R463; 12 R371; 17 R533). -/

namespace Sys2Proof.Machine

/-! ### Numbers of packets and host writes -/

theorem State.meshId_le_hostWrite (s : State) (a : Nat) (bs : List MByte) (o : Owner) : s.meshId ≤ (s.hostWrite a bs o).meshId := by
  simp only [State.hostWrite]
  split <;> exact Nat.le_succ _

theorem State.meshId_le_post {s t : State} {e : Nat} {rec : List Byte} (h : s.post e rec = some t) : s.meshId ≤ t.meshId := by
  simp only [State.post] at h
  split at h
  · cases h
    exact State.meshId_le_hostWrite (s.setEring e _) ..
  · split at h <;> cases h
    exact Nat.le_refl _

theorem State.meshId_le_memEvent (s : State) (u status a : Nat) : s.meshId ≤ (s.memEvent u status a).meshId := by
  simp only [State.memEvent, State.postEvent]
  split
  next h => exact (State.meshId_le_post h :)
  next => exact Nat.le_refl _

theorem State.meshId_le_noteWrite (s : State) (a : Nat) (bs : List MByte) : s.meshId ≤ (s.noteWrite a bs).meshId := by
  simp only [State.noteWrite]
  split
  · exact List.foldlRecOn (motive := fun t : State => s.meshId ≤ t.meshId) _ State.wordPoisoned (Nat.le_refl _) fun t ht w _ =>
      ht.trans (State.meshId_le_memEvent (t.setUnit (unitOf (8 * w)) _) ..)
  · exact Nat.le_refl _

/-- One packet on the mesh, behind the others and with the next number. -/
theorem State.send_single (s : State) (p : Packet) :
    (s.send [p]).mesh = s.mesh ++ [((s.send [p]).meshId - 1, p)] ∧ (s.send [p]).meshId = s.meshId + 1 := ⟨rfl, rfl⟩

/-! ### A write that lands -/

/-- Every byte after a write, and the marks that a scratchpad's bytes take. -/
theorem State.byteAt_noteWrite (s : State) (a : Nat) (bs : List MByte) (x : Nat) :
    (s.noteWrite a bs).byteAt x = if a ≤ x ∧ x < a + bs.length then (bs.map Prod.fst).getD (x - a) 0 else s.byteAt x :=
  (State.byteAt_congr (s.noteWrite_onlyNoted a bs).mem x).trans (s.byteAt_storeBytes a bs x)

theorem State.byteBad_noteWrite_of_spad (s : State) {a i : Nat} {bs : List MByte} (ha : inSpad a = true) (hi : i < bs.length)
    (hx : inSpad (a + i) = true) : (s.noteWrite a bs).byteBad (a + i) = (bs.getD i (0, false)).2 := by
  have hpar : (s.noteWrite a bs).bytePar = Sparse.setRange false s.bytePar a (fun i => (bs.getD i (0, false)).2) bs.length :=
    (s.noteWrite_onlyNoted a bs).bytePar.trans (if_pos ha)
  rw [State.byteBad, if_pos hx, hpar, Sparse.get_setRange, if_pos ⟨by omega, by omega⟩, Nat.add_sub_cancel_left]

theorem exec_writePacket_of_device {id a router : Nat} {o : Owner} {bs : List MByte} {s : State} (hl : s.clk.lost = false)
    (hid : s.mesh.find? (fun p => p.1 == id) = some (id, .write o a bs false)) (hh : s.heldBack id (.write o a bs false) = false)
    (hb : s.busyAt a bs.length = false) (hr : s.hasRoom (portOf a) 3 = true) (hhost : inHost a = false) (hpeer : inPeer a = false) :
    exec (.writePacket id [] router false) s = .next ((({ s with
      mesh := s.mesh.filter (fun p => p.1 != id), noProgress := if o.moves then 0 else s.noProgress } : State).noteWrite a bs).send [.ack o a]) := by
  refine (live_of s _ hl).trans (congrArg _ ?_)
  simp only [hid, hh, hb, hr, hhost, hpeer, State.payload_nil, Bool.false_eq_true, if_false, Bool.not_true, Bool.or_false]

/-! ### Acknowledgements -/

theorem exec_writeAcknowledgement_of_ack {id a : Nat} {o : Owner} {s : State} (hl : s.clk.lost = false)
    (hid : s.mesh.find? (fun p => p.1 == id) = some (id, .ack o a)) (hh : s.heldBack id (.ack o a) = false) :
    exec (.writeAcknowledgement ⟨id, none⟩) s = .next (({ s with mesh := s.mesh.filter (fun p => p.1 != id) } : State).acked o) := by
  refine (live_of s _ hl).trans (congrArg _ ?_)
  simp only [hid, hh, Bool.false_eq_true, if_false]
  rfl

theorem State.acked_transfer {s : State} {c q id : Nat} {x : Transfer} (hx : s.transfer c q id = some x) :
    s.acked (.transfer c q id) = s.putTransfer c q { x with outst := x.outst - 1, doneAt := s.epoch } := by
  simp only [State.acked, hx]

/-- The bytes of a host write are visible, and it is no longer on its way. -/
def State.hostVisible (s : State) (h : HostWrite) : State :=
  { s with hostWrites := s.hostWrites.filter (fun q => q.id != h.id), mem := putBytes s.mem h.addr (h.bytes.map Prod.fst) }

theorem exec_writeAcknowledgement_of_host {id : Nat} {h : HostWrite} {s : State} (hl : s.clk.lost = false) (hn : ∀ p ∈ s.mesh, p.1 ≠ id)
    (hf : s.hostWrites.find? (fun h => h.id == id) = some h) (hd : s.linkDown = false) (ho : h.owner = .none) :
    exec (.writeAcknowledgement ⟨id, none⟩) s = .next (s.hostVisible h) := by
  have hnone : s.mesh.find? (fun p => p.1 == id) = none := List.find?_eq_none.2 fun p hp => by simpa using hn p hp
  have hid : h.id = id := by simpa using List.find?_some hf
  subst hid
  have hfree : s.recordBlocked h = false := by simp only [State.recordBlocked, ho]
  refine (live_of s _ hl).trans (congrArg _ ?_)
  simp only [hnone, hf]
  rw [if_neg (by simp [hd, hfree])]
  simp only [ho]
  rfl

/-- Settles O28: the write's bytes and marks, then the two acknowledgements. -/
theorem writesLandAndAcknowledge : Obligations.WritesLandAndAcknowledge := by
  refine ⟨fun id a router o bs s hl hid hh hb hr hhost hpeer => ?write, fun id core q tid a s x hl hid hx hh => ?ack,
    fun id h s hl hn hf hd ho => ?host⟩
  case write =>
    have hnoted := State.noteWrite_onlyNoted { s with mesh := s.mesh.filter (fun p => p.1 != id), noProgress := if o.moves then 0 else s.noProgress } a bs
    have hmeshId := State.meshId_le_noteWrite { s with mesh := s.mesh.filter (fun p => p.1 != id), noProgress := if o.moves then 0 else s.noProgress } a bs
    refine ⟨_, exec_writePacket_of_device hl hid hh hb hr hhost hpeer, fun x => ?_, ?_, Nat.lt_succ_of_le hmeshId, fun ha i hi hx => ?_⟩
    · exact State.byteAt_noteWrite ..
    · exact congrArg (· ++ _) (congrArg State.mesh hnoted.device :)
    · exact State.byteBad_noteWrite_of_spad _ ha hi hx
  case ack =>
    refine ⟨_, (exec_writeAcknowledgement_of_ack hl hid hh).trans (congrArg _ (State.acked_transfer hx)), fun b => rfl, rfl,
      _, State.transfer_putTransfer hx (State.id_of_transfer hx :), rfl, rfl, rfl, rfl⟩
  case host =>
    have hid : h.id = id := by simpa using List.find?_some hf
    refine ⟨_, exec_writeAcknowledgement_of_host hl hn hf hd ho, by rw [← hid]; rfl, fun x => ?_⟩
    exact (get_putBytes ..).trans (by simp only [List.length_map]; rfl)

end Sys2Proof.Machine
end

section
/-! PROOFS. Command rings, event rings and the records of completed commands (17 R537 to R554; 18 R562). -/

namespace Sys2Proof.Machine

/-! ### What records leave of the command rings (R548, R549) -/

/-- A command ring without what the posting of records moves: its SEQ and what blocks it. -/
def CRing.unposted (k : CRing) : CRing := { k with seq := 0, blocked := none }

theorem State.hostWrite_crings (s : State) (a : Nat) (bs : List MByte) (o : Owner) : (s.hostWrite a bs o).crings = s.crings := by
  simp only [State.hostWrite]
  split <;> rfl

theorem State.post_crings {s t : State} {e : Nat} {rec : List Byte} (h : s.post e rec = some t) : t.crings = s.crings := by
  simp only [State.post] at h
  split at h
  · cases h
    exact State.hostWrite_crings (s.setEring e _) ..
  · split at h <;> cases h
    rfl

theorem State.cring_congr {s t : State} (h : t.crings = s.crings) (r : Nat) : t.cring r = s.cring r := congrArg (Sparse.get ({} : CRing) · r) h

theorem State.unposted_setCring {s : State} {r : Nat} {k : CRing} (h : k.unposted = (s.cring r).unposted) (q : Nat) :
    ((s.setCring r k).cring q).unposted = (s.cring q).unposted := by
  rw [State.cring_setCring]
  split
  next hq => rw [hq, h]
  next => rfl

theorem State.unposted_endCmd (s : State) (id q : Nat) : ((s.endCmd id).cring q).unposted = (s.cring q).unposted := by
  simp only [State.endCmd]
  split
  · rfl
  · split
    next => rfl
    next c _ =>
      split
      · exact State.unposted_setCring (k := { s.cring c.ring with blocked := none })
          (s := { s with cmds := s.cmds.filter (fun c => c.id != id), noProgress := 0 }) rfl q
      · rfl

theorem State.unposted_postWait {s t : State} {w : WaitRec} (h : s.postWait w = some t) (q : Nat) : (t.cring q).unposted = (s.cring q).unposted := by
  simp only [State.postWait] at h
  split at h
  next u hu =>
    cases h
    have hcrings := State.post_crings hu
    refine (State.unposted_endCmd ..).trans ((State.unposted_setCring ?_ q).trans (congrArg CRing.unposted (State.cring_congr hcrings q)))
    rw [State.cring_congr hcrings]
    rfl
  next => cases h

theorem unposted_flushList (l : List WaitRec) (s : State) (q : Nat) : ((flushList l s).cring q).unposted = (s.cring q).unposted := by
  induction l generalizing s with
  | nil => rfl
  | cons w l ih =>
    unfold flushList
    split
    next h => exact (ih _).trans (State.unposted_postWait h q)
    next => exact ih _

/-- A ring put into error: its state, and what is not delivered discarded (R539, R543). -/
theorem State.cring_ringError (s : State) (r err : Nat) :
    ((s.ringError r err).cring r).unposted = { (s.cring r).unposted with state := 2, err := err, descs := [] } := by
  refine (unposted_flushList _ _ r).trans ?_
  exact congrArg CRing.unposted ((State.cring_setCring ..).trans (if_pos rfl))

/-! ### Command rings (R537 to R543) -/

theorem State.writeCringCtl_of_start {s : State} {r value : Nat} (hv : value / 2 ^ 31 % 2 = 1) (he : (s.cring r).en = false)
    (hlo : 4 ≤ value % 32) (hhi : value % 32 ≤ 16) :
    s.writeCringCtl r (value % 2 ^ 32) = s.setCring r { s.cring r with
      log2 := value % 32, evt := value / 2 ^ 8 % 8, prio := decide (value / 2 ^ 12 % 2 = 1), en := true, state := 1, err := 0, head := 0, tail := 0
      seq := 0, descs := [] } := by
  have hlog : value % 2 ^ 32 % 32 = value % 32 := by omega
  have hevt : bits (value % 2 ^ 32) 10 8 = value / 2 ^ 8 % 8 := by simp only [bits]; omega
  have hprio : bitOf (value % 2 ^ 32) 12 = decide (value / 2 ^ 12 % 2 = 1) := bitOf_mod_two_pow (by decide)
  have hen : bitOf (value % 2 ^ 32) 31 = true := (bitOf_mod_two_pow (by decide)).trans (decide_eq_true hv)
  rw [State.writeCringCtl, hlog, hevt, hprio, hen]
  exact (if_neg (by simp [he])).trans (if_neg (by omega))

theorem State.writeCringCtl_of_stop {s : State} {r value : Nat} (hv : value / 2 ^ 31 % 2 = 0) (he : (s.cring r).en = true) :
    s.writeCringCtl r (value % 2 ^ 32) = s.setCring r { s.cring r with en := false, state := 0, descs := [] } := by
  have hen : bitOf (value % 2 ^ 32) 31 = false := (bitOf_mod_two_pow (by decide)).trans (decide_eq_false (by omega))
  rw [State.writeCringCtl, hen]
  exact (if_pos he).trans (if_neg Bool.false_ne_true)

/-- The host's own stores change the bytes of host memory that they name. -/
theorem State.byteAt_hostStores (s : State) {host : List Host.Cell} {a : Nat} (h : ∀ p ∈ host, inHost p.1 = true → p.1 ≠ a) :
    (s.hostStores host).byteAt a = s.byteAt a := by
  refine List.foldlRecOn (motive := fun m => Sparse.get unlisted m a = Sparse.get unlisted s.mem a) _ _ rfl fun m hm p hp => ?_
  split
  next hhost => exact (Sparse.get_set_ne _ _ _ (h p hp hhost).symm).trans hm
  next => exact hm

section
variable {r value : Nat} {host : List Host.Cell} {s : State} (hr : s.regAlive = true) (hd : s.boot.done = true) (hlt : r < 64)
  (hv : value < 2 ^ 32) (he : (s.cring r).en = true) (hs : (s.cring r).state ≠ 2) (hne : value ≠ (s.cring r).tail)
include hr hd hlt hv he hs hne

theorem exec_doorbell : exec (.doorbell r value host) s = .next
    (if 2 ^ (s.cring r).log2 < (value + 2 ^ 32 - (s.cring r).head) % 2 ^ 32 then (s.hostStores host).ringError r 1
    else if 2 ^ 31 ≤ (value + 2 ^ 32 - (s.cring r).tail) % 2 ^ 32 then (s.hostStores host).ringError r 2
    else (s.hostStores host).setCring r { s.cring r with tail := value }) := by
  refine (live_of s _ (State.lost_of_regAlive hr)).trans (congrArg _ ((if_neg ?_).trans (if_neg ?_)))
  · have hr' : (s.hostStores host).regAlive = true := hr
    have hd' : (s.hostStores host).boot.done = true := hd
    have he' : ((s.hostStores host).cring r).en = true := he
    simp [-Nat.reducePow, hr', hd', he', hlt, hv]
  · exact not_or.2 ⟨hne, hs⟩

theorem doorbell_moves : ∃ t, exec (.doorbell r value host) s = .next t ∧ (∀ a, (∀ p ∈ host, inHost p.1 = true → p.1 ≠ a) → t.byteAt a = s.byteAt a) ∧
    (2 ^ (s.cring r).log2 < (value + 2 ^ 32 - (s.cring r).head) % 2 ^ 32 →
      (t.cring r).state = 2 ∧ (t.cring r).err = 1 ∧ (t.cring r).tail = (s.cring r).tail) ∧
    ((value + 2 ^ 32 - (s.cring r).head) % 2 ^ 32 ≤ 2 ^ (s.cring r).log2 → 2 ^ 31 ≤ (value + 2 ^ 32 - (s.cring r).tail) % 2 ^ 32 →
      (t.cring r).state = 2 ∧ (t.cring r).err = 2 ∧ (t.cring r).tail = (s.cring r).tail) ∧
    ((value + 2 ^ 32 - (s.cring r).head) % 2 ^ 32 ≤ 2 ^ (s.cring r).log2 → (value + 2 ^ 32 - (s.cring r).tail) % 2 ^ 32 < 2 ^ 31 →
      t = { s with mem := t.mem, crings := t.crings } ∧ t.cring r = { s.cring r with tail := value } ∧ ∀ q, q ≠ r → t.cring q = s.cring q) := by
  have herr : ∀ err, (((s.hostStores host).ringError r err).cring r).state = 2 ∧ (((s.hostStores host).ringError r err).cring r).err = err ∧
      (((s.hostStores host).ringError r err).cring r).tail = (s.cring r).tail := fun err => by
    have h := (s.hostStores host).cring_ringError r err
    exact ⟨(congrArg CRing.state h :), (congrArg CRing.err h :), (congrArg CRing.tail h :)⟩
  have hmem : ∀ (err a : Nat), (∀ p ∈ host, inHost p.1 = true → p.1 ≠ a) → ((s.hostStores host).ringError r err).byteAt a = s.byteAt a :=
    fun err a h => (State.byteAt_congr (State.ringError_mem ..) a).trans (s.byteAt_hostStores h)
  rw [exec_doorbell hr hd hlt hv he hs hne]
  by_cases h1 : 2 ^ (s.cring r).log2 < (value + 2 ^ 32 - (s.cring r).head) % 2 ^ 32
  · rw [if_pos h1]
    exact ⟨_, rfl, hmem 1, fun _ => herr 1, fun h => absurd h1 (Nat.not_lt.2 h), fun h => absurd h1 (Nat.not_lt.2 h)⟩
  rw [if_neg h1]
  by_cases h2 : 2 ^ 31 ≤ (value + 2 ^ 32 - (s.cring r).tail) % 2 ^ 32
  · rw [if_pos h2]
    exact ⟨_, rfl, hmem 2, fun h => absurd h h1, fun _ _ => herr 2, fun _ h => absurd h2 (Nat.not_le.2 h)⟩
  · rw [if_neg h2]
    refine ⟨_, rfl, fun a => s.byteAt_hostStores, fun h => absurd h h1, fun _ h => absurd h h2, fun _ _ => ⟨rfl, ?_, fun q hq => ?_⟩⟩
    · exact (State.cring_setCring ..).trans (if_pos rfl)
    · exact (State.cring_setCring ..).trans (if_neg hq)

end

/-- No head command is of a reserved class, so none is refused (R557). -/
theorem refuseReserved_of_plain {s : State} (h : ∀ q x, (s.cring q).headOk = some x → rowOf x ≠ none) (n : Nat) : refuseReserved n s = s := by
  cases n with
  | zero => rfl
  | succ n =>
    unfold refuseReserved
    split
    · rfl
    · split
      · rfl
      next hx => exact if_neg (h _ _ hx)

/-- The head of a ring that has read one descriptor more. -/
theorem CRing.headOk_append {k : CRing} {d x : Desc} (h : { k with descs := k.descs ++ [d] }.headOk = some x) : k.headOk = some x ∨ x = d := by
  unfold CRing.headOk at h ⊢
  dsimp only at h
  split at h
  next hk =>
    rw [if_pos hk]
    cases hl : k.descs with
    | nil =>
      rw [hl] at h
      exact .inr (Option.some.inj h).symm
    | cons y l =>
      rw [hl] at h
      exact .inl h
  next => cases h

/-- The descriptor that ring r reads next (R540). -/
def State.nextDesc (s : State) (r : Nat) : Desc := BitVec.ofNat 512 (leNat (s.bytesAt
  (hostBase + (s.cring r).base + 64 * (((s.cring r).head + (s.cring r).descs.length) % 2 ^ (s.cring r).log2)) 64))

theorem exec_descriptorRead {r : Nat} {s : State} (hl : s.clk.lost = false) (hd : s.boot.done = true) (hn : s.linkDown = false)
    (he : (s.cring r).en = true) (hs : (s.cring r).state = 1) (h8 : (s.cring r).descs.length < 8)
    (hlen : (s.cring r).descs.length < ((s.cring r).tail + 2 ^ 32 - (s.cring r).head) % 2 ^ 32) (err : Bool) :
    exec (.descriptorRead r err) s = .next (if err then s.ringError r 3
      else refuseReserved 512 (s.setCring r { s.cring r with descs := (s.cring r).descs ++ [s.nextDesc r] })) :=
  (live_of s _ hl).trans (congrArg _ (if_neg (by simp [-Nat.reducePow, hd, hn, he, hs, h8, hlen])))

theorem commandRingsAct : Claims.CommandRingsAct := by
  refine ⟨fun r value s hr hlt hv he hlo hhi => ?enable, fun r value s hr hlt hv he => ?disable,
    fun r value host s hr hd hlt hv he hs hne => doorbell_moves hr hd hlt hv he hs hne, fun r s hl hd hn he hs h8 hlen => ?read⟩
  case enable =>
    rw [← State.writeCringCtl_of_start hv he hlo hhi]
    exact (live_of s _ (State.lost_of_regAlive hr)).trans (congrArg _ (if_pos (by simp [hr, hlt, show bitOf value 31 = true from decide_eq_true hv])))
  case disable =>
    rw [← State.writeCringCtl_of_stop hv he]
    exact (live_of s _ (State.lost_of_regAlive hr)).trans
      (congrArg _ (if_pos (by simp [hr, hlt, show bitOf value 31 = false from decide_eq_false (by omega)])))
  case read =>
    have hexec := exec_descriptorRead hl hd hn he hs h8 hlen
    intro k d
    refine ⟨hexec false, fun hplain hrow => (hexec false).trans (congrArg _ (refuseReserved_of_plain (fun q x hx => ?_) 512)),
      _, hexec true, ?_, ?_, ?_, State.byteAt_congr (State.ringError_mem ..)⟩
    · rw [State.cring_setCring] at hx
      split at hx
      next hq =>
        obtain hx | rfl := CRing.headOk_append hx
        · exact hplain r x hx
        · exact hrow
      next => exact hplain q x hx
    · exact (congrArg CRing.state (s.cring_ringError r 3) :)
    · exact (congrArg CRing.err (s.cring_ringError r 3) :)
    · exact (congrArg CRing.descs (s.cring_ringError r 3) :)

/-! ### Event rings (R551 to R554) -/

/-- With nothing buffered or waiting there is nothing to move into the ring. -/
theorem State.drainRing_of_idle {s : State} {e : Nat} (hb : (s.ering e).buf = []) (hw : s.waitRecs = []) : s.drainRing e = s := by
  have hdrain : drain e 64 s = s := by
    simp only [drain, hb]
  have hflush : s.flush = s := by
    rw [State.flush, hw]
    exact congrArg (fun w => { s with waitRecs := w }) hw.symm
  rw [State.drainRing, hdrain, hflush, hdrain]

theorem State.drainRing_setEring_of_idle {s : State} {e : Nat} {k : ERing} (hb : k.buf = []) (hw : s.waitRecs = []) :
    (s.setEring e k).drainRing e = s.setEring e k :=
  State.drainRing_of_idle (by rw [State.ering_setEring, if_pos rfl, hb]) hw

theorem eventRingsAct : Claims.EventRingsAct := by
  refine ⟨fun e value s hr hlt he hv hlo hhi hb hw => ?enable, fun e value s hr hlt he hv => ?disable,
    fun e value s hr hlt hv => ⟨fun hle hb hw => ?move, fun hover => ?beyond⟩, fun e value s hr hlt hv => ⟨fun h => ?wait, fun h h31 => ?message, fun h h31 => ?quiet⟩⟩
  case enable =>
    have hen : bitOf value 31 = true := decide_eq_true hv
    refine (live_of s _ (State.lost_of_regAlive hr)).trans (congrArg _ ((if_neg (by simp [hr, hlt])).trans ((if_neg (by simp [he])).trans
      ((if_neg (by omega)).trans ((if_pos hen).trans (State.drainRing_setEring_of_idle hb hw))))))
  case disable =>
    have hen : bitOf value 31 = false := decide_eq_false (by omega)
    exact (live_of s _ (State.lost_of_regAlive hr)).trans (congrArg _ ((if_neg (by simp [hr, hlt])).trans ((if_pos he).trans (if_neg (by simp [hen])))))
  case move =>
    exact (live_of s _ (State.lost_of_regAlive hr)).trans (congrArg _ ((if_neg (by simp [-Nat.reducePow, hr, hlt, hv, hle])).trans
      (State.drainRing_setEring_of_idle hb hw)))
  case beyond =>
    exact (live_of s _ (State.lost_of_regAlive hr)).trans (congrArg _ (if_pos (by simp [-Nat.reducePow, hover])))
  case wait =>
    have harm : bitOf value 30 = true := decide_eq_true hv
    exact (live_of s _ (State.lost_of_regAlive hr)).trans (congrArg _ ((if_neg (by simp [hr, hlt])).trans ((if_neg (by simp [harm])).trans (if_pos h))))
  case message =>
    have harm : bitOf value 30 = true := decide_eq_true hv
    exact (live_of s _ (State.lost_of_regAlive hr)).trans (congrArg _ ((if_neg (by simp [hr, hlt])).trans ((if_neg (by simp [harm])).trans
      ((if_neg h).trans (if_pos (decide_eq_true h31))))))
  case quiet =>
    have harm : bitOf value 30 = true := decide_eq_true hv
    exact (live_of s _ (State.lost_of_regAlive hr)).trans (congrArg _ ((if_neg (by simp [hr, hlt])).trans ((if_neg (by simp [harm])).trans
      ((if_neg h).trans (if_neg (by simp [show bitOf value 31 = false from decide_eq_false (by omega)]))))))

/-- Settles O42: each write and each read of a ring by the case that it meets. -/
theorem ringsAct : Obligations.RingsAct := ⟨commandRingsAct, eventRingsAct⟩

end Sys2Proof.Machine
end

section
/-! PROOFS. The record of a completed command (17 R546 to R550; 18 R562). -/

namespace Sys2Proof.Machine

/-! ### Commands by number -/

theorem State.cmd_modCmd (s : State) (id : Nat) {f : Cmd → Cmd} (hf : ∀ c, (f c).id = c.id) (i : Nat) :
    (s.modCmd id f).cmd i = (s.cmd i).map (fun c => if c.id = id then f c else c) := by
  have hp : (fun c : Cmd => c.id == i) ∘ (fun c => if c.id = id then f c else c) = fun c => c.id == i := by
    funext c
    by_cases hc : c.id = id
    · simp [hc, hf]
    · simp [hc]
  simp only [State.cmd, State.modCmd, List.find?_map, hp]

theorem State.id_of_cmd {s : State} {i : Nat} {c : Cmd} (h : s.cmd i = some c) : c.id = i := by
  simpa using List.find?_some h

/-- The named command, changed. -/
theorem State.cmd_modCmd_self {s : State} {id : Nat} {c : Cmd} {f : Cmd → Cmd} (h : s.cmd id = some c) (hf : ∀ c, (f c).id = c.id) :
    (s.modCmd id f).cmd id = some (f c) := by
  rw [State.cmd_modCmd _ _ hf, h, Option.map_some, if_pos (State.id_of_cmd h)]

/-- A command that is over: its number is free, and nothing but its ring and the commands changes. -/
structure State.Ended (s : State) (id : Nat) (t : State) : Prop where
  gone : t.cmd id = none
  seq : ∀ r, (t.cring r).seq = (s.cring r).seq
  erings : t.erings = s.erings
  waitRecs : t.waitRecs = s.waitRecs
  mem : t.mem = s.mem
  hostWrites : t.hostWrites = s.hostWrites

theorem State.endCmd_ended {s : State} {id : Nat} {c : Cmd} (h0 : id ≠ 0) (h : s.cmd id = some c) : s.Ended id (s.endCmd id) := by
  have hfind : s.cmds.find? (fun c => c.id == id) = some c := h
  have hgone : (s.cmds.filter (fun c => c.id != id)).find? (fun c => c.id == id) = none :=
    List.find?_eq_none.2 fun x hx => by simpa using (List.mem_filter.1 hx).2
  simp only [State.endCmd, if_neg h0, hfind]
  split
  · refine ⟨hgone, fun r => ?_, rfl, rfl, rfl, rfl⟩
    rw [State.cring_setCring]
    split
    next hr => exact congrArg (fun r => (s.cring r).seq) hr.symm
    next => rfl
  · exact ⟨hgone, fun _ => rfl, rfl, rfl, rfl, rfl⟩

/-! ### Posting (R547, R549) -/

theorem firstStatus_eq (l : List Nat) : firstStatus l =
    ([0x21, 0x22, 0x20, 0x03, 0x51, 0x50, 0x30, 0x31, 0x32, 0x33, 0x02, 0x01, 0x05, 0x52].find? (fun x => l.contains x)).getD (l.headD 0) := by
  simp only [firstStatus, statusRank]
  cases [0x21, 0x22, 0x20, 0x03, 0x51, 0x50, 0x30, 0x31, 0x32, 0x33, 0x02, 0x01, 0x05, 0x52].find? (fun x => l.contains x) <;> rfl

/-- The PHASE of the slot that the ring's next record takes (R547). -/
def ERing.phase (k : ERing) : Byte := if k.tail / 2 ^ k.log2 % 2 = 0 then 1 else 0

/-- The host write of ring e's next record. -/
def State.recordWrite (s : State) (e : Nat) (rec : List Byte) : HostWrite :=
  ⟨s.meshId, hostBase + (s.ering e).base + 32 * ((s.ering e).tail % 2 ^ (s.ering e).log2), markAll false ((s.ering e).phase :: rec.drop 1), .record e (s.ering e).tail⟩

/-- The state with the record on its way and the ring's count moved on. -/
def State.recorded (s : State) (e : Nat) (rec : List Byte) : State :=
  { s.setEring e { s.ering e with tail := ((s.ering e).tail + 1) % 2 ^ 32 } with
    hostWrites := s.hostWrites ++ [s.recordWrite e rec], meshId := s.meshId + 1 }

/-- With room and nothing buffered a record leaves for the ring's next slot. -/
theorem State.post_of_room {s : State} {e : Nat} (hb : (s.ering e).buf = []) (hr : (s.ering e).room = true) (rec : List Byte) :
    s.post e rec = some (s.recorded e rec) := by
  refine (if_pos (by simp [hb, hr])).trans (congrArg some ?_)
  exact if_neg (by rw [anyMarked_markAll_false]; exact Bool.false_ne_true)

/-- The bytes of a waiting record, once its command ring has numbered it (R548). -/
def State.waitBytes (s : State) (w : WaitRec) : List Byte :=
  recordBytes w.kind w.ring (s.cring w.ring).seq w.status w.slot w.tag w.detail

/-- The waiting record posted, and its command ring's count moved on. -/
def State.numbered (s : State) (w : WaitRec) : State :=
  (s.recorded (s.cring w.ring).evt (s.waitBytes w)).setCring w.ring { s.cring w.ring with seq := ((s.cring w.ring).seq + 1) % 2 ^ 32 }

theorem State.postWait_of_room {s : State} {w : WaitRec} (hb : (s.ering (s.cring w.ring).evt).buf = [])
    (hr : (s.ering (s.cring w.ring).evt).room = true) : s.postWait w = some ((s.numbered w).endCmd w.cmd) := by
  simp only [State.postWait, State.post_of_room hb hr]
  rfl

theorem State.ering_recorded (s : State) (e : Nat) (rec : List Byte) :
    (s.recorded e rec).ering e = { s.ering e with tail := ((s.ering e).tail + 1) % 2 ^ 32 } :=
  (State.ering_setEring s e _ e).trans (if_pos rfl)

theorem State.seq_numbered (s : State) (w : WaitRec) : ((s.numbered w).cring w.ring).seq = ((s.cring w.ring).seq + 1) % 2 ^ 32 :=
  congrArg CRing.seq ((State.cring_setCring _ w.ring _ w.ring).trans (if_pos rfl))

/-- A posted record moves the event ring, the host writes and the numbers of both. -/
theorem State.numbered_keeps (s : State) (w : WaitRec) : (s.numbered w).cmds = s.cmds ∧ (s.numbered w).waitRecs = s.waitRecs ∧
    (s.numbered w).mem = s.mem ∧ (s.numbered w).hostWrites = s.hostWrites ++ [s.recordWrite (s.cring w.ring).evt (s.waitBytes w)] ∧
    (s.numbered w).erings = (s.recorded (s.cring w.ring).evt (s.waitBytes w)).erings := by
  simp only [State.numbered, State.setCring, State.recorded, State.setEring, and_self]

/-- The record of a completed command: one host write, and the command is over. -/
theorem State.endCmd_numbered {s : State} {w : WaitRec} {c : Cmd} {e : Nat} {k : ERing} (h0 : w.cmd ≠ 0) (hc : s.cmd w.cmd = some c)
    (he : (s.cring w.ring).evt = e) (hk : s.ering e = k) :
    ((s.numbered w).endCmd w.cmd).ering e = { k with tail := (k.tail + 1) % 2 ^ 32 } ∧
    ((s.numbered w).endCmd w.cmd).cmd w.cmd = none ∧ (((s.numbered w).endCmd w.cmd).cring w.ring).seq = ((s.cring w.ring).seq + 1) % 2 ^ 32 ∧
    ((s.numbered w).endCmd w.cmd).waitRecs = s.waitRecs ∧ ((s.numbered w).endCmd w.cmd).mem = s.mem ∧
    ((s.numbered w).endCmd w.cmd).hostWrites = s.hostWrites ++ [s.recordWrite e (s.waitBytes w)] := by
  subst he hk
  obtain ⟨hcmds, hwaits, hmem, hwrites, herings⟩ := s.numbered_keeps w
  have hc' : (s.numbered w).cmd w.cmd = some c := (congrArg (List.find? fun c : Cmd => c.id == w.cmd) hcmds).trans hc
  have hering := (congrArg (Sparse.get ({} : ERing) · (s.cring w.ring).evt) herings).trans (s.ering_recorded (s.cring w.ring).evt (s.waitBytes w))
  have hend := State.endCmd_ended h0 hc'
  exact ⟨(congrArg (Sparse.get ({} : ERing) · (s.cring w.ring).evt) hend.erings).trans hering, hend.gone,
    (hend.seq w.ring).trans (s.seq_numbered w), hend.waitRecs.trans hwaits, hend.mem.trans hmem, hend.hostWrites.trans hwrites⟩

theorem recordBytes_drop_one (kind source seq status slot tag : Nat) (detail : List Byte) : (recordBytes kind source seq status slot tag detail).drop 1 =
    leBytes 1 kind ++ leBytes 2 source ++ leBytes 4 seq ++ leBytes 2 status ++ leBytes 2 slot ++ leBytes 4 tag
      ++ (detail ++ List.replicate 16 0).take 16 := rfl

/-- A command whose work has ended with conditions and DETAIL bytes. -/
def Cmd.done (found : List Nat) (detail : List Byte) (c : Cmd) : Cmd := { c with found := c.found ++ found, ended := some detail }

/-- A command whose record waits to be posted. -/
def Cmd.posted (c : Cmd) : Cmd := { c with posting := true }

/-- The record of the command. -/
def Cmd.waitRec (found : List Nat) (detail : List Byte) (c : Cmd) : WaitRec :=
  ⟨c.ring, 1, firstStatus (c.found ++ found), c.count % 2 ^ 16, fieldAt c.desc 4 4, detail, c.id⟩

/-- The command's record is made and waits alone. -/
def State.awaiting (s : State) (id : Nat) (found : List Nat) (detail : List Byte) : State :=
  { s with
    cmds := (s.cmds.map (fun c => if c.id = id then Cmd.done found detail c else c)).map (fun c => if c.id = id then Cmd.posted c else c)
    waitRecs := [] }

/-- A command whose writes are over, as it completes with nothing waiting before it: its own record is posted (R550). -/
theorem State.complete_of_idle {s : State} {id : Nat} {found : List Nat} {detail : List Byte} {c : Cmd} (hc : s.cmd id = some c)
    (ho : c.outst = 0) (hp : c.posting = false) (hw : s.waitRecs = []) :
    s.complete id found detail = flushList [c.waitRec found detail] (s.awaiting id found detail) := by
  have hid := State.id_of_cmd hc
  subst hid
  have hdone := State.cmd_modCmd_self (f := Cmd.done found detail) hc (fun _ => rfl)
  have hpost : (s.modCmd c.id (Cmd.done found detail)).tryPost c.id =
      ((s.modCmd c.id (Cmd.done found detail)).modCmd c.id Cmd.posted).addWait (c.waitRec found detail) := by
    simp only [State.tryPost, hdone]
    exact if_pos ⟨ho, by simpa [Cmd.done] using hp⟩
  refine hpost.trans ?_
  have hnone : ((s.modCmd c.id (Cmd.done found detail)).modCmd c.id Cmd.posted).waitRecs = [] := hw
  rw [State.addWait, hnone]
  rfl

theorem flushList_single {s t : State} {w : WaitRec} (h : s.postWait w = some t) : flushList [w] s = t := by
  simp only [flushList, h]

/-- Settles O43: the command's record is the only one that waits, so it is posted at once. -/
theorem completionMakesOneRecord : Obligations.CompletionMakesOneRecord := by
  intro id found detail s c h0 hc hout hposting hwait hb hr t e k phase
  have hid := State.id_of_cmd hc
  subst hid
  have hposted := State.cmd_modCmd_self (f := Cmd.posted) (State.cmd_modCmd_self (f := Cmd.done found detail) hc (fun _ => rfl)) (fun _ => rfl)
  have ht : t = ((s.awaiting c.id found detail).numbered (c.waitRec found detail)).endCmd c.id :=
    (State.complete_of_idle hc hout hposting hwait).trans (flushList_single (State.postWait_of_room hb hr))
  obtain ⟨hering, hgone, hseq, hwaits, hmem, hwrites⟩ := State.endCmd_numbered (s := s.awaiting c.id found detail) (w := c.waitRec found detail) (e := e) (k := k)
    h0 hposted rfl rfl
  rw [ht]
  refine ⟨hering, hgone, hseq, hwaits, State.byteAt_congr hmem, _, hwrites, rfl, rfl, ?_, firstStatus_eq⟩
  simp only [State.recordWrite, State.waitBytes, recordBytes_drop_one, List.append_assoc, List.singleton_append]
  rfl

end Sys2Proof.Machine
end

section
/-! PROOFS. Semaphore commands and fences (18 R577, R578, R584, R585; 10 R316). -/

namespace Sys2Proof.Machine

/-! ### A delivered command -/

/-- A delivered command's state, by what the delivery changes: its ring, the commands, their numbers, the rings' turn (R541, R542). -/
theorem delivered_eq (s : State) (r : Nat) (d : Desc) : delivered s r d = { s with
    crings := Sparse.set {} s.crings r { s.cring r with head := ((s.cring r).head + 1) % 2 ^ 32, descs := (s.cring r).descs.drop 1 }
    cmds := s.cmds ++ [{ id := s.cmdId, ring := r, count := (s.cring r).head, desc := d }], cmdId := s.cmdId + 1, noProgress := 0
    turn := if (s.cring r).prio then (r, s.turn.2) else (s.turn.1, r) } := rfl

section
variable (s : State) (r : Nat) (d : Desc)

theorem delivered_data : (delivered s r d).data = s.data := by rw [delivered_eq]; rfl
theorem delivered_gsemNet : (delivered s r d).gsemNet = s.gsemNet := by rw [delivered_eq]
theorem delivered_cmds : (delivered s r d).cmds = s.cmds ++ [{ id := s.cmdId, ring := r, count := (s.cring r).head, desc := d }] := by rw [delivered_eq]
theorem delivered_mem : (delivered s r d).mem = s.mem := congrArg State.Data.mem (delivered_data s r d)
theorem delivered_cores : (delivered s r d).cores = s.cores := congrArg State.Data.cores (delivered_data s r d)
theorem delivered_gsems : (delivered s r d).gsems = s.gsems := congrArg State.Data.gsems (delivered_data s r d)
theorem delivered_core (c : Nat) : (delivered s r d).core c = s.core c := congrArg (Sparse.get ({} : Core) · c) (delivered_cores s r d)

end

theorem headWaits_of {s : State} {r : Nat} {row : Row} {d : Desc} (h : Offered s r row d) (f : Desc → Bool) : s.headWaits r f = f d := by
  simp only [State.headWaits, h.2.2.1]

/-- The delivered command under its number, where no other has it. -/
theorem cmd_delivered {s : State} (hn : ∀ c ∈ s.cmds, c.id ≠ s.cmdId) (r : Nat) (d : Desc) :
    (delivered s r d).cmd s.cmdId = some { id := s.cmdId, ring := r, count := (s.cring r).head, desc := d } := by
  have hnone : s.cmds.find? (fun c => c.id == s.cmdId) = none := List.find?_eq_none.2 fun c hc => by simpa using hn c hc
  rw [State.cmd, delivered_cmds, List.find?_append, hnone]
  simp

/-! ### Fields of a semaphore descriptor -/

theorem toNat_ofNat_fieldAt (d : Desc) (o : Nat) : (BitVec.ofNat 64 (fieldAt d o 8)).toNat = fieldAt d o 8 := by
  rw [BitVec.toNat_ofNat, fieldAt]
  exact Nat.mod_mod _ _

theorem fieldAt_low_byte (d : Desc) (o : Nat) : fieldAt d o 8 % 256 = fieldAt d o 1 := by
  simp only [fieldAt]
  omega

/-! ### What an add or a subtract leaves (R310, R311) -/

/-- The value after an add or a subtract of v, within the semaphore's range. -/
def clipped (sub : Bool) (cur v : Nat) : Nat := if sub then cur - v else min (cur + v) (2 ^ 32 - 1)

theorem signed_ne_zero {sub : Bool} {v : Nat} (h : v ≠ 0) : signed sub v ≠ 0 := by
  cases sub <;> simp [signed, h]

theorem signed_zero (sub : Bool) : signed sub 0 = 0 := by cases sub <;> rfl

theorem eq_clipped_of_coe {sub : Bool} {x cur v : Nat} (hlt : cur < 2 ^ 32)
    (h : (x : Int) = max 0 (min (2 ^ 32 - 1) ((cur : Int) + signed sub v))) : x = clipped sub cur v := by
  cases sub <;> simp only [signed, clipped, if_true, Bool.false_eq_true, if_false] at h ⊢ <;> omega

theorem clipped_zero {cur : Nat} (hlt : cur < 2 ^ 32) (sub : Bool) : clipped sub cur 0 = cur := by
  cases sub <;> simp only [clipped, if_true, Bool.false_eq_true, if_false] <;> omega

theorem State.get_gsems_gsemChange_signedBy {s : State} {idx : Nat} (hnet : netOf s.gsemNet idx = none) (hlt : Sparse.get 0 s.gsems idx < 2 ^ 32)
    (sub : Bool) (v : Nat) : Sparse.get 0 (s.gsemChange idx (signed sub v)).gsems idx = clipped sub (Sparse.get 0 s.gsems idx) v := by
  by_cases hv : v = 0
  · rw [hv, signed_zero, State.gsemChange_zero, clipped_zero hlt]
  · refine eq_clipped_of_coe hlt ?_
    rw [State.coe_get_gsems_gsemChange _ _ (signed_ne_zero hv), netBase_of_none hnet]

theorem Core.get_sems_semChange_signedBy {k : Core} {idx : Nat} (hnet : netOf k.semNet idx = none) (hlt : Sparse.get 0 k.sems idx < 2 ^ 32)
    (sub : Bool) (v : Nat) : Sparse.get 0 (k.semChange idx (signed sub v)).sems idx = clipped sub (Sparse.get 0 k.sems idx) v := by
  by_cases hv : v = 0
  · rw [hv, signed_zero, Core.semChange_zero, clipped_zero hlt]
  · refine eq_clipped_of_coe hlt ?_
    rw [Core.coe_get_sems_semChange _ _ (signed_ne_zero hv), netBase_of_none hnet]

/-- The state after a command's own add or subtract on this device, before its record. -/
def State.semApplied (s : State) (sub glob : Bool) (c idx v : Nat) : State :=
  if v = 0 then s else if glob then s.gsemChange idx (signed sub v) else s.csemChange c idx (signed sub v)

theorem State.semApplied_mem (s : State) (sub glob : Bool) (c idx v : Nat) : (s.semApplied sub glob c idx v).mem = s.mem := by
  unfold State.semApplied
  split
  · rfl
  · split
    · exact s.gsemChange_mem ..
    · rfl

theorem State.gsems_semApplied (s : State) (sub : Bool) (c idx v : Nat) :
    (s.semApplied sub true c idx v).gsems = (s.gsemChange idx (signed sub v)).gsems := by
  unfold State.semApplied
  split
  next hv => rw [hv, signed_zero, State.gsemChange_zero]
  next => rfl

theorem State.core_semApplied (s : State) (sub : Bool) (c idx v x : Nat) :
    (s.semApplied sub false c idx v).core x = if x = c then (s.core c).semChange idx (signed sub v) else s.core x := by
  unfold State.semApplied
  split
  next hv =>
    rw [hv, signed_zero, Core.semChange_zero]
    split
    next h => rw [h]
    next => rfl
  next => exact State.core_setCore ..

/-! ### Adds and subtracts by commands -/

/-- The two semaphore commands: the instruction, its row, whether it subtracts. -/
theorem exec_semCommand {e : (Nat → Instr) × Row × Bool} (he : e ∈ [((Instr.semaphoreAdd : Nat → Instr), Row.semAdd, false), (.semaphoreSubtract, .semSub, true)])
    {r : Nat} {d : Desc} {s : State} (h : Offered s r e.2.1 d) :
    exec (e.1 r) s = .next (if s.semHeld d then s else (delivered s r d).semCommand e.2.2 d s.cmdId) := by
  have hl := h.1
  have hhead := headWaits_of h s.semHeld
  fin_cases he
  · refine (live_of s _ hl).trans (congrArg _ ?_)
    rw [hhead, deliver_of h]
  · refine (live_of s _ hl).trans (congrArg _ ?_)
    rw [hhead, deliver_of h]

/-- A command on a semaphore of this device. -/
theorem State.semCommand_of_self {u : State} {d : Desc} (hr : u.semRefusal d false = none) (hs : bitOf (fieldAt d 16 8) 22 = true) (sub : Bool) (id : Nat) :
    u.semCommand sub d id = ((u.semApplied sub (fieldAt d 9 1 == 1) (fieldAt d 16 1) (fieldAt d 10 2) (fieldAt d 12 4)).complete id []
      (leBytes 4 ((u.semApplied sub (fieldAt d 9 1 == 1) (fieldAt d 16 1) (fieldAt d 10 2) (fieldAt d 12 4)).namedSem d))).waitsMet := by
  simp only [State.semCommand, hr, toNat_ofNat_fieldAt, hs, if_true, fieldAt_low_byte]
  rfl

theorem State.semCommand_of_refused {u : State} {d : Desc} {x : Nat} (hr : u.semRefusal d false = some x) (sub : Bool) (id : Nat) :
    u.semCommand sub d id = u.complete id [x] [] := by
  simp only [State.semCommand, hr]

/-- A command on a peer's semaphore. -/
theorem State.semCommand_of_peer {u : State} {d : Desc} (hr : u.semRefusal d false = none) (hs : bitOf (fieldAt d 16 8) 22 = false) (sub : Bool) (id : Nat) :
    u.semCommand sub d id = if fieldAt d 12 4 = 0 then u.complete id [] [] else
      let x := u.remoteIssue (.command id) (BitVec.ofNat 64 (fieldAt d 16 8)) (fieldAt d 9 1 == 1) (fieldAt d 10 2) (signed sub (fieldAt d 12 4))
      if x.2 then x.1 else u.complete id [0x32] [] := by
  simp only [State.semCommand, hr, toNat_ofNat_fieldAt, hs, Bool.false_eq_true, if_false]
  rfl

theorem State.semHeld_of_peer {s : State} {d : Desc} (hs : bitOf (fieldAt d 16 8) 22 = false) : s.semHeld d = false := by
  simp [State.semHeld, hs]

/-- What a command on this device's semaphore leaves of memory and of the semaphores. -/
theorem semCommand_changes {s : State} {r : Nat} {d : Desc} (hr : (delivered s r d).semRefusal d false = none)
    (hs : bitOf (fieldAt d 16 8) 22 = true) (sub : Bool) :
    let t := (delivered s r d).semCommand sub d s.cmdId
    let idx := fieldAt d 10 2
    let v := fieldAt d 12 4
    (∀ a, t.byteAt a = s.byteAt a) ∧
      (fieldAt d 9 1 = 1 → netOf s.gsemNet idx = none → Sparse.get 0 s.gsems idx < 2 ^ 32 →
        Sparse.get 0 t.gsems idx = clipped sub (Sparse.get 0 s.gsems idx) v ∧ ∀ i, i ≠ idx → Sparse.get 0 t.gsems i = Sparse.get 0 s.gsems i) ∧
      (fieldAt d 9 1 = 0 → let c := fieldAt d 16 1
        netOf (s.core c).semNet idx = none → Sparse.get 0 (s.core c).sems idx < 2 ^ 32 →
          Sparse.get 0 (t.core c).sems idx = clipped sub (Sparse.get 0 (s.core c).sems idx) v ∧
          (∀ i, i ≠ idx → Sparse.get 0 (t.core c).sems i = Sparse.get 0 (s.core c).sems i) ∧ ∀ x, x ≠ c → t.core x = s.core x) := by
  intro t idx v
  have ht := State.semCommand_of_self hr hs sub s.cmdId
  have hdata : t.data = ((delivered s r d).semApplied sub (fieldAt d 9 1 == 1) (fieldAt d 16 1) idx v).data := by
    rw [show t = _ from ht, State.waitsMet_data, State.complete_data]
  have hgsems := congrArg State.Data.gsems hdata
  have hcore : ∀ c, t.core c = _ := fun c => congrArg (fun x : State.Data => Sparse.get ({} : Core) x.cores c) hdata
  refine ⟨State.byteAt_congr ((congrArg State.Data.mem hdata).trans ((State.semApplied_mem ..).trans (delivered_mem s r d))),
    fun hglob hnet hlt => ?_, fun hglob hnet hlt => ?_⟩
  · rw [hglob] at hgsems
    have hg : t.gsems = ((delivered s r d).gsemChange idx (signed sub v)).gsems := hgsems.trans (State.gsems_semApplied ..)
    rw [← delivered_gsemNet s r d] at hnet
    rw [← delivered_gsems s r d] at hlt ⊢
    rw [hg]
    exact ⟨State.get_gsems_gsemChange_signedBy hnet hlt sub v, fun i hi => State.get_gsems_gsemChange_ne _ hi _⟩
  · have hk : ∀ x, t.core x = if x = fieldAt d 16 1 then (s.core (fieldAt d 16 1)).semChange idx (signed sub v) else s.core x := fun x => by
      have h := hcore x
      rw [hglob] at h
      rw [← delivered_core s r d, ← delivered_core s r d x, ← State.core_semApplied]
      exact h
    rw [hk, if_pos rfl]
    exact ⟨Core.get_sems_semChange_signedBy hnet hlt sub v, fun i hi => Core.get_sems_semChange_ne _ hi _, fun x hx => (hk x).trans (if_neg hx)⟩

/-! ### Waits of the rings (R316, R578) -/

/-- A command under way blocks its ring (R541). -/
theorem State.block_of_cmd {s : State} {id : Nat} {c : Cmd} (h : s.cmd id = some c) :
    s.block id = s.setCring c.ring { s.cring c.ring with blocked := some id } := by
  simp only [State.block, h]

theorem State.blocked_block {s : State} {id : Nat} {c : Cmd} (h : s.cmd id = some c) : ((s.block id).cring c.ring).blocked = some id := by
  rw [State.block_of_cmd h, State.cring_setCring, if_pos rfl]

/-- With one wait of the rings outstanding, its own condition decides. -/
theorem State.waitsMet_of_single {s : State} {c : Cmd}
    (h : s.cmds.filter (fun c => rowOf c.desc == some .semWait && c.ended.isNone) = [c]) : s.waitsMet =
      if fieldAt c.desc 12 4 ≤ s.namedSem c.desc ∧ !s.semStopped (fieldAt c.desc 16 1) then s.complete c.id [] (leBytes 4 (s.namedSem c.desc)) else s := by
  rw [State.waitsMet, h]
  rfl

theorem exec_semaphoreWait {r : Nat} {d : Desc} {s : State} (h : Offered s r .semWait d) : exec (.semaphoreWait r) s =
    .next (match (delivered s r d).semRefusal d true with
      | some e => (delivered s r d).complete s.cmdId [e] []
      | none => ((delivered s r d).block s.cmdId).waitsMet) :=
  (live_of s _ h.1).trans (congrArg _ (deliver_of h _))

/-- The wait's own condition, in the state in which it blocks its ring. -/
theorem semaphoreWait_of_accepted {r : Nat} {d : Desc} {s : State} (h : Offered s r .semWait d) (hn : ∀ c ∈ s.cmds, c.id ≠ s.cmdId)
    (hw : ∀ c ∈ s.cmds, rowOf c.desc ≠ some .semWait ∨ c.ended ≠ none) (hr : (delivered s r d).semRefusal d true = none) :
    exec (.semaphoreWait r) s = .next (if fieldAt d 12 4 ≤ s.namedSem d ∧ !s.semStopped (fieldAt d 16 1) then
      ((delivered s r d).block s.cmdId).complete s.cmdId [] (leBytes 4 (s.namedSem d)) else (delivered s r d).block s.cmdId) := by
  have hblock := State.block_of_cmd (cmd_delivered hn r d)
  have hold : s.cmds.filter (fun c => rowOf c.desc == some .semWait && c.ended.isNone) = [] := List.filter_eq_nil_iff.2 fun c hc => by
    have := hw c hc
    simp only [Bool.and_eq_true, beq_iff_eq, Option.isNone_iff_eq_none]
    tauto
  have hone : ((delivered s r d).block s.cmdId).cmds.filter (fun c => rowOf c.desc == some .semWait && c.ended.isNone) =
      [{ id := s.cmdId, ring := r, count := (s.cring r).head, desc := d }] := by
    rw [hblock, State.setCring_cmds, delivered_cmds, List.filter_append, hold]
    simp [h.2.2.2]
  have hsem : ((delivered s r d).block s.cmdId).namedSem d = s.namedSem d := by
    rw [hblock, delivered_eq]
    rfl
  have hstop : ((delivered s r d).block s.cmdId).semStopped (fieldAt d 16 1) = s.semStopped (fieldAt d 16 1) := by
    rw [hblock, delivered_eq]
    rfl
  rw [exec_semaphoreWait h, hr]
  exact congrArg _ ((State.waitsMet_of_single hone).trans (by rw [hsem, hstop]))

/-! ### Fences (R584, R585) -/

/-- A fence with the commands that it waits for. -/
def Cmd.fenced (l : List Nat) (c : Cmd) : Cmd := { c with fence := l }

/-- The commands that a fence of ring r waits for, as it is delivered (R585). -/
def State.fenceList (s : State) (r : Nat) (d : Desc) : List Nat :=
  (s.cmds.filter (fun x => x.ring == r || bitOf (fieldAt d 8 8) x.ring)).map (fun x => x.id)

theorem exec_fence {r : Nat} {d : Desc} {s : State} (h : Offered s r .fence d) (hn : ∀ c ∈ s.cmds, c.id ≠ s.cmdId) : exec (.fence r) s =
    .next (if zeroAt d 1 3 && zeroAt d 16 48 then ((delivered s r d).modCmd s.cmdId (Cmd.fenced (s.fenceList r d))).block s.cmdId
      else (delivered s r d).complete s.cmdId [1] []) := by
  have hlist : ((delivered s r d).cmds.filter (fun c => c.id != s.cmdId && (c.ring == r || bitOf (fieldAt d 8 8) c.ring))).map (fun c => c.id) =
      s.fenceList r d := by
    rw [delivered_cmds, List.filter_append, State.fenceList]
    have hold : s.cmds.filter (fun c => c.id != s.cmdId && (c.ring == r || bitOf (fieldAt d 8 8) c.ring)) =
        s.cmds.filter (fun c => c.ring == r || bitOf (fieldAt d 8 8) c.ring) := List.filter_congr fun c hc => by
      simp [hn c hc]
    rw [hold]
    simp
  refine (live_of s _ h.1).trans (congrArg _ ((deliver_of h _).trans ?_))
  rw [hlist]
  rfl

theorem exec_fenceRelease {r id : Nat} {s : State} {c : Cmd} (hl : s.clk.lost = false) (hb : (s.cring r).blocked = some id) (hc : s.cmd id = some c)
    (hrow : rowOf c.desc = some .fence) (he : c.ended = none) : exec (.fenceRelease r) s =
      .next (if c.fence.all (fun i => (s.cmd i).isNone) then s.complete id [] (leBytes 8 s.epoch) else s) := by
  refine (live_of s _ hl).trans (congrArg _ ?_)
  simp only [hb, Option.bind_some, hc, hrow, he, BEq.rfl, Option.isNone_none, Bool.true_and, State.id_of_cmd hc]

/-- Settles O44: each command by its refusals, and then by what it leaves of the semaphore or of its ring. -/
theorem commandSemaphoresAndFences : Obligations.CommandSemaphoresAndFences := by
  refine ⟨fun e he r d s h => ?sem, fun r d s h hn hw => ?wait, fun r d s h hn => ?fence, fun r id s c hl hb hc hrow hend => ?release⟩
  case sem =>
    have hexec := exec_semCommand he h
    intro u v idx
    refine ⟨fun hheld => ?_, fun x hheld hr => ?_, fun hheld hr hs => ?_, fun hr hs hv => ?_, fun hr hs hv => ?_⟩
    · rw [hexec, hheld, if_pos rfl]
    · rw [hexec, hheld, State.semCommand_of_refused hr]
      rfl
    · rw [hexec, hheld]
      exact ⟨_, rfl, semCommand_changes hr hs e.2.2⟩
    · rw [hexec, State.semHeld_of_peer hs, State.semCommand_of_peer hr hs]
      exact congrArg _ (if_pos hv)
    · rw [hexec, State.semHeld_of_peer hs, State.semCommand_of_peer hr hs]
      exact congrArg _ (if_neg hv)
  case wait =>
    intro u
    refine ⟨fun x hr => ?_, fun hr hlt => ⟨?_, State.blocked_block (cmd_delivered hn r d)⟩, fun hr hle hstop => ?_⟩
    · rw [exec_semaphoreWait h, hr]
    · rw [semaphoreWait_of_accepted h hn hw hr, if_neg (by omega)]
    · rw [semaphoreWait_of_accepted h hn hw hr, if_pos ⟨hle, by simp [hstop]⟩]
  case fence =>
    refine ⟨fun hz => ?_, fun hz => ?_⟩
    · rw [exec_fence h hn, hz]
      rfl
    · have hcmd := State.cmd_modCmd_self (f := Cmd.fenced (s.fenceList r d)) (cmd_delivered hn r d) (fun _ => rfl)
      refine ⟨_, Cmd.fenced (s.fenceList r d) { id := s.cmdId, ring := r, count := (s.cring r).head, desc := d }, (exec_fence h hn).trans (congrArg _ (if_pos hz)), State.blocked_block hcmd, ?_, rfl, State.byteAt_congr ?_⟩
      · rw [State.block_of_cmd hcmd]
        exact hcmd
      · rw [State.block_of_cmd hcmd]
        exact delivered_mem s r d
  case release =>
    rw [exec_fenceRelease hl hb hc hrow hend]
    refine ⟨fun hall => ?_, fun ⟨i, hi, hne⟩ => ?_⟩
    · rw [if_pos (by simpa using hall)]
    · rw [if_neg fun hall => hne (by simpa using List.all_eq_true.1 hall i hi)]

end Sys2Proof.Machine
end

section
/-! PROOFS. The host's reads and writes of memory and of registers (17 R528 to R531; 12 R374; 22 R646, R650). -/

namespace Sys2Proof.Machine

/-! ### Records leave nothing outside the device (R379, R547) -/

theorem State.outbox_hostWrite_of_clean {s : State} {bs : List MByte} (h : anyMarked bs = false) (a : Nat) (o : Owner) :
    (s.hostWrite a bs o).outbox = s.outbox := by
  simp only [State.hostWrite, h]
  rfl

theorem State.outbox_post {s t : State} {e : Nat} {rec : List Byte} (h : s.post e rec = some t) : t.outbox = s.outbox := by
  simp only [State.post] at h
  split at h
  · cases h
    exact State.outbox_hostWrite_of_clean (s := s.setEring e _) (anyMarked_markAll_false _) ..
  · split at h <;> cases h
    rfl

theorem State.outbox_memEvent (s : State) (u status a : Nat) : (s.memEvent u status a).outbox = s.outbox := by
  simp only [State.memEvent, State.postEvent]
  split
  next h => exact (State.outbox_post h :)
  next => rfl

theorem State.outbox_wordRead (s : State) (w : Nat) : (s.wordRead w).outbox = s.outbox := by
  simp only [State.wordRead]
  split
  · rfl
  · split <;> rfl
  · exact State.outbox_memEvent (s.setUnit _ _) ..
  · rfl

theorem State.outbox_wordPoisoned (s : State) (w : Nat) : (s.wordPoisoned w).outbox = s.outbox :=
  State.outbox_memEvent (s.setUnit _ _) ..

theorem foldl_outbox {α : Type} {f : State → α → State} (hf : ∀ s x, (f s x).outbox = s.outbox) (l : List α) (s : State) :
    (l.foldl f s).outbox = s.outbox :=
  List.foldlRecOn (motive := fun t : State => t.outbox = s.outbox) l f rfl fun t ht x _ => (hf t x).trans ht

theorem State.outbox_noteRead (s : State) (a n : Nat) : (s.noteRead a n).outbox = s.outbox := by
  simp only [State.noteRead]
  split
  · exact foldl_outbox State.outbox_wordRead _ s
  · split <;> rfl

theorem State.outbox_noteWrite (s : State) (a : Nat) (bs : List MByte) : (s.noteWrite a bs).outbox = s.outbox := by
  simp only [State.noteWrite]
  split
  · exact foldl_outbox State.outbox_wordPoisoned _ (s.storeBytes a bs)
  · rfl

theorem State.useBanks_keeps (s : State) (a n : Nat) : (s.useBanks a n).outbox = s.outbox ∧ (s.useBanks a n).mem = s.mem := by
  unfold State.useBanks
  split <;> exact ⟨rfl, rfl⟩

/-! ### Reads (R529 to R531, R616) -/

theorem anyMarked_mbytesAt (s : State) (a n : Nat) : anyMarked (s.mbytesAt a n) = s.anyBad a n := by
  simp [anyMarked, State.mbytesAt, State.anyBad, State.mbyteAt, List.any_map, Function.comp_def]

theorem map_fst_mbytesAt (s : State) (a n : Nat) : (s.mbytesAt a n).map Prod.fst = s.bytesAt a n := by
  simp [State.mbytesAt, State.bytesAt, State.mbyteAt, Function.comp_def]

theorem State.lost_of_hostAlive {s : State} (h : s.hostAlive = true) : s.clk.lost = false := by
  simp only [State.hostAlive, Bool.and_eq_true, Bool.not_eq_true'] at h
  exact h.2

section
variable {s : State} {a n router : Nat} (hh : s.hostAlive = true)
include hh

theorem exec_memoryRead_of_noTarget (ht : s.hostTarget a n = false) :
    exec (.memoryRead a n ⟨⟨[], router, false⟩, []⟩) s = .next (s.emit (.reply 1 (List.replicate n 0xFF))) :=
  (live_of s _ (State.lost_of_hostAlive hh)).trans (congrArg _ ((if_neg (by simp [hh])).trans (if_pos (by simp [ht]))))

variable (ht : s.hostTarget a n = true) (hu : oneUnit a n = true) (hn : n ∈ [32, 64, 128, 256]) (ha : a % n = 0)
include ht hu hn ha

theorem exec_memoryRead_of_target : exec (.memoryRead a n ⟨⟨[], router, false⟩, []⟩) s = .next
    (if !s.meshRegs.service || s.busyAt a n || !s.hasRoom (portOf a) 1 then s
    else ((s.noteRead a n).useBanks a n).emit (.reply (if s.anyBad a n then 2 else 0) (s.bytesAt a n))) := by
  have hsize : ¬ (!s.hostTarget a n || !oneUnit a n || decide (n < 32) || n &&& (n - 1) != 0 || a % n != 0) = true := by
    simp only [ht, hu, ha, Bool.not_true, Bool.false_or, bne_self_eq_false, Bool.or_false]
    fin_cases hn <;> decide
  refine (live_of s _ (State.lost_of_hostAlive hh)).trans (congrArg _ ((if_neg (by simp [hh])).trans ((if_neg hsize).trans ?_)))
  rw [← anyMarked_mbytesAt, ← map_fst_mbytesAt]
  rfl

theorem memoryRead_answers (hs : s.meshRegs.service = true) (hb : s.busyAt a n = false) (hr : s.hasRoom (portOf a) 1 = true) :
    ∃ t, exec (.memoryRead a n ⟨⟨[], router, false⟩, []⟩) s = .next t ∧ (∀ x, t.byteAt x = s.byteAt x) ∧
      t.outbox = s.outbox ++ [.reply (if s.anyBad a n then 2 else 0) (s.bytesAt a n)] := by
  obtain ⟨hout, hmem⟩ := (s.noteRead a n).useBanks_keeps a n
  refine ⟨_, (exec_memoryRead_of_target hh ht hu hn ha).trans (congrArg _ (if_neg (by simp [hs, hb, hr]))), ?_, ?_⟩
  · exact State.byteAt_congr (hmem.trans (s.noteRead_mem a n))
  · exact congrArg (· ++ _) (hout.trans (s.outbox_noteRead a n))

end

/-! ### Writes (R374, R528 to R530) -/

/-- A byte after a write of data at a, in which some bytes are not enabled. -/
def patched (a : Nat) (data : List (Option Byte)) (x : Nat) (b : Byte) : Byte := if a ≤ x then (data.getD (x - a) none).getD b else b

theorem patched_patched (a : Nat) (data : List (Option Byte)) (x : Nat) (b : Byte) : patched a data x (patched a data x b) = patched a data x b := by
  unfold patched
  split
  · cases data.getD (x - a) none <;> rfl
  · rfl

/-- The data of a write whose bytes meet nothing on their way. -/
def withPoison (poison : Bool) (data : List (Option Byte)) : List (Option MByte) := data.map (Option.map fun b => (b, poison))

theorem hostPayload_of_clean (s : State) (data : List (Option Byte)) (poison : Bool) (router : Nat) :
    s.hostPayload ⟨data, poison⟩ ⟨[], router, false⟩ = (s, withPoison poison data) := by
  simp only [State.hostPayload, State.payload_nil, withPoison]
  congr 1
  induction data with
  | nil => rfl
  | cons b data ih => cases b <;> simpa using ih

theorem withPoison_getD (poison : Bool) (data : List (Option Byte)) (i : Nat) :
    (withPoison poison data).getD i none = (data.getD i none).map fun b => (b, poison) := by
  simp only [withPoison, List.getD_eq_getElem?_getD, List.getElem?_map]
  cases data[i]? <;> rfl

/-- The bytes of a word that a write of data enables. -/
def enabledIn (a : Nat) (data : List (Option MByte)) (w : Nat) : List Nat :=
  (List.range 8).filter (fun j => a ≤ 8 * w + j && (data.getD (8 * w + j - a) none).isSome)

/-- One word of a write: nothing where none of its bytes is enabled, else the merged word stored; nothing leaves the device. -/
theorem State.hostWord_spec (a : Nat) (data : List (Option MByte)) (s : State) (w : Nat) : (State.hostWord a data s w).outbox = s.outbox ∧
    (State.hostWord a data s w).mem = if (enabledIn a data w).length = 0 then s.mem else putBytes s.mem (8 * w) ((s.mergedWord a data w).map Prod.fst) := by
  have hread : ∀ n : Nat, (if n < 8 then s.wordRead w else s).mem = s.mem ∧ (if n < 8 then s.wordRead w else s).outbox = s.outbox := fun n => by
    split
    · exact ⟨(s.wordRead_onlyNoted w).mem, s.outbox_wordRead w⟩
    · exact ⟨rfl, rfl⟩
  unfold State.hostWord
  extract_lets n s1 bad ws s2 s3 s4
  change (if n = 0 then s else _).outbox = _ ∧ (if n = 0 then s else _).mem = if n = 0 then _ else _
  by_cases hn : n = 0
  · simp only [if_pos hn, and_self]
  rw [if_neg hn, if_neg hn]
  obtain ⟨hmem, hout⟩ : s1.mem = s.mem ∧ s1.outbox = s.outbox := hread n
  have hws : ws = s.mergedWord a data w := by
    simp only [ws, State.mergedWord, State.byteAt_congr hmem]
  have h3 : s3.mem = s2.mem ∧ s3.outbox = s2.outbox := by
    simp only [s3]
    split
    · exact ⟨(s2.wordPoisoned_onlyNoted w).mem, s2.outbox_wordPoisoned w⟩
    · exact ⟨rfl, rfl⟩
  have h4 : s4.mem = s3.mem ∧ s4.outbox = s3.outbox := by
    simp only [s4]
    split <;> exact ⟨rfl, rfl⟩
  refine ⟨h4.2.trans (h3.2.trans hout), h4.1.trans (h3.1.trans ?_)⟩
  rw [← hws, ← hmem]
  rfl

theorem mergedWord_getD (s : State) (a : Nat) (data : List (Option Byte)) (poison : Bool) (w : Nat) {j : Nat} (hj : j < 8) :
    ((s.mergedWord a (withPoison poison data) w).map Prod.fst).getD j unlisted = patched a data (8 * w + j) (s.byteAt (8 * w + j)) := by
  simp only [State.mergedWord, List.map_map, List.getD_eq_getElem?_getD, List.getElem?_map, List.getElem?_range hj, Option.map_some, Option.getD_some,
    Function.comp_apply, patched]
  by_cases hle : a ≤ 8 * w + j
  · simp only [if_pos hle, ← List.getD_eq_getElem?_getD, withPoison_getD]
    cases data.getD (8 * w + j - a) none <;> rfl
  · simp only [if_neg hle]

/-- What one word of a write leaves of the bytes: those of the word, patched. -/
theorem State.byteAt_hostWord (a : Nat) (data : List (Option Byte)) (poison : Bool) (s : State) (w x : Nat) :
    (State.hostWord a (withPoison poison data) s w).byteAt x = if x / 8 = w then patched a data x (s.byteAt x) else s.byteAt x := by
  have hlen : ((s.mergedWord a (withPoison poison data) w).map Prod.fst).length = 8 := by simp [State.mergedWord]
  rw [State.byteAt, (State.hostWord_spec a (withPoison poison data) s w).2]
  by_cases hn : (enabledIn a (withPoison poison data) w).length = 0
  · rw [if_pos hn]
    split
    next hx =>
      have hnone : ¬ (a ≤ x ∧ (data.getD (x - a) none).isSome) := fun h => by
        have hmem : x - 8 * w ∈ enabledIn a (withPoison poison data) w := by
          have hx' : 8 * w + (x - 8 * w) = x := by omega
          refine List.mem_filter.2 ⟨List.mem_range.2 (by omega), ?_⟩
          simp only [hx', withPoison_getD, Option.isSome_map, h.1, h.2, decide_true, Bool.and_self]
        exact List.ne_nil_of_mem hmem (List.eq_nil_of_length_eq_zero hn)
      unfold patched
      split
      next hle =>
        have : data.getD (x - a) none = none := by simpa [hle] using hnone
        rw [this]
        rfl
      next => rfl
    next => rfl
  · rw [if_neg hn, get_putBytes, hlen]
    by_cases hx : x / 8 = w
    · have hx' : 8 * w + (x - 8 * w) = x := by omega
      rw [if_pos (by omega), if_pos hx, mergedWord_getD s a data poison w (by omega), hx']
    · rw [if_neg (by omega), if_neg hx]
      rfl

theorem State.byteAt_hostWords (a : Nat) (data : List (Option Byte)) (poison : Bool) (l : List Nat) (s : State) (x : Nat) :
    (l.foldl (State.hostWord a (withPoison poison data)) s).byteAt x = if x / 8 ∈ l then patched a data x (s.byteAt x) else s.byteAt x := by
  induction l generalizing s with
  | nil => simp
  | cons w l ih =>
    rw [List.foldl_cons, ih, State.byteAt_hostWord]
    by_cases hw : x / 8 = w
    · simp only [hw, if_true, List.mem_cons, true_or, patched_patched]
      split <;> rfl
    · simp [hw]

/-- Enabled bytes stored one by one. -/
theorem byteAt_enabledRuns (a : Nat) (poison : Bool) (data : List (Option Byte)) : ∀ (k : Nat) (s : State) (x : Nat),
    ((((withPoison poison data).zipIdx k).filterMap (fun p => p.1.map (fun b => (a + p.2, [b])))).foldl (fun s x => s.noteWrite x.1 x.2) s).byteAt x =
      patched (a + k) data x (s.byteAt x) := by
  induction data with
  | nil => intro k s x; simp [withPoison, patched]
  | cons o data ih =>
    intro k s x
    have hrest : ∀ b : Byte, patched (a + k) (o :: data) x b = if x = a + k then o.getD b else patched (a + (k + 1)) data x b := fun b => by
      unfold patched
      by_cases hx : x = a + k
      · rw [if_pos (by omega), if_pos hx, hx, Nat.sub_self]
        rfl
      · rw [if_neg hx]
        by_cases hle : a + k ≤ x
        · have hsub : x - (a + k) = (x - (a + (k + 1))) + 1 := by omega
          rw [if_pos hle, if_pos (by omega), hsub]
          rfl
        · rw [if_neg hle, if_neg (by omega)]
    rw [hrest]
    cases o with
    | none =>
      refine (ih (k + 1) s x).trans ?_
      split
      next hx => exact if_neg (by omega)
      next => rfl
    | some b =>
      refine (ih (k + 1) (s.noteWrite (a + k) [(b, poison)]) x).trans ?_
      rw [State.byteAt_noteWrite]
      by_cases hx : x = a + k
      · rw [if_pos (by simp [hx]), if_pos hx, hx, Nat.sub_self]
        exact if_neg (by omega)
      · rw [if_neg (by simp; omega), if_neg hx]

section
variable {s : State} {a router : Nat} {data : List (Option Byte)} (poison : Bool) (hh : s.hostAlive = true)
include hh

theorem exec_memoryWrite_of_noTarget (ht : s.hostTarget a data.length = false) :
    exec (.memoryWrite a ⟨data, poison⟩ ⟨[], router, false⟩) s = .next (s.emit (.reply 1 [])) :=
  (live_of s _ (State.lost_of_hostAlive hh)).trans (congrArg _ ((if_neg (by simp [hh])).trans (if_pos (by simp [ht]))))

variable (ht : s.hostTarget a data.length = true) (hu : oneUnit a data.length = true) (hs : s.meshRegs.service = true)
  (hb : s.busyAt a data.length = false) (hr : s.hasRoom (portOf a) 3 = true)
include ht hu hs hb hr

theorem exec_memoryWrite_of_target : exec (.memoryWrite a ⟨data, poison⟩ ⟨[], router, false⟩) s = .next
    (if inWordMem a then (((List.range ((a + data.length + 7) / 8 - a / 8)).map (fun i => a / 8 + i)).foldl
      (State.hostWord a (withPoison poison data)) s).emit (.reply 0 [])
    else (((enabledRuns a (withPoison poison data)).foldl (fun s x => s.noteWrite x.1 x.2) s).useBanks a data.length).emit (.reply 0 [])) := by
  refine (live_of s _ (State.lost_of_hostAlive hh)).trans (congrArg _ ((if_neg (by simp [hh])).trans ((if_neg (by simp [ht, hu])).trans
    ((if_neg (by simp [hs, hb, hr])).trans ((if_neg Bool.false_ne_true).trans ?_)))))
  rw [hostPayload_of_clean]

theorem memoryWrite_stores : ∃ t, exec (.memoryWrite a ⟨data, poison⟩ ⟨[], router, false⟩) s = .next t ∧ t.outbox = s.outbox ++ [.reply 0 []] ∧
    ∀ x, t.byteAt x = patched a data x (s.byteAt x) := by
  rw [exec_memoryWrite_of_target poison hh ht hu hs hb hr]
  by_cases hw : inWordMem a = true
  · rw [if_pos hw]
    refine ⟨_, rfl, congrArg (· ++ _) (foldl_outbox (fun s w => (State.hostWord_spec a _ s w).1) _ s), fun x => ?_⟩
    refine (State.byteAt_hostWords a data poison _ s x).trans ?_
    split
    next => rfl
    next hx =>
      have hout : ¬ (a ≤ x ∧ x < a + data.length) := fun h => hx (List.mem_map.2 ⟨x / 8 - a / 8, List.mem_range.2 (by omega), by omega⟩)
      unfold patched
      split
      next hle =>
        rw [List.getD_eq_default _ _ (by omega)]
        rfl
      next => rfl
  · rw [if_neg hw]
    obtain ⟨hout, hmem⟩ := ((enabledRuns a (withPoison poison data)).foldl (fun s x => s.noteWrite x.1 x.2) s).useBanks_keeps a data.length
    refine ⟨_, rfl, congrArg (· ++ _) (hout.trans (foldl_outbox (fun s (x : Nat × List MByte) => s.outbox_noteWrite x.1 x.2) _ s)), fun x => ?_⟩
    exact (State.byteAt_congr hmem x).trans (byteAt_enabledRuns a poison data 0 s x)

end

/-! ### Register writes (R646, R650) -/

theorem clearBits_zero (v : Nat) : clearBits v 0 = v := by rw [clearBits, Nat.and_zero, Nat.sub_zero]

/-- A register's W1C bits of a write: those that the device sets in the same cycle are left out (R12). -/
theorem clearBits_mod (value raced : Nat) : clearBits value (raced &&& 31) % 2 ^ (8 * 4) % 32 = clearBits (value % 32) raced := by
  have hlow : value &&& (raced &&& 31) = value % 32 &&& raced := by
    rw [← Nat.and_two_pow_sub_one_eq_mod value 5, Nat.and_assoc, Nat.and_comm raced]
  have hle : value % 32 &&& raced ≤ value % 32 := Nat.and_le_left
  rw [clearBits, hlow, clearBits]
  omega

section
variable {s : State} {off w value raced : Nat} (hr : s.regAlive = true)
include hr

theorem exec_registerWrite : exec (.registerWrite off w ⟨value, raced⟩) s = .next
    (if s.regWaits off = true ∨ (0x200000 ≤ off ∧ off < 0x2A0000 ∧ s.cfgWait ≠ []) then
      { s with cfgWait := s.cfgWait ++ [(off, w, clearBits value (raced &&& w1cBits off))] }
    else s.cfgWrite off w (clearBits value (raced &&& w1cBits off))) := by
  refine (live_of s _ (State.lost_of_regAlive hr)).trans (congrArg _ ((if_neg (by simp [hr])).trans ?_))
  refine if_congr ?_ rfl rfl
  simp [inCores, and_assoc]

variable (hw : ¬ (s.regWaits off = true ∨ (0x200000 ≤ off ∧ off < 0x2A0000 ∧ s.cfgWait ≠ [])))
include hw

theorem exec_registerWrite_of_other (h : ∀ c, s.reg off w ≠ some (w, c)) :
    exec (.registerWrite off w ⟨value, raced⟩) s = .next (s.emit (.reply 1 [])) := by
  rw [exec_registerWrite hr, if_neg hw, State.cfgWrite]
  split
  next n c hreg => rw [if_neg fun hn : n = w => h c (by rw [hreg, hn])]
  next => rfl

theorem exec_registerWrite_of_reg {c : Nat} (h : s.reg off w = some (w, c)) : exec (.registerWrite off w ⟨value, raced⟩) s =
    .next ((s.regPut off (clearBits value (raced &&& w1cBits off) % 2 ^ (8 * w))).emit (.reply 0 [])) := by
  rw [exec_registerWrite hr, if_neg hw, State.cfgWrite, h]
  exact congrArg _ (if_pos rfl)

end

section
variable (s : State) {r : Nat} (hlt : r < 64)
include hlt

theorem reg_ringBase : s.reg (0x1000 + 32 * r) 8 = some (8, (s.cring r).base) := by
  have hindex : (0x1000 + 32 * r - 0x1000) / 32 = r := by omega
  have hfield : (0x1000 + 32 * r) % 32 = 0 := by omega
  have hans : s.answers (0x1000 + 32 * r) = true := by
    simp only [State.answers, Bool.or_eq_true, decide_eq_true_eq]
    omega
  rw [State.reg, hans, if_neg (by decide), if_pos (by omega), State.regUci, if_neg (by omega), if_neg (by omega), if_neg (by omega), if_neg (by omega),
    if_neg (by omega), if_pos (by omega), hindex, hfield]
  rfl

theorem regPut_ringBase {v : Nat} (he : (s.cring r).en = false) :
    s.regPut (0x1000 + 32 * r) v = s.setCring r { s.cring r with base := v % 2 ^ 47 / 4096 * 4096 } := by
  have hindex : (0x1000 + 32 * r - 0x1000) / 32 = r := by omega
  have hfield : (0x1000 + 32 * r) % 32 = 0 := by omega
  rw [State.regPut, if_pos (by omega), State.putUci, if_neg (by omega), if_pos (by omega), hindex, hfield]
  exact if_neg (by simp [he])

omit s in
theorem w1cBits_ringBase : w1cBits (0x1000 + 32 * r) = 0 := by
  unfold w1cBits
  rw [if_neg (by omega), if_neg (by omega), if_neg (by omega), if_neg (by omega)]
  split <;> omega

end

theorem reg_pressErr {s : State} (hd : s.boot.done = true) : s.reg 0x700008 4 = some (4, s.press.err) := by
  have hans : s.answers 0x700008 = true := by simp [State.answers, hd]
  rw [State.reg, hans]
  rfl

theorem reg_memEccCtl {s : State} (hd : s.boot.done = true) : s.reg 0x40F000 4 = some (4, s.memEccCtl) := by
  have hans : s.answers 0x40F000 = true := by simp [State.answers, hd]
  rw [State.reg, hans]
  rfl

theorem regPut_pressErr (s : State) (v : Nat) :
    s.regPut 0x700008 v = { s with press := { s.press with err := clearBits s.press.err (v % 32) } } := rfl

theorem regPut_memEccCtl (s : State) (v : Nat) : s.regPut 0x40F000 v = { s with memEccCtl := fields [(8, bits v 10 8), (0, bits v 1 0)] } := rfl

/-- Settles O56: each access by its target and by what keeps it waiting. -/
theorem hostAccessesAnswer : Obligations.HostAccessesAnswer := by
  refine ⟨fun a n router s hh => ⟨fun ht => exec_memoryRead_of_noTarget hh ht, fun ht hu hn ha => ⟨fun hs => ?unserved, fun hs hb hr =>
      memoryRead_answers hh ht hu hn ha hs hb hr⟩⟩,
    fun a router data poison s hh => ⟨fun ht => exec_memoryWrite_of_noTarget poison hh ht, fun ht hu hs hb hr => memoryWrite_stores poison hh ht hu hs hb hr⟩,
    fun off w value raced s hr => ?register⟩
  case unserved =>
    exact (exec_memoryRead_of_target hh ht hu hn ha).trans (congrArg _ (if_pos (by simp [hs])))
  case register =>
    intro v waits
    refine ⟨fun hw => (exec_registerWrite hr).trans (congrArg _ (if_pos hw)), fun hw => ⟨fun h => exec_registerWrite_of_other hr hw h,
      fun c h => exec_registerWrite_of_reg hr hw h, fun r hlt hoff hwidth he => ?_, fun hd hoff hwidth => ?_, fun hd hoff hwidth => ?_⟩⟩
    · subst hoff hwidth
      rw [exec_registerWrite_of_reg hr hw (reg_ringBase s hlt), regPut_ringBase s hlt he, w1cBits_ringBase hlt, Nat.and_zero, clearBits_zero]
      have hbase : value % 2 ^ (8 * 8) % 2 ^ 47 = value % 2 ^ 47 := by omega
      rw [hbase]
    · subst hoff hwidth
      rw [exec_registerWrite_of_reg hr hw (reg_pressErr hd), regPut_pressErr]
      have hbits : w1cBits 0x700008 = 31 := rfl
      rw [hbits, clearBits_mod]
    · subst hoff hwidth
      rw [exec_registerWrite_of_reg hr hw (reg_memEccCtl hd), regPut_memEccCtl]
      have hbits : w1cBits 0x40F000 = 0 := rfl
      have hfields : fields [(8, bits (value % 2 ^ (8 * 4)) 10 8), (0, bits (value % 2 ^ (8 * 4)) 1 0)] = value / 2 ^ 8 % 8 * 2 ^ 8 + value % 4 := by
        simp only [fields, bits, List.map_cons, List.map_nil, List.sum_cons, List.sum_nil]
        omega
      rw [hbits, Nat.and_zero, clearBits_zero, hfields]

end Sys2Proof.Machine
end

section
/-! PROOFS. Runs: start, refusals, completion (08 R275 to R279; 18 R566, R567, R587). -/

namespace Sys2Proof.Machine

/-! ### The start of a run -/

/-- What follows the start of a run in its own cycle leaves all but the injection queues. -/
theorem State.earlyAtDelivery_spec (s : State) (n : Nat) : (s.earlyAtDelivery n).run = s.run ∧ (s.earlyAtDelivery n).prog = s.prog ∧
    ∀ c, s.fuse.active c = true → ∃ injq, (s.earlyAtDelivery n).core c = { s.core c with injq := injq } := by
  unfold State.earlyAtDelivery
  split
  next => exact ⟨rfl, rfl, fun c _ => ⟨_, rfl⟩⟩
  next m _ =>
    refine ⟨rfl, rfl, fun c ha => ?_⟩
    rw [State.core_mapCores_of_active ha]
    split
    · split
      · exact ⟨_, rfl⟩
      · exact ⟨_, rfl⟩
    · exact ⟨_, rfl⟩

theorem State.startRun_spec (s : State) (cmd entry pc n : Nat) (inj : Option Nat) (args : List W64) (early : Bool) :
    (s.startRun cmd entry pc n inj args early).run = some { cmd := cmd, entry := entry, args := args, inj := inj, units := n, started := true, mem0 := s.mem } ∧
    (s.startRun cmd entry pc n inj args early).prog = s.prog ∧
    ∀ c, s.fuse.active c = true → ∃ injq, (s.startRun cmd entry pc n inj args early).core c = (s.core c).runStart pc injq s.hold.raising := by
  have hkeeps : ∀ t : State, t.settleHold.run = t.run ∧ t.settleHold.prog = t.prog ∧ t.settleHold.cores = t.cores := fun t =>
    ⟨by rw [t.settleHold_frame], by rw [t.settleHold_frame], t.settleHold_cores⟩
  unfold State.startRun
  extract_lets s1 kept
  refine ⟨(hkeeps _).1, (hkeeps _).2.1, fun c ha => ?_⟩
  refine ⟨_, (congrArg (Sparse.get ({} : Core) · c) (hkeeps _).2.2).trans (State.core_mapCores_of_active ha fun c k =>
    k.runStart pc (match s.fuse.injQuarter c with
      | some q => startQueue n q (if early then k.injq else [])
      | none => []) s.hold.raising)⟩

/-- What the start of a run leaves of a core (R275, R295). -/
theorem Core.runStart_spec (k : Core) (pc : Nat) (q q' : List InjUnit) (held : Bool) : let x := { k.runStart pc q held with injq := q' }
    x.issuing = true ∧ x.ended = false ∧ x.sched = 0 ∧ x.stepNo = 0 ∧ x.stopped = (if k.stopped.isSome ∨ held = true then some 0 else none) ∧
      x.pc = pc ∧ x.sregs = [] ∧ x.streams = [] ∧ x.loops = [] ∧ x.pail = k.pail ∧ x.acc = k.acc ∧ x.sems = k.sems := by
  refine ⟨rfl, rfl, rfl, rfl, ?_, rfl, rfl, rfl, rfl, rfl, rfl, rfl⟩
  exact if_congr (by simp) rfl rfl

/-! ### The delivery of a run -/

/-- The delivered run, with its place in its ring noted for the run that may follow it (R226). -/
def runDelivered (s : State) (r : Nat) (d : Desc) : State :=
  { delivered s r d with lastRun := some (r, (((delivered s r d).cring r).head + 2 ^ 32 - 1) % 2 ^ 32) }

theorem runDelivered_keeps (s : State) (r : Nat) (d : Desc) : (runDelivered s r d).run = s.run ∧ (runDelivered s r d).prog = s.prog ∧
    (runDelivered s r d).mem = s.mem ∧ (runDelivered s r d).cores = s.cores ∧ (runDelivered s r d).fuse = s.fuse ∧
    (runDelivered s r d).hold = s.hold := by
  rw [runDelivered, delivered_eq]
  exact ⟨rfl, rfl, rfl, rfl, rfl, rfl⟩

/-- The units requested early are discarded (R226). -/
def State.dropEarly (s : State) : State :=
  { s.mapCores (fun _ k => { k with injq := k.injq.filter (fun i => !i.forNext) }) with units := s.units.filter (fun e => e.1 < 2 ^ 40) }

/-- The unit table that a run injects from: none where it injects nothing. -/
def runTable (d : Desc) (p : Prog) : Option Table := if bitOf (fieldAt d 10 1) 7 then p.table (fieldAt d 10 1 % 16) else none

/-- A run's unit table is one of KIND 0x00, where it names one. -/
def tableOk (d : Desc) (p : Prog) : Bool := !bitOf (fieldAt d 10 1) 7 || (match runTable d p with
  | some t => !t.op
  | none => false)

/-- The units of a run's table. -/
def tableCount (d : Desc) (p : Prog) : Nat := match runTable d p with
  | some t => t.count
  | none => 0

theorem tableCount_eq (d : Desc) (p : Prog) : tableCount d p = ((runTable d p).map (fun x => x.count)).getD 0 := by
  unfold tableCount
  split
  next h => rw [h]; rfl
  next h => rw [h]; rfl

/-- The fields of a run's descriptor that the spec reserves are zero. -/
def runFieldsOk (d : Desc) : Prop := (zeroAt d 1 3 && zeroAt d 11 5 && zeroAt d 48 16) = true ∧ fieldAt d 10 1 / 16 % 8 = 0

/-- The units requested early are this run's own: the run before it in its ring was the last run (R226). -/
def runEarly (s : State) (r : Nat) (d : Desc) : Bool :=
  (delivered s r d).lastRun == some (r, (((delivered s r d).cring r).head + 2 ^ 32 - 2) % 2 ^ 32)

/-- The run's arguments. -/
def runArgs (d : Desc) : List W64 := (List.range 4).map (fun i => BitVec.ofNat 64 (fieldAt d (16 + 8 * i) 8))

/-- A run that is accepted, with program p in force. -/
def State.runStarted (s : State) (r : Nat) (d : Desc) (p : Prog) : State :=
  (runDelivered s r d).startRun s.cmdId (fieldAt d 8 2) (p.entries.getD (fieldAt d 8 2) 0) (tableCount d p)
    ((runTable d p).map (fun t => t.ut)) (runArgs d) (runEarly s r d)

section
variable {s : State} {r : Nat} {d : Desc} (h : Offered s r .run d) (hz : runFieldsOk d)
include h hz

theorem exec_run : exec (.run r) s = .next (match (runDelivered s r d).prog with
    | none => (runDelivered s r d).dropEarly.complete s.cmdId [6] (detailOf [(8, 0), (4, 0), (2, 0xFFFF)])
    | some p => if p.entries.length ≤ fieldAt d 8 2 ∨ !tableOk d p then
        (runDelivered s r d).dropEarly.complete s.cmdId [1] (detailOf [(8, 0), (4, 0), (2, 0xFFFF)])
      else (s.runStarted r d p).earlyAtDelivery (tableCount d p)) := by
  obtain ⟨h1, h2⟩ := hz
  exact (live_of s _ h.1).trans (congrArg _ ((deliver_of h _).trans (if_neg (by simp [h1, h2]))))

end

/-- A start says of its cores what the start of a run leaves, by R275. -/
theorem State.runStarted_spec (s : State) (r : Nat) (d : Desc) (p : Prog) (n : Nat) : ∃ ru, ((s.runStarted r d p).earlyAtDelivery n).run = some ru ∧
    ru.cmd = s.cmdId ∧ ru.entry = fieldAt d 8 2 ∧ ru.inj = (runTable d p).map (fun x => x.ut) ∧
    ru.units = tableCount d p ∧ ru.args = runArgs d ∧ ru.cond = 0 ∧
    ((s.runStarted r d p).earlyAtDelivery n).prog = s.prog ∧
    ∀ c, s.fuse.active c = true → ∃ q q', ((s.runStarted r d p).earlyAtDelivery n).core c =
      { (s.core c).runStart (p.entries.getD (fieldAt d 8 2) 0) q s.hold.raising with injq := q' } := by
  obtain ⟨-, hprog, -, hcores, hfuse, hhold⟩ := runDelivered_keeps s r d
  obtain ⟨hrun', hprog', hcore'⟩ := (runDelivered s r d).startRun_spec s.cmdId (fieldAt d 8 2) (p.entries.getD (fieldAt d 8 2) 0)
    (tableCount d p) ((runTable d p).map (fun t => t.ut)) (runArgs d) (runEarly s r d)
  obtain ⟨hrun, hprog'', hcore⟩ := (s.runStarted r d p).earlyAtDelivery_spec n
  refine ⟨_, hrun.trans hrun', rfl, rfl, rfl, rfl, rfl, rfl, hprog''.trans (hprog'.trans hprog), fun c ha => ?_⟩
  have hc : (runDelivered s r d).core c = s.core c := congrArg (Sparse.get ({} : Core) · c) hcores
  have hf : (s.runStarted r d p).fuse = s.fuse := (State.startRun_fuse ..).trans hfuse
  obtain ⟨q, hq⟩ := hcore' c (by rw [hfuse]; exact ha)
  obtain ⟨q', hq'⟩ := hcore c (by rw [hf]; exact ha)
  refine ⟨q, q', hq'.trans ?_⟩
  rw [show (s.runStarted r d p).core c = _ from hq, hc, hhold]

/-- The units requested early go from the active cores; a core keeps all else. -/
theorem State.dropEarly_core (s : State) {c : Nat} (hc : c < 160) : s.dropEarly.core c = { s.core c with injq := (s.dropEarly.core c).injq } ∧
    (s.fuse.active c = true → ∀ i ∈ (s.dropEarly.core c).injq, i.forNext = false) := by
  have hcore : s.dropEarly.core c = if s.fuse.active c then { s.core c with injq := (s.core c).injq.filter (fun i => !i.forNext) } else s.core c :=
    (s.core_mapCores (fun _ k => { k with injq := k.injq.filter (fun i => !i.forNext) }) c).trans (if_pos hc)
  rw [hcore]
  cases s.fuse.active c with
  | true => exact ⟨rfl, fun _ i hi => by simpa using (List.mem_filter.1 hi).2⟩
  | false => exact ⟨rfl, fun hf => absurd hf (by decide)⟩

/-! ### The end of a run -/

/-- The run with its first condition's core and the count of its end noted. -/
def State.notedRun (s : State) (r : RunState) : RunState :=
  { r with
    firstCore := r.firstCore.or ((List.range 160).find? (fun c => (s.core c).cond != 0))
    endCount := r.endCount.or ((s.fuse.ring.find? (fun c => (s.core c).ended)).map (fun c => (s.core c).sched)) }

theorem State.noteFirst_eq {s : State} {r : RunState} (h : s.run = some r) : s.noteFirst = { s with run := some (s.notedRun r) } := by
  unfold State.noteFirst
  rw [h]
  cases hf : r.firstCore with
  | none => cases he : r.endCount with
    | none => simp [State.notedRun, hf, he, Config.nPhys]
    | some n => simp [State.notedRun, hf, he, Config.nPhys]
  | some c => cases he : r.endCount with
    | none => simp [State.notedRun, hf, he]
    | some n =>
      have hsame : s.notedRun r = r := by rw [State.notedRun, hf, he, Option.some_or, Option.some_or, ← hf, ← he]
      simp [hsame, hf, he]

/-- A state with its run over: lanes empty, requests that no STEP reached cancelled (R278). -/
def State.runOver (s : State) : State :=
  { s.mapCores (fun _ k => { k with issuing := false, fwd := {}, wbufActive := {}, ret := {}, retPrev := {}, round := none,
                                     injq := k.injq.filter (fun i => i.forNext), cond := 0 }) with
    run := none, units := s.units.filter (fun e => 2 ^ 40 ≤ e.1) }

theorem State.finishRun_eq {s : State} {r : RunState} (h : s.run = some r) (hr : r.restart = false) (hc : r.cut = false) :
    s.finishRun = s.runOver.complete r.cmd (runStatuses (s.conditions r) r.remote)
      (detailOf [(8, (s.notedRun r).endCount.getD 0), (4, s.conditions r), (2, (s.notedRun r).firstCore.getD 0xFFFF)]) := by
  have hr' : (s.notedRun r).restart = false := hr
  have hc' : (s.notedRun r).cut = false := hc
  unfold State.finishRun
  rw [State.noteFirst_eq h]
  simp only [hr', hc', Bool.false_and, Bool.false_eq_true, if_false, State.cutStatus]
  rfl


/-- A run whose cores have ended and drained is finished; one with a core that has not stays (R277). -/
theorem exec_runCompletion {s : State} {r : RunState} (hl : s.clk.lost = false) (h : s.run = some r) (hr : r.restart = false) (hc : r.cut = false) :
    exec .runCompletion s = .next (if !s.fuse.ring.all (fun c => (s.core c).ended) || s.runRemote then s
      else if s.fuse.ring.all (fun c => (s.core c).drained) then s.finishRun else s) := by
  refine (live_of s _ hl).trans (congrArg _ ?_)
  rw [h]
  dsimp only
  rw [hr, hc]
  simp

/-- What a run's end leaves of a core (R278). -/
theorem State.runOver_core {s : State} {c : Nat} (ha : s.fuse.active c = true) :
    (s.runOver.core c).issuing = false ∧ (s.runOver.core c).pail = (s.core c).pail ∧ (s.runOver.core c).acc = (s.core c).acc := by
  have hcore : s.runOver.core c = { s.core c with
      issuing := false, fwd := {}, wbufActive := {}, ret := {}, retPrev := {}, round := none, injq := (s.core c).injq.filter (fun i => i.forNext), cond := 0 } :=
    State.core_mapCores_of_active ha (fun _ k => { k with issuing := false, fwd := {}, wbufActive := {}, ret := {}, retPrev := {}, round := none, injq := k.injq.filter (fun i => i.forNext), cond := 0 })
  rw [hcore]
  exact ⟨rfl, rfl, rfl⟩

/-- The first core with a condition (R587). -/
theorem State.notedRun_firstCore (s : State) (r : RunState) : (∀ c, r.firstCore = some c → (s.notedRun r).firstCore = some c) ∧
    (r.firstCore = none → (∀ c, c < 160 → (s.core c).cond = 0) → (s.notedRun r).firstCore = none) ∧
    (r.firstCore = none → ∀ c, c < 160 → (s.core c).cond ≠ 0 → (∀ x, x < c → (s.core x).cond = 0) → (s.notedRun r).firstCore = some c) := by
  refine ⟨fun c hc => ?_, fun hn hz => ?_, fun hn c hc hne hlt => ?_⟩
  · rw [State.notedRun, hc, Option.some_or]
  · rw [State.notedRun, hn, Option.none_or, List.find?_eq_none]
    intro c hc
    simp [hz c (List.mem_range.1 hc)]
  · rw [State.notedRun, hn, Option.none_or, List.find?_range_eq_some]
    exact ⟨by simp [hne], List.mem_range.2 hc, fun x hx => by simp [hlt x hx]⟩

/-! ### The obligation -/

/-- The table that a run names is the one its start injects from. -/
theorem runTable_of {d : Desc} {p : Prog} {tb : Option Table} (h : bitOf (fieldAt d 10 1) 7 = false ∧ tb = none ∨
    bitOf (fieldAt d 10 1) 7 = true ∧ p.table (fieldAt d 10 1 % 16) = tb ∧ ∃ x, tb = some x ∧ x.op = false) :
    runTable d p = tb ∧ tableOk d p = true := by
  unfold tableOk runTable
  rcases h with ⟨hb, rfl⟩ | ⟨hb, rfl, x, hx, ho⟩
  · simp [hb]
  · simp [hb, hx, ho]

theorem tableOk_eq_false {d : Desc} {p : Prog} (hb : bitOf (fieldAt d 10 1) 7 = true)
    (h : p.table (fieldAt d 10 1 % 16) = none ∨ ∃ x, p.table (fieldAt d 10 1 % 16) = some x ∧ x.op = true) : tableOk d p = false := by
  unfold tableOk runTable
  rcases h with hn | ⟨x, hx, ho⟩
  · simp [hb, hn]
  · simp [hb, hx, ho]

/-- A start: its run, its program and what it leaves of the cores (R275, R566). -/
theorem exec_run_starts {s : State} {r : Nat} {d : Desc} {p : Prog} (h : Offered s r .run d) (hp : s.prog = some p) (hz : runFieldsOk d)
    (he : fieldAt d 8 2 < p.entries.length) (hok : tableOk d p = true) :
    exec (.run r) s = .next ((s.runStarted r d p).earlyAtDelivery (tableCount d p)) := by
  rw [exec_run h hz, (runDelivered_keeps s r d).2.1, hp]
  exact congrArg _ (if_neg (by simp [hok]; omega))

/-- A refusal is recorded, and what was requested for the run is discarded (R226, R567). -/
theorem exec_run_refused {s : State} {r : Nat} {d : Desc} {status : Nat} (h : Offered s r .run d) (hz : runFieldsOk d)
    (hs : s.prog = none ∧ status = 6 ∨ ∃ p, s.prog = some p ∧ status = 1 ∧ (p.entries.length ≤ fieldAt d 8 2 ∨ tableOk d p = false)) :
    exec (.run r) s = .next ((runDelivered s r d).dropEarly.complete s.cmdId [status] (detailOf [(8, 0), (4, 0), (2, 0xFFFF)])) := by
  rw [exec_run h hz, (runDelivered_keeps s r d).2.1]
  rcases hs with ⟨hp, rfl⟩ | ⟨p, hp, rfl, hbad⟩
  · rw [hp]
  · rw [hp]
    exact congrArg _ (if_pos (hbad.imp_right fun hb => by rw [hb]; rfl))

/-- Settles O45: a run is accepted or refused as its descriptor and the program say, starts as R275 says, and completes with what it noted once its
    cores have ended and drained. -/
theorem runsStartAndComplete : Obligations.RunsStartAndComplete := by
  unfold Obligations.RunsStartAndComplete
  refine ⟨fun r d s p h hp hz hz' he => ?_, fun r d s h hz hz' => ?_, fun s ru hl hr hrs hc => ⟨fun hall hrem => ?_, fun hsome => ?_⟩⟩
  · intro inj tb htb
    obtain ⟨htbl, hok⟩ := runTable_of htb
    obtain ⟨ru, hrun, hcmd, hentry, hinj, hunits, hargs, hcond, hprog, hcore⟩ := s.runStarted_spec r d p (tableCount d p)
    refine ⟨_, ru, exec_run_starts h hp ⟨hz, hz'⟩ he hok, hrun, hcmd, hentry, htbl ▸ hinj, ?_, hargs, hcond, hprog, ?_, fun c _ ha => ?_⟩
    · rw [hunits, tableCount_eq, htbl]
    · refine State.byteAt_congr ?_
      rw [State.earlyAtDelivery_mem, State.runStarted, State.startRun_mem]
      exact (runDelivered_keeps s r d).2.2.1
    · obtain ⟨q, q', hq⟩ := hcore c ha
      rw [hq]
      exact Core.runStart_spec ..
  · intro inj status hs
    refine ⟨_, exec_run_refused h ⟨hz, hz'⟩ (hs.imp_right fun ⟨p, hp, h1, hbad⟩ => ⟨p, hp, h1, hbad.imp_right fun ⟨hb, ht⟩ => tableOk_eq_false hb ht⟩), ?_⟩
    obtain ⟨hrun, hprog, hmem, hcores, hfuse, -⟩ := runDelivered_keeps s r d
    have hc : ∀ c, (runDelivered s r d).core c = s.core c := fun c => congrArg (Sparse.get ({} : Core) · c) hcores
    refine ⟨hrun, hprog, State.byteAt_congr hmem, fun c hlt => ?_⟩
    obtain ⟨hkeep, hdrop⟩ := (runDelivered s r d).dropEarly_core hlt
    exact ⟨hkeep.trans (by rw [hc]), fun ha => hdrop (by rw [hfuse]; exact ha)⟩
  · refine ⟨s.runOver, _, _, (exec_runCompletion hl hr hrs hc).trans (congrArg _ ((if_neg ?_).trans ((if_pos ?_).trans (State.finishRun_eq hr hrs hc)))), ?_⟩
    · simpa [hrem] using fun c hc => (hall c hc).1
    · simpa using fun c hc => (hall c hc).2
    · obtain ⟨hfirst, hnone, hleast⟩ := s.notedRun_firstCore ru
      refine ⟨fun n hn => by rw [State.notedRun, hn, Option.some_or, Option.getD_some], fun c h1 => by rw [hfirst c h1]; rfl,
        fun h1 h2 => by rw [hnone h1 h2]; rfl, fun h1 c h2 h3 h4 => by rw [hleast h1 c h2 h3 h4]; rfl, rfl, rfl, rfl, fun _ => rfl,
        fun c _ ha => State.runOver_core ha⟩
  · obtain ⟨c, hmem, hor⟩ := hsome
    refine (exec_runCompletion hl hr hrs hc).trans (congrArg _ ?_)
    rcases hor with he | hd
    · exact if_pos (by simpa using Or.inl ⟨c, hmem, he⟩)
    · refine (congrArg (ite _ s) (if_neg ?_)).trans (ite_self s)
      simpa using ⟨c, hmem, hd⟩

end Sys2Proof.Machine
end

section
/-! PROOFS. Context changes: a start whose writes wait for a stopped region (16 R518). -/

namespace Sys2Proof.Machine

/-- A bind's report for stack 0, while the region of that stack's router is stopped for a stopped change: no stack is quiesced, and the old
context has nothing outstanding. -/
def reportToStoppedRegion : State :=
  { State.ofReset resetFuse 0 with
    regions := [(regionOf (stackRouter 0), { stopped := true })]
    ctx := some { kind := 0, cmd := 9, seed := 77, prog := none, writes := [(0, [(0, false)])] } }

/-- A context whose tables or report lie where writes wait does not start yet (R380, R518). -/
theorem exec_contextStart_of_waits {s : State} {x : Ctx} {w : Nat × List MByte} (hl : s.clk.lost = false) (hx : s.ctx = some x)
    (hd : x.stepDown ≠ 1) (hw : w ∈ x.writes) (hwait : s.waitsRange w.1 w.2.length = true) : exec .contextStart s = .next s := by
  refine (live_of s _ hl).trans (congrArg _ ?_)
  rw [hx]
  refine (if_neg hd).trans ((congrArg (ite _ s) (if_pos ?_)).trans (ite_self s))
  rw [List.any_append, Bool.or_eq_true]
  exact .inr (List.any_eq_true.2 ⟨_, List.mem_map.2 ⟨w, hw, rfl⟩, hwait⟩)

theorem reportToStoppedRegion_waits : exec .contextStart reportToStoppedRegion = .next reportToStoppedRegion :=
  exec_contextStart_of_waits (w := (0, [(0, false)])) rfl rfl (by decide) (List.mem_singleton.2 rfl) (by decide +kernel)

/-- Refutes O46: the start of a context waits where a word that it writes lies beyond a stopped region (R518), though no stack is quiesced; the
statement's last clause asks for the new context there. -/
theorem not_contextsChange : ¬ Obligations.ContextsChange := by
  unfold Obligations.ContextsChange
  rintro ⟨-, -, -, -, hstart⟩
  obtain ⟨t, hexec, hctx, -⟩ := (hstart reportToStoppedRegion _ rfl rfl).1 (by decide) (by decide +kernel) rfl (fun _ => rfl)
  rw [reportToStoppedRegion_waits] at hexec
  cases hexec
  cases hctx

end Sys2Proof.Machine
end

section
/-! PROOFS. What a port sends: the pump, the idle slots that carry the control lane (15 R467 to R474). -/

namespace Sys2Proof.Machine

/-! ### Two writes of one key -/

theorem Sparse.erase_insert {α : Type} (i : Nat) (v : α) (m : Sparse α) : (Sparse.insert i v (m.erase i)).erase i = m.erase i := by
  have hinsert (l : Sparse α) : (Sparse.insert i v l).erase i = l.erase i := by
    induction l with
    | nil => simp [Sparse.insert, Sparse.erase]
    | cons e t ih =>
      obtain ⟨k, w⟩ := e
      unfold Sparse.erase at ih ⊢
      simp only [Sparse.insert]
      split
      · simp
      · rw [List.filter_cons, List.filter_cons, ih]
  rw [hinsert, Sparse.erase, Sparse.erase, List.filter_filter]
  simp

/-- The later of two writes of a key stands. -/
theorem Sparse.set_set {α : Type} [DecidableEq α] (d : α) (m : Sparse α) (i : Nat) (v w : α) :
    Sparse.set d (Sparse.set d m i v) i w = Sparse.set d m i w := by
  have herase : (Sparse.set d m i v).erase i = m.erase i := by
    unfold Sparse.set
    split
    · simp [Sparse.erase, List.filter_filter]
    · exact Sparse.erase_insert i v m
  unfold Sparse.set at herase ⊢
  rw [herase]

theorem State.setPort_setPort (s : State) (n : Nat) (p q : Port) : (s.setPort n p).setPort n q = s.setPort n q :=
  congrArg (fun l => { s with ports := l }) (Sparse.set_set ..)

/-! ### Ports in service -/

/-- A port's being in service depends on its state and on the tests alone. -/
theorem State.portUp_congr {s t : State} {n : Nat} (hp : (t.port n).state = (s.port n).state) (hr : t.reflect = s.reflect) (hl : t.loopTest = s.loopTest) :
    t.portUp n = s.portUp n := by
  simp only [State.portUp, hp, hr, hl]

theorem State.portUp_setPort {s : State} {n : Nat} {p : Port} (h : p.state = (s.port n).state) (q : Nat) : (s.setPort n p).portUp q = s.portUp q := by
  refine State.portUp_congr ?_ rfl rfl
  rw [State.port_setPort]
  split
  next hq => rw [hq, h]
  next => rfl

/-! ### What a send leaves of a port -/

/-- Port q is p after slots have been sent: the slots join the replay buffer, and nothing but them, the queues, the credits and the count of
slots sent has changed. -/
structure Port.SentTo (p q : Port) : Prop where
  kept : q = { p with wheyq := q.wheyq, outq := q.outq, creditBulk := q.creditBulk, creditWhey := q.creditWhey, lane := q.lane, hdrs := q.hdrs
                      replay := q.replay, txSeq := q.txSeq, cnt := q.cnt }
  replay : ∃ more, q.replay = p.replay ++ more
  counters : ∀ k, k ≠ 0 → Sparse.get 0 q.cnt k = Sparse.get 0 p.cnt k

theorem Port.SentTo.refl (p : Port) : p.SentTo p := ⟨rfl, ⟨[], (List.append_nil _).symm⟩, fun _ _ => rfl⟩

theorem Port.SentTo.trans {p q r : Port} (h : p.SentTo q) (h' : q.SentTo r) : p.SentTo r := by
  obtain ⟨m, hm⟩ := h.replay
  obtain ⟨m', hm'⟩ := h'.replay
  refine ⟨?_, ⟨m ++ m', by rw [hm', hm, List.append_assoc]⟩, fun k hk => (h'.counters k hk).trans (h.counters k hk)⟩
  have hq := h.kept
  have hr := h'.kept
  rw [hq] at hr
  exact hr

/-- The choice of a slot takes it from its queue against a credit. -/
theorem Port.nextSlot_sentTo {p q : Port} {sl : GSlot} (h : p.nextSlot = some (sl, q)) : p.SentTo q ∧ q.replay = p.replay := by
  have hbulk : ∀ {sl q}, p.bulkSlot = some (sl, q) → p.SentTo q ∧ q.replay = p.replay := by
    intro sl q hb
    simp only [Port.bulkSlot] at hb
    split at hb
    · split at hb
      · cases hb
        exact ⟨⟨rfl, ⟨[], (List.append_nil _).symm⟩, fun _ _ => rfl⟩, rfl⟩
      · split at hb
        · cases hb
        · split at hb
          · cases hb
          · cases hb
            exact ⟨.refl p, rfl⟩
    · split at hb
      · cases hb
      · cases hb
        exact ⟨.refl p, rfl⟩
  simp only [Port.nextSlot] at h
  split at h
  · split at h
    · cases h
      exact ⟨⟨rfl, ⟨[], (List.append_nil _).symm⟩, fun _ _ => rfl⟩, rfl⟩
    · exact hbulk h
  · exact hbulk h

/-- The port after a slot has left on it (R467, R473). -/
def Port.sent (p : Port) (sl : GSlot) : Port :=
  { p with
    replay := p.replay ++ [(p.txSeq, sl)], txSeq := (p.txSeq + 1) % 256
    cnt := if sl.msg.isSome then Sparse.set 0 p.cnt 0 (min (Sparse.get 0 p.cnt 0 + 1) (2 ^ 64 - 1)) else p.cnt
    lane := (laneStep 7 p.lane).2, hdrs := p.hdrs + ((laneStep 7 p.lane).1.filter LaneItem.isHeader).length }

theorem Port.sent_sentTo (p : Port) (sl : GSlot) : p.SentTo (p.sent sl) := by
  refine ⟨rfl, ⟨_, rfl⟩, fun k hk => ?_⟩
  unfold Port.sent
  dsimp only
  split
  · exact Sparse.get_set_ne _ _ _ hk
  · rfl

theorem foldl_emit {α : Type} (f : α → Out) (l : List α) (s : State) : l.foldl (fun s x => s.emit (f x)) s = { s with outbox := s.outbox ++ l.map f } := by
  induction l generalizing s with
  | nil => rw [List.map_nil, List.append_nil]; rfl
  | cons x t ih =>
    rw [List.foldl_cons, ih, State.emit]
    simp

/-- A slot leaves with seven bits of the control lane. -/
theorem State.sendSlot_eq (s : State) (n : Nat) (sl : GSlot) (p : Port) : s.sendSlot n sl p = { s.setPort n (p.sent sl) with
    outbox := s.outbox ++ .slot n p.txSeq sl.whey (sl.bytes s.free p.txSeq) :: (laneStep 7 p.lane).1.map (Out.item n) } := by
  unfold State.sendSlot
  rw [foldl_emit]
  simp [State.emit, State.setPort, Port.sent]

/-! ### The pump -/

/-- State t is s after port n has sent slots. -/
structure State.SentOn (n : Nat) (s t : State) : Prop where
  device : t = { s with ports := t.ports, outbox := t.outbox }
  others : ∀ q, q ≠ n → t.port q = s.port q
  port : (s.port n).SentTo (t.port n)

theorem State.SentOn.refl (n : Nat) (s : State) : s.SentOn n s := ⟨rfl, fun _ _ => rfl, .refl _⟩

theorem State.SentOn.trans {n : Nat} {s t u : State} (h : s.SentOn n t) (h' : t.SentOn n u) : s.SentOn n u := by
  refine ⟨?_, fun q hq => (h'.others q hq).trans (h.others q hq), h.port.trans h'.port⟩
  have ht := h.device
  have hu := h'.device
  rw [ht] at hu
  exact hu

theorem State.sendSlot_sentOn {s : State} {n : Nat} {sl : GSlot} {q : Port} (h : (s.port n).SentTo q) : s.SentOn n (s.sendSlot n sl q) := by
  have hport (j : Nat) : (s.sendSlot n sl q).port j = if j = n then q.sent sl else s.port j := by
    rw [State.sendSlot_eq]
    exact s.port_setPort n (q.sent sl) j
  refine ⟨by rw [State.sendSlot_eq]; rfl, fun j hj => (hport j).trans (if_neg hj), ?_⟩
  rw [hport, if_pos rfl]
  exact h.trans (q.sent_sentTo sl)

theorem pump_sentOn (n k : Nat) (s : State) : s.SentOn n (pump n k s) := by
  induction k generalizing s with
  | zero => exact .refl n s
  | succ k ih =>
    simp only [pump]
    split
    · split
      next h => exact (State.sendSlot_sentOn (Port.nextSlot_sentTo h).1).trans (ih _)
      next => exact .refl n s
    · exact .refl n s

theorem State.SentOn.portUp {n : Nat} {s t : State} (h : s.SentOn n t) (q : Nat) : t.portUp q = s.portUp q := by
  refine State.portUp_congr ?_ (by rw [h.device]) (by rw [h.device])
  by_cases hq : q = n
  · rw [hq, h.port.kept]
  · rw [h.others q hq]

/-! ### Idle ports, idle slots (R467, R468, log 76) -/

/-- A port out of service sends nothing. -/
theorem pump_of_down {s : State} {n : Nat} (h : s.portUp n = false) (k : Nat) : pump n k s = s := by
  cases k with
  | zero => rfl
  | succ k => simp [pump, h]

/-- A port without queued slots and control-lane items sends nothing. -/
theorem pump_of_empty {s : State} {n : Nat} (hw : (s.port n).wheyq = []) (ho : (s.port n).outq = []) (hl : (s.port n).lane = []) (k : Nat) :
    pump n k s = s := by
  cases k with
  | zero => rfl
  | succ k => simp [pump, Port.nextSlot, Port.bulkSlot, hw, ho, hl]

/-- The idle slot. -/
def idleSlot : GSlot := ⟨false, none, 0, 0⟩

/-- The sequence number after one. -/
def nextSeq (q : Nat) : Nat := (q + 1) % 256

/-- The port p after an item of b bits that is no header has left on m + 1 idle slots. -/
def Port.idled (p : Port) (m : Nat) : Port :=
  { p with lane := [], txSeq := nextSeq^[m + 1] p.txSeq, replay := p.replay ++ (List.range (m + 1)).map (fun j => (nextSeq^[j] p.txSeq, idleSlot)) }

section
variable {n : Nat} {i : LaneItem} {b : Nat} {s : State} (hup : s.portUp n = true) (hw : (s.port n).wheyq = []) (ho : (s.port n).outq = [])
  (hl : (s.port n).lane = [(i, b)]) (hi : i.isHeader = false)

include hup hw ho hl in
theorem pump_of_idle (hroom : (s.port n).replay.length < 64) (k : Nat) : pump n (k + 1) s = pump n k (s.sendSlot n idleSlot (s.port n)) := by
  simp [pump, hup, hroom, Port.nextSlot, Port.bulkSlot, hw, ho, hl, idleSlot]

include hl hi in
theorem Port.sent_idle : (s.port n).sent idleSlot = { s.port n with
    replay := (s.port n).replay ++ [((s.port n).txSeq, idleSlot)], txSeq := nextSeq (s.port n).txSeq, lane := if b ≤ 7 then [] else [(i, b - 7)] } ∧
    (laneStep 7 (s.port n).lane).1 = if b ≤ 7 then [i] else [] := by
  rw [Port.sent, hl]
  simp only [laneStep]
  by_cases hb : b ≤ 7
  · simp [hb, hi, idleSlot, nextSeq]
  · simp [hb, idleSlot, nextSeq]

end

/-- An item alone in the control lane leaves in the bits of idle slots, seven a slot. -/
theorem pump_idle {n : Nat} {i : LaneItem} (hi : i.isHeader = false) (m : Nat) {k b : Nat} {s : State} (hup : s.portUp n = true) (hk : m < k)
    (hw : (s.port n).wheyq = []) (ho : (s.port n).outq = []) (hl : (s.port n).lane = [(i, b)]) (hlo : 7 * m < b) (hhi : b ≤ 7 * (m + 1))
    (hroom : (s.port n).replay.length + m < 64) : (pump n k s).port n = (s.port n).idled m ∧
      (pump n k s).outbox = s.outbox ++ (List.range (m + 1)).map (fun j => Out.slot n (nextSeq^[j] (s.port n).txSeq) false
        (idleSlot.bytes s.free (nextSeq^[j] (s.port n).txSeq))) ++ [.item n i] := by
  induction m generalizing k b s with
  | zero =>
    obtain ⟨k, rfl⟩ := Nat.exists_eq_succ_of_ne_zero (Nat.ne_of_gt hk)
    obtain ⟨hsent, hstep⟩ := Port.sent_idle hl hi
    rw [if_pos (show b ≤ 7 by omega)] at hsent hstep
    have hport : (s.sendSlot n idleSlot (s.port n)).port n = (s.port n).idled 0 := by
      rw [State.sendSlot_eq, hsent]
      exact (s.port_setPort n _ n).trans (if_pos rfl)
    rw [pump_of_idle hup hw ho hl (by omega), pump_of_empty (by rw [hport]; exact hw) (by rw [hport]; exact ho) (by rw [hport]; rfl), hport]
    refine ⟨rfl, ?_⟩
    rw [State.sendSlot_eq, hstep]
    simp [idleSlot]
  | succ m ih =>
    obtain ⟨k, rfl⟩ := Nat.exists_eq_succ_of_ne_zero (Nat.ne_of_gt (Nat.lt_of_le_of_lt (Nat.zero_le _) hk))
    obtain ⟨hsent, hstep⟩ := Port.sent_idle hl hi
    rw [if_neg (show ¬b ≤ 7 by omega)] at hsent hstep
    have hport : (s.sendSlot n idleSlot (s.port n)).port n = { s.port n with
        replay := (s.port n).replay ++ [((s.port n).txSeq, idleSlot)], txSeq := nextSeq (s.port n).txSeq, lane := [(i, b - 7)] } := by
      rw [State.sendSlot_eq, hsent]
      exact (s.port_setPort n _ n).trans (if_pos rfl)
    have hfree : (s.sendSlot n idleSlot (s.port n)).free = s.free := by rw [State.sendSlot_eq]; rfl
    have hout : (s.sendSlot n idleSlot (s.port n)).outbox = s.outbox ++ [.slot n (s.port n).txSeq false (idleSlot.bytes s.free (s.port n).txSeq)] := by
      rw [State.sendSlot_eq, hstep]
      rfl
    have hup' : (s.sendSlot n idleSlot (s.port n)).portUp n = true := ((State.sendSlot_sentOn (.refl _)).portUp n).trans hup
    obtain ⟨hp, hx⟩ := ih (k := k) (b := b - 7) hup' (by omega) (by rw [hport]; exact hw) (by rw [hport]; exact ho) (by rw [hport]) (by omega) (by omega)
      (by rw [hport]; simp; omega)
    rw [pump_of_idle hup hw ho hl (by omega), hp, hx, hport, hfree, hout]
    refine ⟨?_, ?_⟩
    · simp [Port.idled, List.range_succ_eq_map (n := m + 1), Function.comp_def]
    · simp [List.range_succ_eq_map (n := m + 1), Function.comp_def]

/-! ### Items and messages (R467 to R479) -/

/-- A change of a port's queues alone. -/
theorem State.setPort_sentOn {s : State} {n : Nat} {p : Port} (h : (s.port n).SentTo p) : s.SentOn n (s.setPort n p) := by
  refine ⟨rfl, fun q hq => (s.port_setPort n p q).trans (if_neg hq), ?_⟩
  rw [State.port_setPort, if_pos rfl]
  exact h

/-- What joins the queues of a port leaves as the port can. -/
theorem State.pumpPort_sentOn {s : State} {n : Nat} {p : Port} (h : (s.port n).SentTo p) : s.SentOn n ((s.setPort n p).pumpPort n) :=
  (State.setPort_sentOn h).trans (pump_sentOn n 64 _)

theorem State.sendItem_sentOn (s : State) (n : Nat) (i : LaneItem) : s.SentOn n (s.sendItem n i) :=
  State.pumpPort_sentOn ⟨rfl, ⟨[], (List.append_nil _).symm⟩, fun _ _ => rfl⟩

theorem State.sendOn_sentOn (s : State) (n : Nat) (m : Msg) : s.SentOn n (s.sendOn n m) := by
  unfold State.sendOn
  split <;> exact State.pumpPort_sentOn ⟨rfl, ⟨[], (List.append_nil _).symm⟩, fun _ _ => rfl⟩

/-- State t is s after ports in service have sent slots. -/
structure State.Sends (s t : State) : Prop where
  device : t = { s with ports := t.ports, outbox := t.outbox }
  ports : ∀ q, (s.port q).SentTo (t.port q)
  down : ∀ q, s.portUp q = false → t.port q = s.port q

theorem State.Sends.refl (s : State) : s.Sends s := ⟨rfl, fun _ => .refl _, fun _ _ => rfl⟩

theorem State.SentOn.sends {n : Nat} {s t : State} (h : s.SentOn n t) (hup : s.portUp n = true) : s.Sends t := by
  refine ⟨h.device, fun q => ?_, fun q hq => h.others q (by rintro rfl; rw [hup] at hq; cases hq)⟩
  by_cases hq : q = n
  · rw [hq]
    exact h.port
  · rw [h.others q hq]
    exact .refl _

theorem State.Sends.portUp {s t : State} (h : s.Sends t) (q : Nat) : t.portUp q = s.portUp q :=
  State.portUp_congr (by rw [(h.ports q).kept]) (by rw [h.device]) (by rw [h.device])

theorem State.Sends.trans {s t u : State} (h : s.Sends t) (h' : t.Sends u) : s.Sends u := by
  refine ⟨?_, fun q => (h.ports q).trans (h'.ports q), fun q hq => (h'.down q ((h.portUp q).trans hq)).trans (h.down q hq)⟩
  have ht := h.device
  have hu := h'.device
  rw [ht] at hu
  exact hu

theorem State.sendMsg_sends {s t : State} {flow : Nat} {m : Msg} (h : s.sendMsg flow m = some t) : s.Sends t := by
  obtain ⟨n, hn, rfl⟩ := Option.map_eq_some_iff.1 h
  refine (s.sendOn_sentOn n m).sends ?_
  have hports : ∀ q ∈ s.peerPorts m.dst, s.portUp q = true := by
    intro q hq
    simp only [State.peerPorts] at hq
    split at hq
    · exact (Bool.and_eq_true_iff.1 (List.mem_filter.1 hq).2).2
    · cases hq
  simp only [State.portFor] at hn
  split at hn
  · cases hn
  next ps hne =>
    cases hn
    have hlt : flow % (s.peerPorts m.dst).length < (s.peerPorts m.dst).length := Nat.mod_lt _ (List.length_pos_iff.2 hne)
    rw [List.getD_eq_getElem _ _ hlt]
    exact hports _ (List.getElem_mem hlt)

theorem State.pressCtl_sends (s : State) (peer chunk tag addr arg : Nat) (body : List MByte) : s.Sends (s.pressCtl peer chunk tag addr arg body) := by
  unfold State.pressCtl
  cases h : s.sendMsg chunk (s.msgTo peer 0x12 tag addr arg body) with
  | none => exact .refl s
  | some t => exact State.sendMsg_sends h

theorem State.grantNeighbours_sends (s : State) (ring : List Nat) (p self : Nat) : s.Sends (s.grantNeighbours ring p self) := by
  unfold State.grantNeighbours
  split
  · exact .refl s
  · exact List.foldlRecOn (motive := fun t : State => s.Sends t) _ _ (.refl s) fun t ht r _ => ht.trans (t.pressCtl_sends ..)

/-- A PRESS_CTL message to a peer that no port in service serves is not sent (R478). -/
theorem State.pressCtl_of_unreachable {s : State} {peer : Nat} (h : s.peerPorts peer = []) (chunk tag addr arg : Nat) (body : List MByte) :
    s.pressCtl peer chunk tag addr arg body = s := by
  have hport : s.portFor chunk (s.msgTo peer 0x12 tag addr arg body).dst = none := by
    unfold State.portFor
    rw [show s.peerPorts (s.msgTo peer 0x12 tag addr arg body).dst = [] from h]
  rw [State.pressCtl, State.sendMsg, hport]
  rfl

end Sys2Proof.Machine
end

section
/-! PROOFS. Copies, ingest jobs, epochs, Press jobs, group tables: accepted or refused (18 R568 to R576; 13 R386, R413; 14 R425 to R433). -/

namespace Sys2Proof.Machine

/-! ### What a read leaves of a core (07 R209) -/

theorem State.wordRead_cores (s : State) (w : Nat) : (s.wordRead w).cores = s.cores := by
  simp only [State.wordRead]
  split
  next => rfl
  next => split <;> rfl
  next => exact congrArg State.Pacing.cores (State.postEvent_pacing ..)
  next => rfl

theorem State.noteRead_core (s : State) (a n c : Nat) : (s.core c).FetchErrs ((s.noteRead a n).core c) := by
  simp only [State.noteRead]
  split
  · have hcores : ((wordsOf a n).foldl State.wordRead s).cores = s.cores :=
      List.foldlRecOn (motive := fun t : State => t.cores = s.cores) _ _ rfl fun t ht w _ => (t.wordRead_cores w).trans ht
    have hcore : (((wordsOf a n).foldl State.wordRead s).setUnit (unitOf a) (((wordsOf a n).foldl State.wordRead s).unit (unitOf a) |>.bump 4 n)).core c =
        s.core c := congrArg (Sparse.get ({} : Core) · c) hcores
    rw [hcore]
    rfl
  · split
    · rw [State.core_setCore]
      split
      next h =>
        subst h
        exact congrArg (fun k : Core => { k with cond := (s.core ((a - 0x20000000000) / 0x04000000)).cond }) (spadCheck_fetchErrs ..)
      next => rfl
    · rfl

theorem State.noteRead_ladle (s : State) (a n c : Nat) : ((s.noteRead a n).core c).ladle = (s.core c).ladle :=
  (congrArg Core.ladle (s.noteRead_core a n c) :)

/-! ### Ladle copies (R568, R569) -/

/-- A refused offer marks its queue with kind 1 and changes no queue (R225). -/
theorem Core.ladleFail_spec (k : Core) {q : Nat} (hq : q < 8) (tag : Nat) : bitOf (k.ladleFail q 1 tag).ladleErr (8 + q) = true ∧
    (k.ladleFail q 1 tag).ladle = k.ladle := by
  refine ⟨?_, rfl⟩
  simp only [Core.ladleFail, Nat.mul_one]
  split
  · decide +revert
  · split <;> exact (bitOf_setBit ..).trans (by simp)

/-- The fields of a Ladle copy's descriptor are in range. -/
def ladleFieldsOk (d : Desc) : Prop := (zeroAt d 1 3 && zeroAt d 10 6 && zeroAt d 24 40) = true ∧ fieldAt d 8 1 < 160 ∧ fieldAt d 9 1 < 8 ∧
  fieldAt d 16 8 < 2 ^ 52 ∧ fieldAt d 16 8 % 128 = 0

/-- The transfer that the host copies into a queue. -/
def hostTransfer (s : State) (d : Desc) : Transfer :=
  { id := s.cmdId, desc := ladleDesc (s.bytesAt (fieldAt d 16 8) 128), by_ := .host, cmd := s.cmdId }

section
variable {s : State} {r : Nat} {d : Desc} (h : Offered s r .ladle d) (hok : ladleFieldsOk d) (hw : s.waits (fieldAt d 16 8) = false)
include h hok hw

theorem exec_ladleCopy : exec (.ladleCopy r) s = .next (let u := delivered s r d
    if !s.fuse.active (fieldAt d 8 1) then u.complete s.cmdId [2] (detailOf [(8, 0), (4, 0)])
    else if s.queueOwner (fieldAt d 8 1) (fieldAt d 9 1) ≠ 1 then (u.setCore (fieldAt d 8 1) ((s.core (fieldAt d 8 1)).ladleFail (fieldAt d 9 1) 1
      (free32 s.free (site 0 (fieldAt d 8 1) 311)).toNat)).complete s.cmdId [1] (detailOf [(8, 0), (4, 0)])
    else if !s.rangeOkDev false (fieldAt d 16 8) (fieldAt d 16 8 + 127) then u.complete s.cmdId [2] (detailOf [(8, 0), (4, 0)])
    else if s.anyBad (fieldAt d 16 8) 128 then (u.noteRead (fieldAt d 16 8) 128).complete s.cmdId [5] (detailOf [(8, 0), (4, 0)])
    else (u.noteRead (fieldAt d 16 8) 128).setCore (fieldAt d 8 1) (((u.noteRead (fieldAt d 16 8) 128).core (fieldAt d 8 1)).offer (fieldAt d 9 1)
      (hostTransfer s d))) := by
  obtain ⟨h1, h2, h3, h4, h5⟩ := hok
  refine (live_of s _ h.1).trans (congrArg _ ((if_neg ?_).trans ((deliver_of h _).trans ((if_neg ?_).trans ?_))))
  · rw [headWaits_of h, hw]
    decide
  · simp [-Nat.reducePow, h1, h5]
    omega
  · rw [delivered_eq]
    rfl

theorem ladleCopy_unowned (ha : s.fuse.active (fieldAt d 8 1) = true) (ho : s.queueOwner (fieldAt d 8 1) (fieldAt d 9 1) ≠ 1) :
    ∃ t : State, exec (.ladleCopy r) s = .next (t.complete s.cmdId [1] (detailOf [(8, 0), (4, 0)])) ∧
      bitOf (t.core (fieldAt d 8 1)).ladleErr (8 + fieldAt d 9 1) = true ∧ (t.core (fieldAt d 8 1)).ladle = (s.core (fieldAt d 8 1)).ladle ∧
      ∀ x, t.byteAt x = s.byteAt x := by
  obtain ⟨hbit, hkeep⟩ := (s.core (fieldAt d 8 1)).ladleFail_spec hok.2.2.1 (free32 s.free (site 0 (fieldAt d 8 1) 311)).toNat
  refine ⟨_, (exec_ladleCopy h hok hw).trans (congrArg _ ((if_neg (by simp [ha])).trans (if_pos ho))), ?_, ?_, State.byteAt_congr (delivered_mem s r d)⟩
  · rw [State.core_setCore, if_pos rfl]
    exact hbit
  · rw [State.core_setCore, if_pos rfl]
    exact hkeep

theorem ladleCopy_accepted (ha : s.fuse.active (fieldAt d 8 1) = true) (ho : s.queueOwner (fieldAt d 8 1) (fieldAt d 9 1) = 1)
    (hr : s.rangeOkDev false (fieldAt d 16 8) (fieldAt d 16 8 + 127) = true) (hb : s.anyBad (fieldAt d 16 8) 128 = false) :
    ∃ (t : State) (x : Transfer), exec (.ladleCopy r) s = .next t ∧
      (Sparse.get {} (t.core (fieldAt d 8 1)).ladle (fieldAt d 9 1)).waiting =
        (Sparse.get {} (s.core (fieldAt d 8 1)).ladle (fieldAt d 9 1)).waiting ++ [x] ∧ x.by_ = .host ∧ x.cmd = s.cmdId ∧
      x.desc = ladleDesc (s.bytesAt (fieldAt d 16 8) 128) ∧
      (∀ p, p ≠ fieldAt d 9 1 → Sparse.get {} (t.core (fieldAt d 8 1)).ladle p = Sparse.get {} (s.core (fieldAt d 8 1)).ladle p) ∧
      ∀ x, t.byteAt x = s.byteAt x := by
  have hladle : (((delivered s r d).noteRead (fieldAt d 16 8) 128).core (fieldAt d 8 1)).ladle = (s.core (fieldAt d 8 1)).ladle := by
    rw [State.noteRead_ladle, delivered_core]
  refine ⟨_, hostTransfer s d, (exec_ladleCopy h hok hw).trans (congrArg _ ((if_neg (by simp [ha])).trans ((if_neg (by simp [ho])).trans
    ((if_neg (by simp [hr])).trans (if_neg (by simp [hb])))))), ?_, rfl, rfl, rfl, fun p hp => ?_, State.byteAt_congr ?_⟩
  · rw [State.core_setCore, if_pos rfl, Core.waiting_offer, hladle]
  · rw [State.core_setCore, if_pos rfl, Core.ladle_offer_of_ne hp, hladle]
  · exact (State.noteRead_mem ..).trans (delivered_mem s r d)

end

/-! ### Epochs of the Stirrer (R413, R571) -/

/-- The fields of an epoch command are in range. -/
def epochFieldsOk (d : Desc) : Prop := (zeroAt d 1 3 && zeroAt d 36 28) = true ∧ fieldAt d 32 4 ≠ 0 ∧ fieldAt d 24 8 % 64 = 0 ∧ fieldAt d 24 8 < 2 ^ 52

/-- The delivered epoch command stands last in the epochs' queue. -/
def epochQueued (s : State) (r : Nat) (d : Desc) : State := { delivered s r d with epochQueue := s.epochQueue ++ [s.cmdId] }

section
variable {s : State} {r : Nat} {d : Desc} (h : Offered s r .stirrer d) (hok : epochFieldsOk d)
include h hok

theorem exec_stirrerEpoch : exec (.stirrerEpoch r) s = .next (if s.epochCmd.isSome then epochQueued s r d
    else stirNext (s.epochQueue ++ [s.cmdId]) (epochQueued s r d)) := by
  obtain ⟨h1, h2, h3, h4⟩ := hok
  refine (live_of s _ h.1).trans (congrArg _ ((deliver_of h _).trans ((if_neg (by simp [-Nat.reducePow, h1, h2, h3, h4])).trans ?_)))
  rw [delivered_eq]
  rfl

section
variable (hn : ∀ c ∈ s.cmds, c.id ≠ s.cmdId) (he : s.epochCmd = none) (hq : s.epochQueue = [])
include hn he hq

/-- The only epoch command is the one that starts. -/
theorem exec_stirrerEpoch_of_first : exec (.stirrerEpoch r) s = .next (stirNext [s.cmdId] (epochQueued s r d)) ∧
    (epochQueued s r d).cmd s.cmdId = some { id := s.cmdId, ring := r, count := (s.cring r).head, desc := d } := by
  refine ⟨(exec_stirrerEpoch h hok).trans (congrArg _ ((if_neg (by simp [he])).trans ?_)), cmd_delivered hn r d⟩
  rw [hq, List.nil_append]

theorem exec_stirrerEpoch_of_waits (hw : (epochQueued s r d).stirWaits d = true) : exec (.stirrerEpoch r) s = .next (epochQueued s r d) := by
  obtain ⟨hexec, hcmd⟩ := exec_stirrerEpoch_of_first h hok hn he hq
  rw [hexec, stirNext, hcmd]
  refine congrArg _ ((if_pos hw).trans ?_)
  rw [epochQueued, hq]
  rfl

theorem exec_stirrerEpoch_of_error {x : Nat} (hw : (epochQueued s r d).stirWaits d = false)
    (hs : ((epochQueued s r d).stirStart s.cmdId d).2 = .error x) : exec (.stirrerEpoch r) s =
      .next { (((epochQueued s r d).stirStart s.cmdId d).1.complete s.cmdId [x] (detailOf [(4, 0), (4, 0)])) with epochQueue := [] } := by
  obtain ⟨hexec, hcmd⟩ := exec_stirrerEpoch_of_first h hok hn he hq
  have hstart : (epochQueued s r d).stirStart s.cmdId d = (((epochQueued s r d).stirStart s.cmdId d).1, .error x) := Prod.ext rfl hs
  rw [hexec, stirNext, hcmd]
  refine congrArg _ ((if_neg (ne_true_of_eq_false hw)).trans ?_)
  dsimp only
  rw [hstart]
  rfl

theorem exec_stirrerEpoch_of_ok {x : Epoch} (hw : (epochQueued s r d).stirWaits d = false)
    (hs : ((epochQueued s r d).stirStart s.cmdId d).2 = .ok x) : exec (.stirrerEpoch r) s =
      .next { ((epochQueued s r d).stirStart s.cmdId d).1 with epochCmd := some x, epochQueue := [] } := by
  obtain ⟨hexec, hcmd⟩ := exec_stirrerEpoch_of_first h hok hn he hq
  have hstart : (epochQueued s r d).stirStart s.cmdId d = (((epochQueued s r d).stirStart s.cmdId d).1, .ok x) := Prod.ext rfl hs
  rw [hexec, stirNext, hcmd]
  refine congrArg _ ((if_neg (ne_true_of_eq_false hw)).trans ?_)
  dsimp only
  rw [hstart]

end

omit h hok in
/-- The start of an epoch command changes no byte. -/
theorem stirStart_byteAt (s : State) (r : Nat) (d : Desc) (a : Nat) : ((epochQueued s r d).stirStart s.cmdId d).1.byteAt a = s.byteAt a :=
  State.byteAt_congr (((epochQueued s r d).stirStart_onlyNoted s.cmdId d).mem.trans (delivered_mem s r d)) a

end

/-! ### Press jobs (R430, R431, R433) -/

/-- The job of the delivered command stands last among the jobs. -/
def jobOffered (s : State) (r : Nat) (d : Desc) (j : PressJob) : State :=
  { delivered s r d with press := { (delivered s r d).press with jobs := s.press.jobs ++ [j] } }

section
variable {s : State} {r : Nat} {d : Desc} (h : Offered s r .press d) (par : List Nat)
include h

theorem exec_pressJob_of_refused (hr : (delivered s r d).pressRefusals d { jobOf d s.cmdId with par := par } ≠ []) : exec (.pressJob ⟨r, par⟩) s =
    .next ((delivered s r d).complete s.cmdId ((delivered s r d).pressRefusals d { jobOf d s.cmdId with par := par })
      (({ jobOf d s.cmdId with par := par } : PressJob).detail 0 0 false)) := by
  refine (live_of s _ h.1).trans (congrArg _ ((deliver_of h _).trans ?_))
  dsimp only
  split
  next he => exact absurd he hr
  next => rfl

theorem exec_pressJob_of_accepted (hr : (delivered s r d).pressRefusals d { jobOf d s.cmdId with par := par } = []) : exec (.pressJob ⟨r, par⟩) s =
    .next (if bitOf (fieldAt d 12 2) 10 then jobOffered s r d { jobOf d s.cmdId with par := par }
      else (jobOffered s r d { jobOf d s.cmdId with par := par }).pressStart s.cmdId) := by
  refine (live_of s _ h.1).trans (congrArg _ ((deliver_of h _).trans ?_))
  dsimp only
  rw [hr]
  rfl

end

/-- Without an engine clocked a job ends at once, and the jobs are what they were (R433). -/
theorem pressStart_of_gated {s : State} {r : Nat} {d : Desc} {j : PressJob} (hn : ∀ x ∈ s.press.jobs, x.cmd ≠ s.cmdId) (hj : j.cmd = s.cmdId)
    (hg : (s.group j.group).failed = false) (he : s.pressEngines = []) : ∃ t : State,
    (jobOffered s r d j).pressStart s.cmdId = t.complete s.cmdId [4] (j.detail 0 0 false) ∧ t.press.jobs = s.press.jobs ∧ ∀ a, t.byteAt a = s.byteAt a := by
  have hfind : (s.press.jobs ++ [j]).find? (fun x => x.cmd == s.cmdId) = some j := by
    rw [List.find?_append, List.find?_eq_none.2 (by simpa using hn), Option.none_or]
    simp [hj]
  have hkeep : (s.press.jobs ++ [j]).filter (fun x => x.cmd != s.cmdId) = s.press.jobs := by
    rw [List.filter_append, List.filter_eq_self.2 (by simpa using hn)]
    simp [hj]
  have hgroup : ((jobOffered s r d j).group j.group).failed = false := by
    rw [jobOffered, delivered_eq]
    exact hg
  have heng : (jobOffered s r d j).pressEngines = [] := by
    rw [jobOffered, delivered_eq]
    exact he
  refine ⟨State.pressCount { jobOffered s r d j with press := { (jobOffered s r d j).press with
    jobs := (jobOffered s r d j).press.jobs.filter (fun x => x.cmd != s.cmdId) } } 1 1, ?_, hkeep, State.byteAt_congr (delivered_mem s r d)⟩
  unfold State.pressStart
  rw [show (jobOffered s r d j).press.jobs.find? (fun x => x.cmd == s.cmdId) = some j from hfind]
  dsimp only
  rw [hgroup, heng]
  rfl

/-- A job that is not refused names a group that has not failed (R430). -/
theorem State.group_of_accepted {s : State} {d : Desc} {j : PressJob} (h : s.pressRefusals d j = []) : (s.group j.group).failed = false := by
  have hfail := (List.append_eq_nil_iff.1 (List.append_eq_nil_iff.1 h).1).1
  cases hf : (s.group j.group).failed with
  | false => rfl
  | true =>
    rw [hf] at hfail
    cases hfail

/-! ### Group tables (R425 to R427, R574 to R576) -/

/-- A ring whose head is offered has no load under way. -/
theorem State.blockedLoad_of_offered {s : State} {r : Nat} {row : Row} {d : Desc} (h : Offered s r row d) (row' : Row) : s.blockedLoad r row' = none := by
  have hb : (s.cring r).blocked = none := by
    have hhead := h.2.2.1
    unfold CRing.headOk at hhead
    split at hhead
    next hok => exact hok.2.2
    next => cases hhead
  rw [State.blockedLoad, hb]
  rfl

/-- The delivered command. -/
def deliveredCmd (s : State) (r : Nat) (d : Desc) : Cmd := { id := s.cmdId, ring := r, count := (s.cring r).head, desc := d }

/-- The delivered command is still there when it blocks its ring. -/
theorem cmd_block_delivered {s : State} (hn : ∀ c ∈ s.cmds, c.id ≠ s.cmdId) (r : Nat) (d : Desc) :
    ((delivered s r d).block s.cmdId).cmd s.cmdId = some (deliveredCmd s r d) := by
  have hcmd : (delivered s r d).cmd s.cmdId = some (deliveredCmd s r d) := cmd_delivered hn r d
  rw [State.block_of_cmd hcmd]
  exact hcmd

/-- The fields of a load of a Press group table are in range. -/
def groupFieldsOk (d : Desc) : Prop :=
  (zeroAt d 1 3 && zeroAt d 10 2 && zeroAt d 20 4 && zeroAt d 32 16 && zeroAt d 48 16) = true ∧ fieldAt d 9 1 ≤ 15 ∧ 1 ≤ fieldAt d 16 2 ∧
    fieldAt d 16 2 ≤ 16384 ∧ fieldAt d 18 2 < fieldAt d 16 2 ∧ fieldAt d 24 8 % 32 = 0 ∧ fieldAt d 24 8 < 2 ^ 52

theorem exec_pressGroupTableLoad {s : State} {r : Nat} {d : Desc} (h : Offered s r .groupLoad d) (hn : ∀ c ∈ s.cmds, c.id ≠ s.cmdId)
    (hok : groupFieldsOk d) : exec (.pressGroupTableLoad r) s = .next (((delivered s r d).block s.cmdId).groupLoad (deliveredCmd s r d)) := by
  obtain ⟨hz, h1, h2, h3, h4, h5, h6⟩ := hok
  obtain ⟨⟨⟨⟨hz1, hz2⟩, hz3⟩, hz4⟩, hz5⟩ : (((zeroAt d 1 3 = true ∧ zeroAt d 10 2 = true) ∧ zeroAt d 20 4 = true) ∧ zeroAt d 32 16 = true) ∧
      zeroAt d 48 16 = true := by simpa only [Bool.and_eq_true] using hz
  refine (live_of s _ h.1).trans (congrArg _ ?_)
  rw [State.blockedLoad_of_offered h]
  refine (deliver_of h _).trans ((if_neg ?_).trans ((if_neg ?_).trans ?_))
  · simp [-Nat.reducePow, hz1, hz2, hz3, hz5, h6]
  · simp [-Nat.reducePow, hz4, h1, h2, h3, h4, h5]
  · dsimp only
    rw [cmd_block_delivered hn r d]

/-- The table that a load puts in force. -/
def loadedGroup (s : State) (d : Desc) : PressGroup :=
  { valid := true, gen := fieldAt d 12 4, p := fieldAt d 16 2, ring := listOf (s.bytesAt (fieldAt d 24 8) (2 * fieldAt d 16 2)) (fieldAt d 16 2)
    self := fieldAt d 18 2 }

/-- The state with a load's table read and in force, and its neighbours granted buffer space. -/
def State.groupLoaded (s : State) (d : Desc) : State :=
  let u := s.noteRead (fieldAt d 24 8) (2 * fieldAt d 16 2)
  State.grantNeighbours { u with press := { u.press with groups := Sparse.set {} s.press.groups (fieldAt d 9 1) (loadedGroup s d) } }
    (loadedGroup s d).ring (fieldAt d 16 2) (fieldAt d 18 2)

theorem State.groupLoaded_press (s : State) (d : Desc) :
    (s.groupLoaded d).press.groups = Sparse.set {} s.press.groups (fieldAt d 9 1) (loadedGroup s d) :=
  (congrArg (fun t : State => t.press.groups) (State.grantNeighbours_sends _ _ _ _).device :)

theorem State.groupLoaded_mem (s : State) (d : Desc) : (s.groupLoaded d).mem = s.mem :=
  (State.grantNeighbours_mem ..).trans (State.noteRead_mem ..)

/-- A load waits while a job names its group (R427). -/
theorem State.groupLoad_of_busy {s : State} {c : Cmd} (h : ∃ j ∈ s.press.jobs, j.group = fieldAt c.desc 9 1) : s.groupLoad c = s := by
  refine if_pos (Bool.or_eq_true_iff.2 (.inl (List.any_eq_true.2 ?_)))
  simpa using h

theorem State.groupLoad_of_free {s : State} {c : Cmd} (hj : ∀ j ∈ s.press.jobs, j.group ≠ fieldAt c.desc 9 1)
    (hw : s.waitsRange (fieldAt c.desc 24 8) (2 * fieldAt c.desc 16 2) = false)
    (hr : s.rangeOkDev false (fieldAt c.desc 24 8) (fieldAt c.desc 24 8 + 2 * fieldAt c.desc 16 2 - 1) = true)
    (hb : s.anyBad (fieldAt c.desc 24 8) (2 * fieldAt c.desc 16 2) = false) (hlt : ∀ x ∈ (loadedGroup s c.desc).ring, x < 2 ^ 14)
    (hd : allDiff (loadedGroup s c.desc).ring = true) (hself : (loadedGroup s c.desc).ring.getD (fieldAt c.desc 18 2) 0 = s.grbSelf) :
    s.groupLoad c = (s.groupLoaded c.desc).complete c.id [] (detailOf [(4, fieldAt c.desc 12 4), (2, fieldAt c.desc 16 2), (2, fieldAt c.desc 18 2)]) := by
  have hall : (loadedGroup s c.desc).ring.all (fun x => decide (x < 2 ^ 14)) = true := List.all_eq_true.2 fun x hx => decide_eq_true (hlt x hx)
  unfold State.groupLoad
  refine (if_neg ?_).trans ((if_neg ?_).trans ((if_neg ?_).trans (if_neg ?_)))
  · rw [Bool.or_eq_true, hw, List.any_eq_true]
    simpa using hj
  · rw [hr]
    decide
  · exact ne_true_of_eq_false hb
  · exact ne_true_of_eq_false (congrArg not (Bool.and_eq_true_iff.2 ⟨Bool.and_eq_true_iff.2 ⟨hall, hd⟩, beq_iff_eq.2 hself⟩))

/-- What a delivered command has left of what a load reads. -/
structure State.LoadReads (s u : State) : Prop where
  press : u.press = s.press
  self : u.grbSelf = s.grbSelf
  mem : u.mem = s.mem
  waits : ∀ a n, u.waitsRange a n = s.waitsRange a n
  range : ∀ lo hi, u.rangeOkDev false lo hi = s.rangeOkDev false lo hi
  bad : ∀ a n, u.anyBad a n = s.anyBad a n

theorem loadReads_block {s : State} {r : Nat} {d : Desc} (hn : ∀ c ∈ s.cmds, c.id ≠ s.cmdId) : s.LoadReads ((delivered s r d).block s.cmdId) := by
  have hcmd : (delivered s r d).cmd s.cmdId = some (deliveredCmd s r d) := cmd_delivered hn r d
  rw [State.block_of_cmd hcmd, delivered_eq]
  exact ⟨rfl, rfl, rfl, fun _ _ => rfl, fun _ _ => rfl, fun _ _ => rfl⟩

theorem State.LoadReads.loadedGroup {s u : State} (h : s.LoadReads u) (d : Desc) : Machine.loadedGroup u d = Machine.loadedGroup s d := by
  have hbytes (a n : Nat) : u.bytesAt a n = s.bytesAt a n := List.map_congr_left fun i _ => State.byteAt_congr h.mem (a + i)
  rw [Machine.loadedGroup, hbytes]
  rfl

/-- A delivered load of a group that no job names puts its table in force. -/
theorem pressGroupTableLoad_of_free {s : State} {r : Nat} {d : Desc} (h : Offered s r .groupLoad d) (hn : ∀ c ∈ s.cmds, c.id ≠ s.cmdId)
    (hok : groupFieldsOk d) (hj : ∀ j ∈ s.press.jobs, j.group ≠ fieldAt d 9 1)
    (hw : s.waitsRange (fieldAt d 24 8) (2 * fieldAt d 16 2) = false)
    (hr : s.rangeOkDev false (fieldAt d 24 8) (fieldAt d 24 8 + 2 * fieldAt d 16 2 - 1) = true)
    (hb : s.anyBad (fieldAt d 24 8) (2 * fieldAt d 16 2) = false) (hlt : ∀ x ∈ (loadedGroup s d).ring, x < 2 ^ 14)
    (hd : allDiff (loadedGroup s d).ring = true) (hself : (loadedGroup s d).ring.getD (fieldAt d 18 2) 0 = s.grbSelf) : ∃ t : State,
    exec (.pressGroupTableLoad r) s = .next (t.complete s.cmdId [] (detailOf [(4, fieldAt d 12 4), (2, fieldAt d 16 2), (2, fieldAt d 18 2)])) ∧
      t.group (fieldAt d 9 1) = loadedGroup s d ∧ (∀ i, i ≠ fieldAt d 9 1 → t.group i = s.group i) ∧ ∀ x, t.byteAt x = s.byteAt x := by
  have hu : s.LoadReads ((delivered s r d).block s.cmdId) := loadReads_block hn
  have hgroups : (((delivered s r d).block s.cmdId).groupLoaded d).press.groups = Sparse.set {} s.press.groups (fieldAt d 9 1) (loadedGroup s d) := by
    rw [State.groupLoaded_press, hu.press, hu.loadedGroup]
  have hload := State.groupLoad_of_free (s := (delivered s r d).block s.cmdId) (c := deliveredCmd s r d) (by rw [hu.press]; exact hj)
    (by rw [hu.waits]; exact hw) (by rw [hu.range]; exact hr) (by rw [hu.bad]; exact hb) (by rw [hu.loadedGroup]; exact hlt)
    (by rw [hu.loadedGroup]; exact hd) (by rw [hu.loadedGroup, hu.self]; exact hself)
  refine ⟨_, (exec_pressGroupTableLoad h hn hok).trans (congrArg _ hload), ?_, fun i hi => ?_, State.byteAt_congr ((State.groupLoaded_mem ..).trans hu.mem)⟩
  · rw [State.group]
    exact (congrArg (Sparse.get _ · (fieldAt d 9 1)) hgroups).trans (Sparse.get_set_self ..)
  · rw [State.group]
    exact (congrArg (Sparse.get _ · i) hgroups).trans ((Sparse.get_set ..).trans (if_neg hi))

/-- The fields of a load of the shard group table are in range. -/
def shardFieldsOk (d : Desc) : Prop :=
  (zeroAt d 1 3 && zeroAt d 9 1 && zeroAt d 10 2 && zeroAt d 12 8 && zeroAt d 20 4 && zeroAt d 24 8 && zeroAt d 48 16) = true ∧
    ∀ i, i < 4 → 1 ≤ fieldAt d (32 + 4 * i) 2 ∧ fieldAt d (32 + 4 * i) 2 ≤ 16384 ∧ fieldAt d (34 + 4 * i) 2 < fieldAt d (32 + 4 * i) 2

/-- The state with a shard group table in force. -/
def State.shardLoaded (s : State) (d : Desc) : State :=
  { s with
    shard := (List.range 4).map (fun i => (fieldAt d (32 + 4 * i) 2, fieldAt d (34 + 4 * i) 2))
    prog := s.prog.map (fun p => { p with shardLoaded := true }) }

theorem exec_shardGroupTableLoad {s : State} {r : Nat} {d : Desc} (h : Offered s r .shardLoad d) (hn : ∀ c ∈ s.cmds, c.id ≠ s.cmdId)
    (hok : shardFieldsOk d) (hr : s.replacing = none) (hx : ∀ x, s.ctx = some x → x.kind = 2) :
    exec (.shardGroupTableLoad r) s = .next ((((delivered s r d).block s.cmdId).shardLoaded d).complete s.cmdId [] []) := by
  obtain ⟨hz, hax⟩ := hok
  obtain ⟨⟨⟨⟨⟨⟨hz1, hz2⟩, hz3⟩, hz4⟩, hz5⟩, hz6⟩, hz7⟩ : (((((zeroAt d 1 3 = true ∧ zeroAt d 9 1 = true) ∧ zeroAt d 10 2 = true) ∧ zeroAt d 12 8 = true) ∧
      zeroAt d 20 4 = true) ∧ zeroAt d 24 8 = true) ∧ zeroAt d 48 16 = true := by simpa only [Bool.and_eq_true] using hz
  have haddr : fieldAt d 24 8 = 0 := by simpa [zeroAt] using hz6
  have hall : (List.range 4).all (fun i => decide (1 ≤ fieldAt d (32 + 4 * i) 2) && decide (fieldAt d (32 + 4 * i) 2 ≤ 16384) &&
      decide (fieldAt d (34 + 4 * i) 2 < fieldAt d (32 + 4 * i) 2)) = true := by
    simpa [and_assoc] using hax
  have hbusy : (((delivered s r d).block s.cmdId).replacing.isSome || (match ((delivered s r d).block s.cmdId).ctx with
      | some x => x.kind != 2
      | none => false)) = false := by
    rw [State.block_of_cmd (cmd_delivered hn r d), delivered_eq]
    show (s.replacing.isSome || (match s.ctx with | some x => x.kind != 2 | none => false)) = false
    rw [hr]
    cases hctx : s.ctx with
    | none => rfl
    | some x => simp [hx x hctx]
  refine (live_of s _ h.1).trans (congrArg _ ?_)
  rw [State.blockedLoad_of_offered h]
  refine (deliver_of h _).trans ((if_neg ?_).trans ((if_neg ?_).trans ?_))
  · simp [-Nat.reducePow, hz1, hz3, hz5, hz7, haddr]
  · rw [hz2, hz4, hz6, hall]
    decide
  · dsimp only
    rw [cmd_block_delivered hn r d]
    exact if_neg (ne_true_of_eq_false hbusy)

/-! ### Ingest jobs (R386, R570) -/

theorem exec_ingestJob {s : State} {r : Nat} {d : Desc} (h : Offered s r .ingest d) : exec (.ingestJob r) s =
    .next (if !ingestFieldsOk d then (delivered s r d).complete s.cmdId [1] []
      else if s.clk.enCrm = 0 then (delivered s r d).complete s.cmdId [4] []
      else { delivered s r d with ingestQ := s.ingestQ ++ [s.cmdId] }) := by
  refine (live_of s _ h.1).trans (congrArg _ ((deliver_of h _).trans ?_))
  rw [delivered_eq]

/-! ### The obligation -/

/-- Settles O47: each command's outcome by the checks of its own rules. -/
theorem copiesJobsAndTables : Obligations.CopiesJobsAndTables := by
  unfold Obligations.CopiesJobsAndTables
  refine ⟨?ladle, fun r d s h => ?ingest, ?stirrer, ?press, ?group, ?shard⟩
  case ladle =>
    intro r d s h hz c q a hc hq ha hal hw
    have hok : ladleFieldsOk d := ⟨hz, hc, hq, ha, hal⟩
    exact ⟨fun hoff => (exec_ladleCopy h hok hw).trans (congrArg _ (if_pos (by rw [hoff]; rfl))), ladleCopy_unowned h hok hw, ladleCopy_accepted h hok hw⟩
  case ingest =>
    refine ⟨fun hbad => (exec_ingestJob h).trans (congrArg _ (if_pos (by rw [hbad]; rfl))), fun hok hclk => ?_, fun hok hclk => ?_⟩
    · exact (exec_ingestJob h).trans (congrArg _ ((if_neg (by simp [hok])).trans (if_pos hclk)))
    · exact (exec_ingestJob h).trans (congrArg _ ((if_neg (by simp [hok])).trans (if_neg hclk)))
  case stirrer =>
    intro r d s h hn hz h1 h2 h3 u
    have hok : epochFieldsOk d := ⟨hz, h1, h2, h3⟩
    refine ⟨fun hs => (exec_stirrerEpoch h hok).trans (congrArg _ (if_pos hs)), exec_stirrerEpoch_of_waits h hok hn,
      fun x he hq hw hx => ⟨_, exec_stirrerEpoch_of_error h hok hn he hq hw hx, stirStart_byteAt s r d⟩,
      fun x he hq hw hx => ⟨_, exec_stirrerEpoch_of_ok h hok hn he hq hw hx, rfl, rfl, stirStart_byteAt s r d⟩⟩
  case press =>
    intro r par d s h hn u j
    have heng : (delivered s r d).pressEngines = s.pressEngines := by
      rw [delivered_eq]
      rfl
    have hgroup : (delivered s r d).group = s.group := by
      rw [delivered_eq]
      rfl
    refine ⟨exec_pressJob_of_refused h par, fun hacc hbit => (exec_pressJob_of_accepted h par hacc).trans (congrArg _ (if_pos hbit)),
      fun hacc hbit he => ?_, fun hacc hbit _ => (exec_pressJob_of_accepted h par hacc).trans (congrArg _ (if_neg (ne_true_of_eq_false hbit)))⟩
    have hexec := (exec_pressJob_of_accepted h par hacc).trans (congrArg _ (if_neg (ne_true_of_eq_false hbit)))
    have hfine := State.group_of_accepted hacc
    rw [hgroup] at hfine
    obtain ⟨t, ht, hjobs, hbytes⟩ := pressStart_of_gated (r := r) (d := d) hn (rfl : j.cmd = s.cmdId) hfine he
    exact ⟨t, hexec.trans (congrArg _ ht), hjobs, hbytes⟩
  case group =>
    intro r d s h hn hz g p a ring h1 h2 h3 h4 h5 h6
    have hok : groupFieldsOk d := ⟨hz, h1, h2, h3, h4, h5, h6⟩
    refine ⟨fun hj => (exec_pressGroupTableLoad h hn hok).trans (congrArg _ (State.groupLoad_of_busy ?_)), pressGroupTableLoad_of_free h hn hok⟩
    rw [(loadReads_block (r := r) (d := d) hn).press]
    exact hj
  case shard =>
    intro r d s h hn hz hax hr hx
    have hcmd : (delivered s r d).cmd s.cmdId = some (deliveredCmd s r d) := cmd_delivered hn r d
    refine ⟨_, exec_shardGroupTableLoad h hn ⟨hz, hax⟩ hr hx, rfl, ?_, ?_⟩
    · rw [State.block_of_cmd hcmd, delivered_eq]
      rfl
    · exact State.byteAt_congr ((State.block_mem ..).trans (delivered_mem s r d))

end Sys2Proof.Machine
end

section
/-! PROOFS. Calibration and test commands, gauges, the deadlock detector (18 R581 to R583; 19 R608, R609; 20 R621 to R625; 10 R329). -/

namespace Sys2Proof.Machine

/-! ### Checks at delivery (R557, R581 to R583) -/

/-- A delivered command changes no check of a test. -/
theorem delivered_test (s : State) (r : Nat) (d : Desc) : (∀ lo hi, (delivered s r d).rangeOkDev false lo hi = s.rangeOkDev false lo hi) ∧
    (∀ t u depth, (delivered s r d).loopOk t u depth = s.loopOk t u depth) ∧ (delivered s r d).fuse = s.fuse := by
  rw [delivered_eq]
  exact ⟨fun _ _ => rfl, fun t u depth => by simp only [State.loopOk]; rfl, rfl⟩

section
variable {s : State} {r : Nat} {d : Desc}

theorem exec_calRead (h : Offered s r .calRead d) : exec (.calRead r) s = .next (
    if !calZero d false || !calAddr d || fieldAt d 28 4 == 0 || fieldAt d 28 4 % 32 != 0 || decide (flashSize < fieldAt d 24 4 + fieldAt d 28 4) then
      (delivered s r d).complete s.cmdId [1] (calDetail 0 0)
    else if !s.rangeOkDev false (fieldAt d 16 8) (fieldAt d 16 8 + fieldAt d 28 4 - 1) then (delivered s r d).complete s.cmdId [2] (calDetail 0 0)
    else delivered s r d) := by
  rw [← (delivered_test s r d).1]
  exact (live_of s _ h.1).trans (congrArg _ (deliver_of h _))

theorem exec_calWrite (h : Offered s r .calWrite d) : exec (.calWrite r) s = .next (
    if !calZero d false || !calAddr d || fieldAt d 28 4 == 0 || fieldAt d 28 4 % 4096 != 0 || fieldAt d 24 4 == 0 || fieldAt d 24 4 % 4096 != 0 ||
        decide (flashSize < fieldAt d 24 4 + fieldAt d 28 4) then
      (delivered s r d).complete s.cmdId [1] (calDetail 0 0)
    else if !s.rangeOkDev false (fieldAt d 16 8) (fieldAt d 16 8 + fieldAt d 28 4 - 1) then (delivered s r d).complete s.cmdId [2] (calDetail 0 0)
    else delivered s r d) := by
  rw [← (delivered_test s r d).1]
  exact (live_of s _ h.1).trans (congrArg _ (deliver_of h _))

end

/-- The loop-back that a descriptor starts. -/
def loopTestOf (s : State) (d : Desc) : LoopTest :=
  { cmd := s.cmdId, target := fieldAt d 9 1, unit := fieldAt d 10 2, depth := fieldAt d 12 1
    len := if fieldAt d 9 1 = 5 then fieldAt d 28 4 * meshPorts (fieldAt d 10 2) else fieldAt d 28 4, seed := fieldAt d 32 8 }

/-- A loop-back with its fields in range starts, or is refused as its target's state says. -/
theorem exec_loopback {s : State} {r : Nat} {d : Desc} (h : Offered s r .loopback d) (hz : (calZero d true && zeroAt d 16 12) = true)
    (hpos : 0 < fieldAt d 28 4) (hlen : fieldAt d 28 4 % 32 = 0) (hf : loopFields (fieldAt d 9 1) (fieldAt d 10 2) (fieldAt d 12 1) = true)
    (ha : fieldAt d 9 1 = 4 → s.fuse.active (fieldAt d 10 2) = true) : exec (.loopback r) s = .next (
      if !s.loopOk (fieldAt d 9 1) (fieldAt d 10 2) (fieldAt d 12 1) then (delivered s r d).complete s.cmdId [0x62] (calDetail 0 0)
      else { delivered s r d with lbStatus := none, loopTest := some (loopTestOf s d) }) := by
  obtain ⟨hz1, hz2⟩ := Bool.and_eq_true_iff.1 hz
  obtain ⟨-, hloop, hfuse⟩ := delivered_test s r d
  rw [← hloop]
  refine (live_of s _ h.1).trans (congrArg _ ((deliver_of h _).trans ((if_neg ?_).trans (if_neg ?_))))
  · simp [hz1, hz2, hlen, hf]
    omega
  · rw [hfuse]
    simpa using ha

/-! ### The calibration record (R582, R604) -/

theorem get_putFlash (m : Sparse Byte) (o : Nat) (bs : List Byte) (i : Nat) :
    Sparse.get 0 (putFlash m o bs) i = if o ≤ i ∧ i < o + bs.length then bs.getD (i - o) 0 else Sparse.get 0 m i := by
  induction bs generalizing m o with
  | nil =>
    rw [if_neg (by simp)]
    rfl
  | cons b t ih =>
    rw [putFlash, ih, Sparse.get_set]
    obtain h | rfl | h := Nat.lt_trichotomy i o
    · rw [if_neg (by omega), if_neg (by omega), if_neg (by omega)]
    · rw [if_neg (by omega), if_pos rfl, if_pos (by simp), Nat.sub_self]
      rfl
    · obtain ⟨k, rfl⟩ : ∃ k, i = o + 1 + k := ⟨i - (o + 1), by omega⟩
      have hk : o + 1 + k - o = k + 1 := by omega
      rw [if_neg (show ¬o + 1 + k = o by omega), hk, List.getD_cons_succ, Nat.add_sub_cancel_left]
      exact if_congr (by simp; omega) rfl rfl

/-! ### The ends of operations (R556, R582) -/

section
variable {bad : Option Nat} {back : List Byte} {lane : Nat} {drifts temps : List Nat} {s : State} {c : Cmd} (hl : s.clk.lost = false)
  (hc : s.cmds.find? (fun c => fieldAt c.desc 0 1 == 0x0A && c.ended.isNone) = some c)
include hl hc

theorem calEnd_calRead (hr : rowOf c.desc = some .calRead) (hw : s.waitsRange (fieldAt c.desc 16 8) (fieldAt c.desc 28 4) = false)
    (hh : inHost (fieldAt c.desc 16 8) = false) : ∃ t : State,
      exec (.calibrationTestOperationEnd bad back lane drifts temps) s = .next (t.complete c.id [] (calDetail (fieldAt c.desc 28 4) 0)) ∧
      ∀ x, t.byteAt x = if fieldAt c.desc 16 8 ≤ x ∧ x < fieldAt c.desc 16 8 + fieldAt c.desc 28 4 then
        Sparse.get 0 s.flash (fieldAt c.desc 24 4 + (x - fieldAt c.desc 16 8)) else s.byteAt x := by
  refine ⟨s.noteWrite (fieldAt c.desc 16 8) (markAll false ((List.range (fieldAt c.desc 28 4)).map (fun i => Sparse.get 0 s.flash (fieldAt c.desc 24 4 + i)))),
    (live_of s _ hl).trans (congrArg _ ?_), fun x => ?_⟩
  · rw [hc]
    dsimp only
    rw [hr]
    refine (if_neg (ne_true_of_eq_false hw)).trans ?_
    rw [State.bindWrite, if_neg (ne_true_of_eq_false hh)]
  · rw [State.byteAt_noteWrite, markAll, List.map_map, List.length_map, List.length_range]
    refine ite_congr rfl (fun hx => ?_) fun _ => rfl
    rw [List.getD_eq_getElem _ _ (by simp; omega)]
    simp

theorem calEnd_calWrite (hr : rowOf c.desc = some .calWrite) (hw : s.waitsRange (fieldAt c.desc 16 8) (fieldAt c.desc 28 4) = false)
    (hb : s.anyBad (fieldAt c.desc 16 8) (fieldAt c.desc 28 4) = false) (hbad : bad = none) : ∃ t : State,
      exec (.calibrationTestOperationEnd bad back lane drifts temps) s = .next (t.complete c.id [] (calDetail (fieldAt c.desc 28 4) 0)) ∧
      (∀ i, Sparse.get 0 t.flash i = if fieldAt c.desc 24 4 ≤ i ∧ i < fieldAt c.desc 24 4 + fieldAt c.desc 28 4 then
        s.byteAt (fieldAt c.desc 16 8 + (i - fieldAt c.desc 24 4)) else Sparse.get 0 s.flash i) ∧ ∀ x, t.byteAt x = s.byteAt x := by
  have hnoted := s.noteRead_onlyNoted (fieldAt c.desc 16 8) (fieldAt c.desc 28 4)
  have hflash : (s.noteRead (fieldAt c.desc 16 8) (fieldAt c.desc 28 4)).flash = s.flash := (congrArg State.flash hnoted.device :)
  refine ⟨{ s.noteRead (fieldAt c.desc 16 8) (fieldAt c.desc 28 4) with
      flash := putFlash s.flash (fieldAt c.desc 24 4) (s.bytesAt (fieldAt c.desc 16 8) (fieldAt c.desc 28 4)) },
    (live_of s _ hl).trans (congrArg _ ?_), fun i => ?_, State.byteAt_congr hnoted.mem⟩
  · rw [hc, hbad]
    dsimp only
    rw [hr]
    refine (if_neg (ne_true_of_eq_false hw)).trans ((if_neg (ne_true_of_eq_false hb)).trans ?_)
    rw [← hflash]
    rfl
  · rw [get_putFlash, State.bytesAt, List.length_map, List.length_range]
    refine ite_congr rfl (fun hi => ?_) fun _ => rfl
    rw [List.getD_eq_getElem _ _ (by simp; omega)]
    simp

theorem calEnd_gauge (hr : rowOf c.desc = some .gauge) : exec (.calibrationTestOperationEnd bad back lane drifts temps) s =
    .next ((s.gaugeSample drifts temps).complete c.id [] (calDetail 0 0)) := by
  refine (live_of s _ hl).trans (congrArg _ ?_)
  rw [hc]
  dsimp only
  rw [hr]

theorem calEnd_loopback (hr : rowOf c.desc = some .loopback) {x : LoopTest} (hx : s.loopTest = some x) (hid : x.cmd = c.id)
    (hlen : back.length = x.len) : exec (.calibrationTestOperationEnd bad back lane drifts temps) s =
      .next (s.endLoop x (fieldAt c.desc 28 4) back lane) := by
  refine (live_of s _ hl).trans (congrArg _ ?_)
  rw [hc]
  dsimp only
  rw [hr, hx]
  exact if_pos ⟨hid, hlen⟩

end

/-! ### The end of a loop-back (R622, R625) -/

theorem State.afterTest_loopTest (s : State) (t : LoopTest) : (s.afterTest t).loopTest = s.loopTest := by
  unfold State.afterTest
  split
  · unfold State.portDown
    extract_lets p s1
    split <;> rfl
  · split <;> rfl

/-- A byte that came back in time and as it was sent shows no error. -/
theorem LoopTest.wrong_eq_zero_iff (t : LoopTest) (len : Nat) (back : List Byte) (i : Nat) :
    t.wrong len back i = 0 ↔ i ∉ t.lost ∧ (t.sent len).getD i 0 = back.getD i 0 := by
  unfold LoopTest.wrong
  split
  next h => simp_all
  next h =>
    rw [List.countP_eq_zero]
    have hlost : i ∉ t.lost := by simpa using h
    refine ⟨fun hz => ⟨hlost, BitVec.eq_of_getLsbD_eq fun j hj => ?_⟩, fun ⟨_, he⟩ j _ => by rw [he]; simp⟩
    simpa using hz j (List.mem_range.2 hj)

theorem State.endLoop_of_good {s : State} {t : LoopTest} {len : Nat} {back : List Byte} (h : ∀ i, i < t.len → t.wrong len back i = 0) (lane : Nat) :
    s.endLoop t len back lane = (({ s with loopTest := none } : State).afterTest t).complete t.cmd [] (calDetail t.len 0) := by
  have hnone : ((List.range t.len).map (t.wrong len back)).findIdx? (fun n => n != 0) = none := by
    rw [List.findIdx?_eq_none_iff]
    simpa using h
  unfold State.endLoop
  dsimp only
  rw [hnone]

theorem State.endLoop_of_bad {s : State} {t : LoopTest} {len : Nat} {back : List Byte} (h : ∃ i, i < t.len ∧ t.wrong len back i ≠ 0) (lane : Nat) :
    ∃ (u : State) (n : Nat), s.endLoop t len back lane = u.complete t.cmd [0x61] (calDetail t.len n) ∧ 0 < n ∧ u.loopTest = none ∧ u.lbStatus.isSome := by
  obtain ⟨i, hi, hne⟩ := h
  have hmem : t.wrong len back i ∈ (List.range t.len).map (t.wrong len back) := List.mem_map.2 ⟨i, List.mem_range.2 hi, rfl⟩
  have hsum : 0 < ((List.range t.len).map (t.wrong len back)).sum := (Nat.pos_of_ne_zero hne).trans_le (List.le_sum_of_mem hmem)
  unfold State.endLoop
  dsimp only
  split
  next k _ => exact ⟨_, _, rfl, hsum, State.afterTest_loopTest .., rfl⟩
  next hnone => exact absurd (by simpa using List.findIdx?_eq_none_iff.1 hnone _ hmem) hne

/-! ### Gauges (R608, R609) -/

/-- The region after a gauge result: TOP becomes the slower of it and the present one. -/
def Region.gauged (g : Region) (d temp : Nat) : Region := { g.sampled d temp with top := max g.top (min (g.gauge d) 5) }

theorem State.gaugeRegion_region (drifts temps : List Nat) (s : State) (r q : Nat) : (s.gaugeRegion drifts temps r).region q =
    if q = r then (s.region r).gauged (min (drifts.getD r 0) 4095) (temps.getD r (s.region r).temp) else s.region q := by
  unfold State.gaugeRegion
  extract_lets d g top s1
  split
  next hlt =>
    have hregions : (s1.postEvent s1.clk.fchgRing 6 (0x320 + r) 0 (detailOf [(1, g.top), (1, top), (6, 0), (8, s.epoch)])).regions = s1.regions :=
      congrArg State.Pacing.regions (State.postEvent_pacing ..)
    refine (congrArg (Sparse.get ({} : Region) · q) hregions).trans ((s.region_setRegion r { g with top := top } q).trans (if_congr Iff.rfl ?_ rfl))
    rw [Region.gauged, show max (s.region r).top (min ((s.region r).gauge d) 5) = top from max_eq_right (le_of_lt hlt)]
  next hle =>
    refine (s.region_setRegion r g q).trans (if_congr Iff.rfl ?_ rfl)
    rw [Region.gauged, show max (s.region r).top (min ((s.region r).gauge d) 5) = (s.region r).top from max_eq_left (not_lt.1 hle)]
    rfl

theorem State.foldl_gaugeRegion_region (drifts temps : List Nat) {l : List Nat} (hl : l.Nodup) (s : State) (q : Nat) :
    (l.foldl (State.gaugeRegion drifts temps) s).region q =
      if q ∈ l then (s.region q).gauged (min (drifts.getD q 0) 4095) (temps.getD q (s.region q).temp) else s.region q := by
  induction l generalizing s with
  | nil => simp
  | cons r t ih =>
    obtain ⟨hr, ht⟩ := List.nodup_cons.1 hl
    rw [List.foldl_cons, ih ht, State.gaugeRegion_region]
    by_cases hq : q = r
    · subst hq
      simp [hr]
    · simp [hq]

/-- A region's sample changes neither memory nor the epoch. -/
theorem State.gaugeRegion_epoch (drifts temps : List Nat) (s : State) (r : Nat) : (s.gaugeRegion drifts temps r).epoch = s.epoch := by
  unfold State.gaugeRegion
  extract_lets d g top s1
  split
  · exact congrArg State.Pacing.epoch (State.postEvent_pacing ..)
  · rfl

/-- A change that the device asks for leaves the gauges' results. -/
theorem State.deviceChange_spec (s : State) (step : Nat) : (s.deviceChange step).clk.gaugeEpoch = s.clk.gaugeEpoch ∧
    ∀ r, r < 16 → ((s.deviceChange step).region r).drift = (s.region r).drift ∧ ((s.deviceChange step).region r).top = (s.region r).top := by
  have haccept (u : State) (step cfg n : Nat) : (u.acceptChange step cfg n true).clk.gaugeEpoch = u.clk.gaugeEpoch ∧
      ∀ r, r < 16 → ((u.acceptChange step cfg n true).region r).drift = (u.region r).drift ∧
        ((u.acceptChange step cfg n true).region r).top = (u.region r).top := by
    refine ⟨rfl, fun r hr => ?_⟩
    rw [show (u.acceptChange step cfg n true).region r = { u.region r with locked := false } from (u.region_mapRegions (fun _ g => { g with locked := false }) r).trans (if_pos hr)]
    exact ⟨rfl, rfl⟩
  unfold State.deviceChange
  split
  · exact ⟨rfl, fun _ _ => ⟨rfl, rfl⟩⟩
  · split
    · split
      · exact haccept ..
      · exact ⟨rfl, fun _ _ => ⟨rfl, rfl⟩⟩
    · exact haccept ..

theorem State.gaugeSample_spec (s : State) (drifts temps : List Nat) : (s.gaugeSample drifts temps).clk.gaugeEpoch = s.epoch ∧
    ∀ r, r < 16 → ((s.gaugeSample drifts temps).region r).drift = min (drifts.getD r 0) 4095 ∧
      ((s.gaugeSample drifts temps).region r).top = max (s.region r).top (min ((s.region r).gauge (min (drifts.getD r 0) 4095)) 5) := by
  have hepoch : ((List.range 16).foldl (State.gaugeRegion drifts temps) s).epoch = s.epoch :=
    List.foldlRecOn (motive := fun t : State => t.epoch = s.epoch) _ _ rfl fun t ht r _ => (t.gaugeRegion_epoch drifts temps r).trans ht
  have hregion (r : Nat) (hr : r < 16) : ((List.range 16).foldl (State.gaugeRegion drifts temps) s).region r =
      (s.region r).gauged (min (drifts.getD r 0) 4095) (temps.getD r (s.region r).temp) :=
    (State.foldl_gaugeRegion_region drifts temps List.nodup_range s r).trans (if_pos (List.mem_range.2 hr))
  unfold State.gaugeSample
  extract_lets s1 clk s2
  replace hepoch : s1.epoch = s.epoch := hepoch
  replace hregion (r : Nat) (hr : r < 16) : s1.region r = (s.region r).gauged (min (drifts.getD r 0) 4095) (temps.getD r (s.region r).temp) := hregion r hr
  clear_value s1
  have hs2 : s2.clk.gaugeEpoch = s.epoch ∧ ∀ r, r < 16 → (s2.region r).drift = min (drifts.getD r 0) 4095 ∧
      (s2.region r).top = max (s.region r).top (min ((s.region r).gauge (min (drifts.getD r 0) 4095)) 5) := by
    refine ⟨hepoch, fun r hr => ?_⟩
    rw [show s2.region r = s1.region r from rfl, hregion r hr]
    exact ⟨rfl, rfl⟩
  split
  · obtain ⟨hg, hkeep⟩ := s2.deviceChange_spec s2.dieTop
    refine ⟨hg.trans hs2.1, fun r hr => ?_⟩
    obtain ⟨hdrift, htop⟩ := hkeep r hr
    rw [hdrift, htop]
    exact hs2.2 r hr
  · exact hs2

/-! ### The deadlock detector (R329) -/

/-- The state in which the detector has fired: the finding counted and dated. -/
def State.dldFired (s : State) : State :=
  { s with dld := { s.dld with snap := s.dldSnap, fired := true, fires := min (s.dld.fires + 1) 0xFFFF, quiet := true } }

theorem exec_deadlockDetectorFire {s : State} (hl : s.clk.lost = false) : exec .deadlockDetectorFire s = .next (if s.dldDue then
    s.dldFired.postEvent s.dld.ring 5 0x310 0 (detailOf [(8, s.dldSnap), (8, s.epoch)]) else s) := live_of s _ hl

theorem State.postEvent_unrecorded (s : State) (e kind source status : Nat) (detail : List Byte) :
    ∃ q, (s.postEvent e kind source status detail).unrecorded = { s.unrecorded with seqs := q } := by
  simp only [State.postEvent]
  split
  next h => exact ⟨_, (State.post_unrecorded h :)⟩
  next => exact ⟨_, rfl⟩

theorem State.postEvent_dld (s : State) (e kind source status : Nat) (detail : List Byte) : (s.postEvent e kind source status detail).dld = s.dld := by
  obtain ⟨q, h⟩ := s.postEvent_unrecorded e kind source status detail
  exact (congrArg State.dld h :)

theorem deadlockDetectorFire_of_due {s : State} (hl : s.clk.lost = false) (hdue : s.dldDue = true) : s.mayPass = false ∧
    ∃ t, exec .deadlockDetectorFire s = .next t ∧ t.epoch = s.epoch ∧ t.dld.fired = true ∧ t.dld.snap = s.dldSnap ∧
      t.dld.fires = min (s.dld.fires + 1) 0xFFFF ∧ t.dldDue = false ∧ ∀ a, t.byteAt a = s.byteAt a := by
  have hdld := State.postEvent_dld s.dldFired s.dld.ring 5 0x310 0 (detailOf [(8, s.dldSnap), (8, s.epoch)])
  refine ⟨State.mayPass_of_momentDue (by simp [State.momentDue, hdue]), _, (exec_deadlockDetectorFire hl).trans (congrArg _ (if_pos hdue)),
    congrArg State.Pacing.epoch (State.postEvent_pacing ..), ?_, ?_, ?_, ?_, State.byteAt_congr (State.postEvent_mem ..)⟩
  · rw [hdld]
    rfl
  · rw [hdld]
    rfl
  · rw [hdld]
    rfl
  · rw [State.dldDue, hdld]
    simp [State.dldFired]

/-! ### The obligation -/

/-- Settles O48: the checks of each command, the end of each operation by its kind, the sampled regions, and the detector's finding. -/
theorem calibrationTestsAndDetectors : Obligations.CalibrationTestsAndDetectors := by
  unfold Obligations.CalibrationTestsAndDetectors
  refine ⟨fun r d s h => ⟨fun hbad => ?_, fun hok h1 h2 h3 => ?_⟩, fun r d s h => ⟨fun hbad => ?_, fun hok h1 h2 h3 h4 h5 => ?_⟩, fun r d s h => ?_,
    fun r d s h hz h1 h2 hf ha => ⟨fun hno => ?_, fun hyes => ?_⟩, fun i s x hl hx hlt hi => ?_, ?ends, fun drifts temps s hl hd => ?_,
    fun s hl => ⟨fun hno => ?_, fun h1 h2 h3 h4 => ?_⟩⟩
  · refine (exec_calRead h).trans (congrArg _ (if_pos ?_))
    rw [Bool.and_eq_false_iff] at hbad
    obtain hbad | hbad := hbad <;> simp [hbad]
  · obtain ⟨hz, ha⟩ := Bool.and_eq_true_iff.1 hok
    refine (exec_calRead h).trans (congrArg _ ((if_neg ?_).trans ?_))
    · simp [hz, ha, h2, flashSize]
      exact ⟨by omega, decide_eq_false (by omega)⟩
    · cases s.rangeOkDev false (fieldAt d 16 8) (fieldAt d 16 8 + fieldAt d 28 4 - 1) <;> rfl
  · refine (exec_calWrite h).trans (congrArg _ (if_pos ?_))
    rw [Bool.and_eq_false_iff] at hbad
    obtain hbad | hbad := hbad <;> simp [hbad]
  · obtain ⟨hz, ha⟩ := Bool.and_eq_true_iff.1 hok
    refine (exec_calWrite h).trans (congrArg _ ((if_neg ?_).trans ?_))
    · simp [hz, ha, h2, flashSize]
      exact ⟨⟨by omega, by omega⟩, decide_eq_false (by omega)⟩
    · cases s.rangeOkDev false (fieldAt d 16 8) (fieldAt d 16 8 + fieldAt d 28 4 - 1) <;> rfl
  · exact (live_of s _ h.1).trans (congrArg _ (deliver_of h _))
  · exact (exec_loopback h hz h1 h2 hf ha).trans (congrArg _ (if_pos (by rw [hno]; rfl)))
  · exact ⟨_, loopTestOf s d, (exec_loopback h hz h1 h2 hf ha).trans (congrArg _ (if_neg (by simp [hyes]))), rfl, rfl, rfl, rfl, rfl, rfl,
      State.byteAt_congr (delivered_mem s r d)⟩
  · refine (live_of s _ hl).trans (congrArg _ ?_)
    rw [hx, Option.map_some, if_neg (by simp [hi]; omega)]
  case ends =>
    intro bad back lane drifts temps s c hl hc a off len
    refine ⟨calEnd_calRead hl hc, calEnd_calWrite hl hc, calEnd_gauge hl hc, fun hr x hx hid hlen => ⟨fun hback hlost => ?_, fun ⟨i, hi, hbad⟩ => ?_⟩⟩
    · have hgood : ∀ i, i < x.len → x.wrong len back i = 0 := fun i _ =>
        (x.wrong_eq_zero_iff len back i).2 ⟨by rw [hlost]; exact List.not_mem_nil, by rw [hback]⟩
      refine ⟨({ s with loopTest := none } : State).afterTest x,
        (calEnd_loopback hl hc hr hx hid hlen).trans (congrArg _ ((State.endLoop_of_good hgood lane).trans ?_)), (State.afterTest_loopTest ..).trans rfl⟩
      rw [hid]
    · have hwrong : x.wrong len back i ≠ 0 := fun h0 => by
        obtain ⟨h1, h2⟩ := (x.wrong_eq_zero_iff len back i).1 h0
        exact hbad.elim (fun hne => hne h2.symm) h1
      obtain ⟨u, n, hend, hpos, hnone, hsome⟩ := State.endLoop_of_bad (s := s) ⟨i, hi, hwrong⟩ lane
      refine ⟨u, n, (calEnd_loopback hl hc hr hx hid hlen).trans (congrArg _ (hend.trans ?_)), hpos, hnone, hsome⟩
      rw [hid]
  · obtain ⟨hg, hregion⟩ := s.gaugeSample_spec drifts temps
    exact ⟨_, (live_of s _ hl).trans (congrArg _ (if_pos (by simp [hd, hl]))), hg, State.byteAt_congr (State.gaugeSample_mem ..), hregion⟩
  · exact (exec_deadlockDetectorFire hl).trans (congrArg _ (if_neg (ne_true_of_eq_false hno)))
  · exact deadlockDetectorFire_of_due hl (by simp [State.dldDue, h1, h2, h3, h4])

end Sys2Proof.Machine
end

section
/-! PROOFS. What the failing of Press jobs leaves alone (14 R446 to R448). -/

namespace Sys2Proof.Machine

open Claims (NoJobAt)

/-! ### The destination of a job that fails (R448) -/

theorem State.byteAt_pressUndefined {s : State} {j : PressJob} {a : Nat} (h : ∀ b, b < j.nb → b ∉ j.done →
    a < j.dst + b * lineBytes j.dstFmt ∨ j.dst + b * lineBytes j.dstFmt + lineBytes j.dstFmt ≤ a) : (s.pressUndefined j).byteAt a = s.byteAt a := by
  unfold State.pressUndefined
  refine List.foldlRecOn (motive := fun t : State => t.byteAt a = s.byteAt a) _ _ rfl fun t ht b hb => ?_
  have hblock : b < j.nb ∧ b ∉ j.done := by simpa using hb
  have hlen : (s.freeRange (j.dst + b * lineBytes j.dstFmt) (lineBytes j.dstFmt)).length = lineBytes j.dstFmt := by simp [State.freeRange, markAll]
  rw [State.byteAt_storeBytes, hlen, if_neg (by have := h b hblock.1 hblock.2; omega)]
  exact ht

theorem State.byteAt_pressUndefined_of_outside {s : State} {j : PressJob} {a : Nat} (h : a < j.dst ∨ j.dst + j.nb * lineBytes j.dstFmt ≤ a) :
    (s.pressUndefined j).byteAt a = s.byteAt a := by
  refine State.byteAt_pressUndefined fun b hb _ => h.imp (fun h => by omega) fun h => ?_
  have hle : (b + 1) * lineBytes j.dstFmt ≤ j.nb * lineBytes j.dstFmt := Nat.mul_le_mul_right _ hb
  rw [Nat.add_mul, Nat.one_mul] at hle
  omega

/-- A block that lap 3 has written keeps its bytes. -/
theorem State.byteAt_pressUndefined_of_done {s : State} {j : PressJob} {b i : Nat} (hb : b ∈ j.done) (hi : i < lineBytes j.dstFmt) :
    (s.pressUndefined j).byteAt (j.dst + b * lineBytes j.dstFmt + i) = s.byteAt (j.dst + b * lineBytes j.dstFmt + i) := by
  refine State.byteAt_pressUndefined fun c _ hc => ?_
  have hne : c ≠ b := fun h => hc (h ▸ hb)
  obtain hlt | hlt := Nat.lt_or_gt_of_ne hne
  · have hle : (c + 1) * lineBytes j.dstFmt ≤ b * lineBytes j.dstFmt := Nat.mul_le_mul_right _ hlt
    rw [Nat.add_mul, Nat.one_mul] at hle
    omega
  · have hle : (b + 1) * lineBytes j.dstFmt ≤ c * lineBytes j.dstFmt := Nat.mul_le_mul_right _ hlt
    rw [Nat.add_mul, Nat.one_mul] at hle
    omega

/-- Undefined bytes change memory and its marks alone. -/
theorem State.pressUndefined_device (s : State) (j : PressJob) : ∃ m b e f, s.pressUndefined j = { s with mem := m, bytePar := b, ecc := e, free := f } := by
  unfold State.pressUndefined
  extract_lets lb t
  have ht : ∃ m b e, t = { s with mem := m, bytePar := b, ecc := e } :=
    List.foldlRecOn (motive := fun t : State => ∃ m b e, t = { s with mem := m, bytePar := b, ecc := e }) _ _ ⟨_, _, _, rfl⟩ fun t ⟨m, b, e, ht⟩ x _ =>
      ht ▸ ⟨_, _, _, rfl⟩
  obtain ⟨m, b, e, ht⟩ := ht
  exact ⟨m, b, e, s.free + 1, by rw [ht]⟩

/-! ### Jobs that fail -/

/-- State t is s after jobs have failed: the ports that are not in service and the clocks stand, jobs have only gone, failed groups and errors
stay, and no byte has changed but in a job's destination. -/
structure State.JobsFail (s t : State) : Prop where
  clk : t.clk = s.clk
  down : ∀ n, s.portUp n = false → t.port n = s.port n
  up : ∀ n, t.portUp n = s.portUp n
  jobs : ∀ j ∈ t.press.jobs, j ∈ s.press.jobs
  failed : ∀ g, (s.group g).failed = true → (t.group g).failed = true
  err : ∀ b, bitOf s.press.err b = true → bitOf t.press.err b = true
  bytes : ∀ a, NoJobAt s a → t.byteAt a = s.byteAt a

namespace State.JobsFail

variable {s t u : State}

theorem trans (h : JobsFail s t) (h' : JobsFail t u) : JobsFail s u where
  clk := h'.clk.trans h.clk
  down n hn := (h'.down n ((h.up n).trans hn)).trans (h.down n hn)
  up n := (h'.up n).trans (h.up n)
  jobs j hj := h.jobs j (h'.jobs j hj)
  failed g hg := h'.failed g (h.failed g hg)
  err b hb := h'.err b (h.err b hb)
  bytes a ha := (h'.bytes a fun j hj => ha j (h.jobs j hj)).trans (h.bytes a ha)

theorem of_sends (h : s.Sends t) : JobsFail s t where
  clk := by rw [h.device]
  down := h.down
  up := h.portUp
  jobs j hj := by rwa [h.device] at hj
  failed g hg := by rw [h.device]; exact hg
  err b hb := by rw [h.device]; exact hb
  bytes a _ := by rw [h.device]; rfl

theorem refl (s : State) : JobsFail s s := of_sends (.refl s)

/-- Where at most records and their sources' numbers differ. -/
theorem of_unrecorded {q : Sparse Nat} (h : t.unrecorded = { s.unrecorded with seqs := q }) : JobsFail s t where
  clk := (congrArg State.clk h :)
  down n _ := (congrArg (fun x : State => x.port n) h :)
  up n := (congrArg (fun x : State => x.portUp n) h :)
  jobs _ hj := (congrArg (fun x : State => x.press.jobs) h :) ▸ hj
  failed g hg := (congrArg (fun x : State => (x.group g).failed) h : _ = _).trans hg
  err b hb := (congrArg (fun x : State => bitOf x.press.err b) h : _ = _).trans hb
  bytes a _ := (congrArg (fun x : State => x.byteAt a) h :)

theorem foldl {α : Type} {f : State → α → State} (hf : ∀ s x, JobsFail s (f s x)) (l : List α) (s : State) : JobsFail s (l.foldl f s) :=
  List.foldlRecOn (motive := JobsFail s) l f (refl s) fun t ht x _ => ht.trans (hf t x)

/-- Where the Press alone has changed. -/
theorem of_press {p : Press} (hj : ∀ j ∈ p.jobs, j ∈ s.press.jobs) (hg : ∀ g, (s.group g).failed = true → (Sparse.get ({} : PressGroup) p.groups g).failed = true)
    (he : ∀ b, bitOf s.press.err b = true → bitOf p.err b = true) : JobsFail s { s with press := p } where
  clk := rfl
  down _ _ := rfl
  up _ := rfl
  jobs := hj
  failed := hg
  err := he
  bytes _ _ := rfl

end State.JobsFail

theorem State.complete_jobsFail (s : State) (id : Nat) (found : List Nat) (detail : List Byte) : s.JobsFail (s.complete id found detail) :=
  .of_unrecorded (q := s.seqs) (s.complete_unrecorded id found detail)

theorem State.pressCount_jobsFail (s : State) (c k : Nat) : s.JobsFail (s.pressCount c k) := .of_press (fun _ h => h) (fun _ h => h) fun _ h => h

theorem State.pressErr_jobsFail (s : State) (b : Nat) : s.JobsFail (s.pressErr b) :=
  .of_press (fun _ h => h) (fun _ h => h) fun i h => (bitOf_setBit s.press.err b i).trans (by rw [h, Bool.true_or])

/-! ### The end of one job (R448) -/

/-- The state in which job j is over, its group failed, before its record is made. -/
def State.jobOver (s : State) (j : PressJob) : State :=
  let u := s.pressUndefined j
  { u with press := { u.press with
    jobs := u.press.jobs.filter (fun x => x.cmd != j.cmd)
    groups := Sparse.set {} u.press.groups j.group { u.group j.group with failed := true }
    waiting := u.press.waiting.filter (fun w => !(w.2.2.tag == j.tag && bits w.2.2.addr 35 32 == j.group)) } }

theorem State.pressEnd_eq (s : State) (j : PressJob) (pos cause : Nat) (heard : Bool) :
    s.pressEnd j pos cause heard = (((s.jobOver j).pressErr 2).pressCount 1 1).complete j.cmd [0x51] (j.detail pos cause heard) := rfl

theorem State.jobOver_press (s : State) (j : PressJob) : (s.jobOver j).press.jobs = s.press.jobs.filter (fun x => x.cmd != j.cmd) ∧
    (s.jobOver j).press.groups = Sparse.set {} s.press.groups j.group { s.group j.group with failed := true } ∧ (s.jobOver j).press.err = s.press.err := by
  obtain ⟨m, b, e, f, h⟩ := s.pressUndefined_device j
  rw [State.jobOver, h]
  exact ⟨rfl, rfl, rfl⟩

theorem State.jobOver_jobsFail {s : State} {j : PressJob} (hj : j ∈ s.press.jobs) : s.JobsFail (s.jobOver j) := by
  obtain ⟨hjobs, hgroups, herr⟩ := s.jobOver_press j
  have hrest : (s.jobOver j).clk = s.clk ∧ (∀ n, (s.jobOver j).port n = s.port n) ∧ ∀ n, (s.jobOver j).portUp n = s.portUp n := by
    obtain ⟨m, b, e, f, h⟩ := s.pressUndefined_device j
    rw [State.jobOver, h]
    exact ⟨rfl, fun _ => rfl, fun _ => rfl⟩
  obtain ⟨hclk, hport, hup⟩ := hrest
  refine ⟨hclk, fun n _ => hport n, hup, fun x hx => ?_, fun g hg => ?_, fun b hb => by rw [herr]; exact hb, fun a ha => ?_⟩
  · rw [hjobs] at hx
    exact (List.mem_filter.1 hx).1
  · rw [State.group, hgroups, Sparse.get_set]
    split
    · rfl
    · exact hg
  · exact State.byteAt_pressUndefined_of_outside (ha j hj)

theorem State.pressEnd_jobsFail {s : State} {j : PressJob} (hj : j ∈ s.press.jobs) (pos cause : Nat) (heard : Bool) :
    s.JobsFail (s.pressEnd j pos cause heard) :=
  (((State.jobOver_jobsFail hj).trans (State.pressErr_jobsFail ..)).trans (State.pressCount_jobsFail ..)).trans (State.complete_jobsFail ..)

/-- The ended job is gone, its group has failed. -/
theorem State.pressEnd_press (s : State) (j : PressJob) (pos cause : Nat) (heard : Bool) :
    (s.pressEnd j pos cause heard).press.jobs = s.press.jobs.filter (fun x => x.cmd != j.cmd) ∧ ((s.pressEnd j pos cause heard).group j.group).failed = true := by
  obtain ⟨hjobs, hgroups, -⟩ := s.jobOver_press j
  have hpress : (s.pressEnd j pos cause heard).press = (((s.jobOver j).pressErr 2).pressCount 1 1).press :=
    (congrArg State.press (State.complete_unrecorded ..) :)
  refine ⟨(congrArg Press.jobs hpress).trans hjobs, ?_⟩
  rw [State.group, show (s.pressEnd j pos cause heard).press.groups = _ from (congrArg Press.groups hpress).trans hgroups, Sparse.get_set_self]

/-! ### A job's own failure, a failed link (R446, R447) -/

theorem State.pressGroupFailed_jobsFail (s : State) (g : Nat) : s.JobsFail (s.pressGroupFailed g) := by
  unfold State.pressGroupFailed
  extract_lets late press s1
  have h1 : s.JobsFail s1 := .of_press (fun j hj => (List.mem_filter.1 hj).1) (fun _ h => h) fun _ h => h
  exact h1.trans (.foldl (fun t x => (t.pressCount_jobsFail 1 1).trans (State.complete_jobsFail ..)) late s1)

theorem State.mem_of_pressJob {s : State} {cmd : Nat} {j : PressJob} (h : s.pressJob cmd = some j) : j ∈ s.press.jobs ∧ j.cmd = cmd ∧ j.armed = false := by
  refine ⟨List.mem_of_find?_eq_some h, ?_⟩
  simpa using List.find?_some h

/-- The state in which job j has ended by its own error and its abort is noted. -/
def State.abortNoted (s : State) (j : PressJob) (cause : Nat) : State :=
  let u := s.pressEnd j j.self cause false
  let v := { u with press := { u.press with aborts := (j.group, j.gen, j.tag, j.self) :: u.press.aborts } }
  if cause = 5 then v.pressErr 3 else v

theorem State.abortNoted_jobsFail (s : State) (j : PressJob) (cause : Nat) : (s.pressEnd j j.self cause false).JobsFail (s.abortNoted j cause) := by
  unfold State.abortNoted
  extract_lets u press v
  have hv : u.JobsFail v := .of_press (fun _ h => h) (fun _ h => h) fun _ h => h
  split
  · exact hv.trans (v.pressErr_jobsFail 3)
  · exact hv

theorem State.pressFail_eq {s : State} {cmd : Nat} {j : PressJob} (h : s.pressJob cmd = some j) (cause : Nat) : s.pressFail cmd cause =
    if j.p = 1 then (s.abortNoted j cause).pressGroupFailed j.group
    else ([j.next true j.self, j.next false j.self].eraseDups).foldl
      (fun s r => s.pressCtl (j.ring.getD r 0) 0 j.tag (j.addr 0 0) (abortArg j.self cause) []) ((s.abortNoted j cause).pressGroupFailed j.group) := by
  rw [State.pressFail, h]
  rfl

theorem State.abortNoted_pressFail {s : State} {cmd : Nat} {j : PressJob} (h : s.pressJob cmd = some j) (cause : Nat) :
    (s.abortNoted j cause).JobsFail (s.pressFail cmd cause) := by
  rw [State.pressFail_eq h]
  split
  · exact State.pressGroupFailed_jobsFail ..
  · exact (State.pressGroupFailed_jobsFail ..).trans (.foldl (fun t r => .of_sends (t.pressCtl_sends ..)) _ _)

theorem State.pressFail_jobsFail (s : State) (cmd cause : Nat) : s.JobsFail (s.pressFail cmd cause) := by
  cases h : s.pressJob cmd with
  | none =>
    rw [State.pressFail, h]
    exact .refl s
  | some j => exact ((State.pressEnd_jobsFail (State.mem_of_pressJob h).1 ..).trans (s.abortNoted_jobsFail j cause)).trans (State.abortNoted_pressFail h cause)

/-- A job's own failure makes undefined what lap 3 has not written of its destination, and changes no other byte. -/
theorem State.pressFail_mem {s : State} {cmd : Nat} {j : PressJob} (h : s.pressJob cmd = some j) (cause : Nat) :
    (s.pressFail cmd cause).mem = (s.pressUndefined j).mem := by
  have hend : (s.pressEnd j j.self cause false).mem = (s.pressUndefined j).mem := (congrArg State.mem (State.complete_unrecorded ..) :)
  have hnoted : (s.abortNoted j cause).mem = (s.pressEnd j j.self cause false).mem := by
    unfold State.abortNoted
    extract_lets u press v
    split <;> rfl
  rw [State.pressFail_eq h, ← hend, ← hnoted, ← (s.abortNoted j cause).pressGroupFailed_mem j.group]
  split
  · rfl
  · exact List.foldlRecOn (motive := fun t : State => t.mem = ((s.abortNoted j cause).pressGroupFailed j.group).mem) _ _ rfl fun t ht x _ =>
      (State.pressCtl_mem ..).trans ht

/-- After a job's own failure it is gone, and its group has failed (R448). -/
theorem State.pressFail_spec {s : State} {cmd : Nat} {j : PressJob} (h : s.pressJob cmd = some j) (cause : Nat) :
    (s.pressFail cmd cause).pressJob cmd = none ∧ ((s.pressFail cmd cause).group j.group).failed = true ∧
      (cause = 5 → bitOf (s.pressFail cmd cause).press.err 3 = true) := by
  obtain ⟨-, hcmd, -⟩ := State.mem_of_pressJob h
  obtain ⟨hjobs, hfailed⟩ := s.pressEnd_press j j.self cause false
  have hrest := (s.abortNoted_jobsFail j cause).trans (State.abortNoted_pressFail h cause)
  refine ⟨List.find?_eq_none.2 fun x hx => ?_, hrest.failed _ hfailed, fun h5 => (State.abortNoted_pressFail h cause).err 3 ?_⟩
  · have hmem := hrest.jobs x hx
    rw [hjobs, hcmd] at hmem
    have hne := (List.mem_filter.1 hmem).2
    simp_all
  · unfold State.abortNoted
    rw [if_pos h5]
    exact (bitOf_setBit ..).trans (by simp)

theorem State.pressLinkFailed_jobsFail (s : State) (n : Nat) : s.JobsFail (s.pressLinkFailed n) := by
  unfold State.pressLinkFailed
  exact .foldl (fun t (j : PressJob) => t.pressFail_jobsFail j.cmd 2) _ _

/-- An event posted changes no job. -/
theorem State.postEvent_jobsFail (s : State) (e kind source status : Nat) (detail : List Byte) : s.JobsFail (s.postEvent e kind source status detail) := by
  obtain ⟨q, h⟩ := s.postEvent_unrecorded e kind source status detail
  exact .of_unrecorded h

/-! ### A link fails (R476, R493) -/

/-- The port of a link that fails is out of service with the cause, and its clock takes the reference with it where it is that. -/
theorem State.failPort_spec (s : State) (n cause : Nat) : (s.failPort n cause).port n = { (s.port n).emptied with state := 3, failCause := cause } ∧
    (s.failPort n cause).clk.lost = (s.onReference n || s.clk.lost) ∧ ∀ a, NoJobAt s a → (s.failPort n cause).byteAt a = s.byteAt a := by
  have hport : (s.setPort n { (s.port n).emptied with state := 3, failCause := cause }).port n = { (s.port n).emptied with state := 3, failCause := cause } :=
    (s.port_setPort n _ n).trans (if_pos rfl)
  unfold State.failPort
  extract_lets p q s1
  split
  next h => exact ⟨hport, by rw [h]; rfl, fun _ _ => rfl⟩
  next h =>
    have hfail : s1.JobsFail ((s1.postEvent (bits s.grbCtl 10 8) 3 (0x200 + n) cause (leBytes 8 p.farWord)).pressLinkFailed n) :=
      (s1.postEvent_jobsFail ..).trans (State.pressLinkFailed_jobsFail ..)
    have hdown : s1.portUp n = false := by
      rw [State.portUp, hport]
      rfl
    refine ⟨(hfail.down n hdown).trans hport, ?_, fun a ha => hfail.bytes a ha⟩
    rw [hfail.clk, Bool.eq_false_iff.2 h]
    rfl

end Sys2Proof.Machine
end

section
/-! PROOFS. Griby ports: arrivals in order, a port's life, its control lane (15 R465 to R477; 16 R493; 20 R624). -/

namespace Sys2Proof.Machine

open Claims (NoJobAt)

/-! ### Arrivals (R473, R474) -/

theorem live_same {s t : State} (h : t = s) : live s (.next t) = .next s := by
  unfold live
  split
  · rfl
  · rw [h]

/-- What is taken comes on a port in service, and counts as received in order. -/
theorem State.arrive_some {s u : State} {x : Rx} (h : s.arrive x = some u) : s.portUp x.port = true ∧ ∃ seq cr,
    u = s.setPort x.port { s.port x.port with rxSeq := seq, rxNak := false, credited := cr } := by
  unfold State.arrive at h
  extract_lets p d at h
  split at h
  · cases h
  next hno =>
    cases h
    exact ⟨by simp_all, _, _, rfl⟩

theorem State.onArrival_none {s : State} {x : Rx} (h : s.arrive x = none) (f : State → State) : s.onArrival x f = s := by
  rw [State.onArrival, h]

theorem State.onArrival_some {s u : State} {x : Rx} (h : s.arrive x = some u) (f : State → State) : s.onArrival x f = f u := by
  rw [State.onArrival, h]

/-- What is not taken changes nothing. -/
theorem exec_of_notTaken {s : State} {x : Rx} (h : s.arrive x = none) (whey : Bool) (count seq kind hops dst src incarn len tag addr arg port : Nat)
    (body : List Byte) : ∀ c ∈ [Instr.creditItem x whey count, .laneAck x seq, .nakItem x seq, .headerItem x kind hops dst src incarn len tag addr arg,
      .identityItem x src incarn port, .uncorrectableCodeword x, .writeMsg x body, .semMsg x hops dst src incarn tag arg,
      .ackMsg x hops dst src incarn tag arg, .grantMsg x hops dst src incarn tag addr arg, .abortMsg x hops dst src incarn tag addr arg,
      .returnMsg x hops dst src incarn tag addr arg body, .skimMsg x hops dst src incarn tag addr arg body], exec c s = .next s := by
  have hitem (f : State → State) : live s (.next (s.onArrival x f)) = .next s := live_same (State.onArrival_none h f)
  have hctl (op : Nat) (m : Msg) (f : State → State) : live s (.next (s.ctlIn x op m f)) = .next s := live_same (by
    unfold State.ctlIn
    split
    · rfl
    · exact State.onArrival_none h _)
  have hwrite : exec (.writeMsg x body) s = .next s := live_same (by
    split
    · rfl
    · split
      · rfl
      · exact State.onArrival_none h _)
  have hsem : exec (.semMsg x hops dst src incarn tag arg) s = .next s := live_same (by
    split
    · rfl
    · exact State.onArrival_none h _)
  intro c hc
  simp only [List.mem_cons, List.not_mem_nil, or_false] at hc
  obtain rfl | rfl | rfl | rfl | rfl | rfl | rfl | rfl | rfl | rfl | rfl | rfl | rfl := hc
  · exact hitem _
  · exact hitem _
  · exact hitem _
  · exact hitem _
  · exact hitem _
  · exact hitem _
  · exact hwrite
  · exact hsem
  · exact hitem _
  · exact hctl ..
  · exact hctl ..
  · exact hctl ..
  · exact hctl ..

theorem arrivalsAreTakenInOrder : Claims.ArrivalsAreTakenInOrder := by
  refine ⟨fun x s i hup hnak hi hseq => ?_, fun x s h => ?_, fun x s h => exec_of_notTaken h⟩
  · have hd : (x.seq % 256 + 513 - (s.port x.port).rxSeq % 256) % 256 = i := by omega
    unfold State.arrive
    extract_lets p d
    have hdi : d = i := hd
    rw [hdi]
    refine if_neg ?_
    obtain h | h := hnak <;> simp [hup, p, h] <;> omega
  · unfold State.arrive
    extract_lets p d
    refine if_pos ?_
    obtain h | ⟨h, h'⟩ | ⟨i, h1, h2, h3⟩ := h
    · simp [h]
    · simp [p, h, h']
    · have hd : 128 < d := by
        show 128 < (x.seq % 256 + 513 - (s.port x.port).rxSeq % 256) % 256
        omega
      simp [hd]

/-! ### A port's life (R476, R477) -/

/-- A register access reaches port n's registers on a device that answers. -/
theorem State.lost_of_portOn {s : State} {n : Nat} (h : s.portOn n = true) : s.clk.lost = false := by
  simp only [State.portOn, Bool.and_eq_true] at h
  exact State.lost_of_regAlive h.1.1.1

theorem State.tryTrain_of_want {s : State} {n : Nat} (hw : (s.port n).want = true) (hs : (s.port n).state = 0) (hg : s.grbSelfValid = true) :
    s.tryTrain n = s.setPort n { s.port n with state := 1, want := false, failCause := 0 } := if_pos (by simp [hw, hs, hg])

theorem exec_portUpRequest_of_down {s : State} {n value : Nat} (hon : s.portOn n = true) (ht : s.testOn 0 n = false) (hv : value % 2 = 1)
    (hreq : (s.port n).upReq = false) (hst : (s.port n).state = 0) (hself : s.grbSelfValid = true) : exec (.portUpRequest n value) s =
      .next (s.setPort n { s.port n with laneInv := value / 2 ^ 8 % 2 ^ 8, upReq := true, want := false, state := 1, failCause := 0 }) := by
  have hbit : bitOf value 0 = true := by simp [bitOf, hv]
  have hport (p : Port) : (s.setPort n p).port n = p := (s.port_setPort n p n).trans (if_pos rfl)
  have hctl : s.portCtl n value = (s.setPort n { s.port n with laneInv := bits value 15 8, upReq := true, want := true }).tryTrain n := by
    refine (if_neg (by simp [ht])).trans ((if_pos hbit).trans (if_neg ?_))
    exact ne_true_of_eq_false hreq
  have htrain := State.tryTrain_of_want (s := s.setPort n { s.port n with laneInv := bits value 15 8, upReq := true, want := true }) (n := n)
    (by rw [hport]) (by rw [hport]; exact hst) hself
  refine (live_of s _ (State.lost_of_portOn hon)).trans (congrArg _ ((if_pos (by simp [hon, hbit])).trans (hctl.trans (htrain.trans ?_))))
  rw [hport, State.setPort_setPort]
  rfl

theorem State.portDown_of_unreferenced {s : State} {n : Nat} (h : s.onReference n = false) :
    s.portDown n = s.setPort n { (s.port n).emptied with state := 0, want := false } := if_neg (by simp [h])

theorem portDownRequest_spec {s : State} {n value : Nat} (hon : s.portOn n = true) (ht : s.testOn 0 n = false) (hv : value % 2 = 0)
    (hsrc : s.clk.refSrc = true → s.clk.refPort ≠ n) (huse : s.clk.useSrc = true → s.clk.usePort ≠ n) :
    ∃ t, exec (.portDownRequest n value) s = .next t ∧ t = { s with ports := t.ports } ∧ (∀ q, q ≠ n → t.port q = s.port q) ∧ (t.port n).state = 0 ∧
      (t.port n).upReq = false ∧ (t.port n).wheyq = [] ∧ (t.port n).outq = [] ∧ (t.port n).lane = [] ∧ (t.port n).replay = [] ∧ (t.port n).headers = [] := by
  have hbit : bitOf value 0 = false := by simp [bitOf, hv]
  have hsel : (s.clk.refSrc && s.clk.refPort == n) = false := by simpa using hsrc
  have hused : (s.clk.useSrc && s.clk.usePort == n) = false := by simpa using huse
  have href : s.onReference n = false := by
    rw [State.onReference, hused, Bool.and_assoc, hsel]
    simp
  have hport (p : Port) : (s.setPort n p).port n = p := (s.port_setPort n p n).trans (if_pos rfl)
  have hctl : s.portCtl n value = (s.setPort n { s.port n with laneInv := bits value 15 8, upReq := false }).portDown n := by
    refine (if_neg (by simp [ht])).trans ((if_neg (ne_true_of_eq_false hbit)).trans (if_neg ?_))
    rw [hsel, hused]
    decide
  have hdown := State.portDown_of_unreferenced (s := s.setPort n { s.port n with laneInv := bits value 15 8, upReq := false }) (n := n) href
  rw [hport, State.setPort_setPort] at hdown
  refine ⟨_, (live_of s _ (State.lost_of_portOn hon)).trans (congrArg _ ((if_pos (by simp [hon, hbit])).trans (hctl.trans hdown))), rfl,
    fun q hq => (s.port_setPort n _ q).trans (if_neg hq), ?_⟩
  rw [hport]
  exact ⟨rfl, rfl, rfl, rfl, rfl, rfl, rfl⟩

/-- The port as training leaves it: counters from 0, free buffers (R472, R473). -/
def Port.linkedUp (p : Port) (rtt : Nat) : Port :=
  { p.emptied with state := 2, rtt := min rtt 255, far := none, creditBulk := 1024, creditWhey := 2, txSeq := 0, rxSeq := 0, lastAck := 255 }

theorem exec_linkUp {s : State} {n : Nat} (hl : s.clk.lost = false) (hn : n < 24) (hs : (s.port n).state = 1) (rtt : Nat) : exec (.linkUp n rtt) s =
    .next ((s.setPort n ((s.port n).linkedUp rtt)).sendItem n (.identity s.grbSelf s.incarn n)) :=
  (live_of s _ hl).trans (congrArg _ (if_neg (by simp [hs]; omega)))

/-- The port with the identity item in its control lane. -/
def Port.identifying (p : Port) (rtt : Nat) (i : LaneItem) : Port := { p.linkedUp rtt with lane := [(i, 52)] }

/-- The identity item's 52 bits leave on eight idle slots, numbered from 0 (R468, R477). -/
theorem linkUp_sends (s : State) (n rtt : Nat) :
    let i : LaneItem := .identity s.grbSelf s.incarn n
    let u := s.setPort n ((s.port n).identifying rtt i)
    let t := (s.setPort n ((s.port n).linkedUp rtt)).sendItem n i
    (u.portUp n = true → t.port n = ((s.port n).identifying rtt i).idled 7 ∧ t.outbox = s.outbox ++
      (List.range 8).map (fun i => .slot n i false (GSlot.bytes s.free i ⟨false, none, 0, 0⟩)) ++ [.item n i]) ∧
    (u.portUp n = false → t = u) ∧ t.portUp n = u.portUp n := by
  intro i u t
  have hport (p : Port) : (s.setPort n p).port n = p := (s.port_setPort n p n).trans (if_pos rfl)
  have ht : t = pump n 64 u := by
    show State.sendItem _ _ _ = _
    rw [State.sendItem, hport, State.setPort_setPort]
    rfl
  have hseq : ∀ j, j < 8 → nextSeq^[j] 0 = j := by decide
  rw [ht]
  refine ⟨fun hup => ?_, fun hdown => pump_of_down hdown 64, (pump_sentOn n 64 u).portUp n⟩
  have hu : u.port n = (s.port n).identifying rtt i := hport _
  obtain ⟨hp, ho⟩ := pump_idle (n := n) (i := i) rfl 7 (k := 64) (b := 52) hup (by decide) (by rw [hu]; rfl)
    (by rw [hu]; rfl) (by rw [hu]; rfl) (by decide) (by decide) (by rw [hu]; exact Nat.lt_of_lt_of_le (show 0 + 7 < 8 by decide) (by decide))
  refine ⟨hp.trans (by rw [hu]), ho.trans ?_⟩
  rw [hu]
  refine congrArg (fun l => s.outbox ++ l ++ [Out.item n i]) (List.map_congr_left fun j hj => ?_)
  rw [show ((s.port n).identifying rtt i).txSeq = 0 from rfl, hseq j (List.mem_range.1 hj)]
  rfl

theorem linkUp_spec {s : State} {n : Nat} (hl : s.clk.lost = false) (hn : n < 24) (hs : (s.port n).state = 1) (rtt : Nat) :
    ∃ t, exec (.linkUp n rtt) s = .next t ∧ t = { s with ports := t.ports, outbox := t.outbox } ∧
      (∀ q, q ≠ n → t.port q = s.port q) ∧ (t.port n).state = 2 ∧ (t.port n).rtt = min rtt 255 ∧ (t.port n).far = none ∧
      (t.port n).rxSeq = 0 ∧ (t.port n).creditBulk = 1024 ∧ (t.port n).creditWhey = 2 ∧ (t.port n).wheyq = [] ∧ (t.port n).outq = [] ∧
      (t.portUp n = true → (t.port n).lane = [] ∧ (t.port n).txSeq = 8 ∧ (t.port n).replay.map Prod.fst = List.range 8 ∧
        t.outbox = s.outbox ++ (List.range 8).map (fun i => .slot n i false (GSlot.bytes s.free i ⟨false, none, 0, 0⟩))
          ++ [.item n (.identity s.grbSelf s.incarn n)]) := by
  have hsent := (s.setPort n ((s.port n).linkedUp rtt)).sendItem_sentOn n (.identity s.grbSelf s.incarn n)
  obtain ⟨hup, hdown, hsame⟩ := linkUp_sends s n rtt
  refine ⟨_, exec_linkUp hl hn hs rtt, hsent.device, fun q hq => (hsent.others q hq).trans ((s.port_setPort n _ q).trans (if_neg hq)), ?_⟩
  cases h : (s.setPort n ((s.port n).identifying rtt (.identity s.grbSelf s.incarn n))).portUp n with
  | true =>
    obtain ⟨hp, ho⟩ := hup h
    rw [hp]
    refine ⟨rfl, rfl, rfl, rfl, rfl, rfl, rfl, rfl, fun _ => ⟨rfl, ?_, ?_, ho⟩⟩
    · exact (by decide : nextSeq^[8] 0 = 8)
    · exact (by decide : ((List.range 8).map (fun j => (nextSeq^[j] 0, idleSlot))).map Prod.fst = List.range 8)
  | false =>
    rw [hsame, h, hdown h, State.port_setPort, if_pos rfl]
    exact ⟨rfl, rfl, rfl, rfl, rfl, rfl, rfl, rfl, fun hno => absurd hno (by decide)⟩

theorem linkFailure_spec {s : State} {n cause : Nat} (hl : s.clk.lost = false)
    (h : (s.port n).state = 1 ∧ cause = 4 ∨ (s.port n).state = 2 ∧ 1 ≤ cause ∧ cause ≤ 3) :
    ∃ t, exec (.linkFailure n cause) s = .next t ∧ (t.port n).state = 3 ∧ (t.port n).failCause = cause ∧ (t.port n).wheyq = [] ∧ (t.port n).outq = [] ∧
      (t.port n).replay = [] ∧ t.clk.lost = s.onReference n ∧ ∀ a, NoJobAt s a → t.byteAt a = s.byteAt a := by
  obtain ⟨hp, hlost, hbytes⟩ := s.failPort_spec n cause
  refine ⟨s.failPort n cause, (live_of s _ hl).trans (congrArg _ (if_pos h)), ?_⟩
  rw [hp, hlost, hl, Bool.or_false]
  exact ⟨rfl, rfl, rfl, rfl, rfl, rfl, hbytes⟩

/-! ### Reflection (R624) -/

/-- Ports that are taken down: their states, and the reference where one of them is it. -/
theorem foldl_portDown (p : Nat → Bool) (l : List Nat) (s : State) :
    let t := l.foldl (fun s' n => if p n then s'.portDown n else s') s
    t = { s with ports := t.ports, clk := { s.clk with lost := t.clk.lost } } ∧
      (t.clk.lost = true → s.clk.lost = true ∨ ∃ n ∈ l, s.onReference n = true) ∧
      ∀ n, (t.port n).state = if n ∈ l ∧ p n = true then 0 else (s.port n).state := by
  induction l generalizing s with
  | nil => exact ⟨rfl, Or.inl, fun n => by simp⟩
  | cons n l ih =>
    intro t
    have hone : ∀ s1, s1 = (if p n then s.portDown n else s) → s1 = { s with ports := s1.ports, clk := { s.clk with lost := s1.clk.lost } } ∧
        (s1.clk.lost = true → s.clk.lost = true ∨ s.onReference n = true) ∧
        ∀ q, (s1.port q).state = if q = n ∧ p n = true then 0 else (s.port q).state := by
      rintro s1 rfl
      split
      next hp =>
        have hq (q : Nat) : ((s.setPort n { (s.port n).emptied with state := 0, want := false }).port q).state = if q = n ∧ p n = true then 0 else (s.port q).state := by
          rw [State.port_setPort]
          by_cases hq : q = n <;> simp [hq, hp]
        unfold State.portDown
        extract_lets p e s1
        split
        next hr => exact ⟨rfl, fun _ => .inr (by simp_all), hq⟩
        next => exact ⟨rfl, .inl, hq⟩
      next hp => exact ⟨rfl, .inl, fun q => by simp [hp]⟩
    obtain ⟨h1, h2, h3⟩ := hone _ rfl
    obtain ⟨i1, i2, i3⟩ := ih (if p n then s.portDown n else s)
    have ht : t = l.foldl (fun s' n => if p n then s'.portDown n else s') (if p n then s.portDown n else s) := rfl
    rw [← ht] at i1 i2 i3
    generalize (if p n then s.portDown n else s) = s1 at h1 h2 h3 i1 i2 i3
    have href (q : Nat) : s1.onReference q = s.onReference q := by rw [h1]; rfl
    refine ⟨?_, fun hlost => ?_, fun q => ?_⟩
    · rw [h1] at i1
      exact i1
    · obtain h | ⟨q, hq, hr⟩ := i2 hlost
      · exact (h2 h).imp_right fun hr => ⟨n, List.mem_cons_self, hr⟩
      · exact .inr ⟨q, List.mem_cons_of_mem _ hq, (href q).symm.trans hr⟩
    · rw [i3, h3]
      by_cases hq : q = n
      · subst hq
        by_cases hp : p q = true <;> simp [hp]
      · simp [hq]

/-- A bit can be set on a port that is up and not the selected reference. -/
def State.mayReflect (s : State) (n : Nat) : Bool :=
  (s.port n).state == 2 && !(s.clk.refSrc && s.clk.refPort == n) && !(s.clk.useSrc && s.clk.usePort == n)

theorem reflect_spec {s : State} (ha : s.regAlive = true) (value : Nat) : ∃ t, exec (.reflect value) s = .next t ∧
    t = { s with ports := t.ports, reflect := t.reflect, clk := { s.clk with lost := t.clk.lost } } ∧
    (t.clk.lost = true → ∃ n, n < 24 ∧ s.onReference n = true) ∧
    ∀ n, n < 24 → (bitOf t.reflect n = true → bitOf value n = true) ∧ (bitOf s.reflect n = true → bitOf value n = false → (t.port n).state = 0) ∧
      ((s.port n).state = 2 → (s.clk.refSrc = true → s.clk.refPort ≠ n) → (s.clk.useSrc = true → s.clk.usePort ≠ n) → bitOf t.reflect n = bitOf value n) := by
  have hl := State.lost_of_regAlive ha
  obtain ⟨new, hnew⟩ : ∃ new, new = (List.range 24).foldl (fun m n => if bitOf value n && (bitOf s.reflect n || s.mayReflect n) then setBit m n else m) 0 := ⟨_, rfl⟩
  have hbit (n : Nat) (hn : n < 24) : bitOf new n = (bitOf value n && (bitOf s.reflect n || s.mayReflect n)) := by
    rw [hnew, bitOf_foldl_setBit]
    simp [hn, bitOf]
  obtain ⟨h1, h2, h3⟩ := foldl_portDown (fun n => bitOf s.reflect n && !bitOf new n) (List.range 24) { s with reflect := new }
  have hexec : exec (.reflect value) s = .next ((List.range 24).foldl (fun s' n => if bitOf s.reflect n && !bitOf new n then s'.portDown n else s')
      { s with reflect := new }) := by
    rw [hnew]
    exact (live_of s _ hl).trans (congrArg _ (if_neg (by simp [ha])))
  generalize (List.range 24).foldl (fun s' n => if bitOf s.reflect n && !bitOf new n then s'.portDown n else s') { s with reflect := new } = t at hexec h1 h2 h3
  have hr : t.reflect = new := by rw [h1]
  refine ⟨t, hexec, ?_, fun hlost => ?_, fun n hn => ⟨fun hb => ?_, fun hb hv => ?_, fun hst hsrc huse => ?_⟩⟩
  · rw [hr]
    exact h1
  · obtain h | ⟨n, hn, href⟩ := h2 hlost
    · rw [show ({ s with reflect := new } : State).clk.lost = false from hl] at h
      cases h
    · exact ⟨n, List.mem_range.1 hn, href⟩
  · rw [hr, hbit n hn] at hb
    exact (Bool.and_eq_true_iff.1 hb).1
  · refine (h3 n).trans (if_pos ⟨List.mem_range.2 hn, ?_⟩)
    rw [hb, hbit n hn, hv]
    rfl
  · have hmay : s.mayReflect n = true := by
      have hsel : (s.clk.refSrc && s.clk.refPort == n) = false := by simpa using hsrc
      have hused : (s.clk.useSrc && s.clk.usePort == n) = false := by simpa using huse
      rw [State.mayReflect, hst, hsel, hused]
      rfl
    rw [hr, hbit n hn, hmay]
    simp

theorem portsComeAndGo : Claims.PortsComeAndGo :=
  ⟨fun _ _ _ hon ht => ⟨exec_portUpRequest_of_down hon ht, portDownRequest_spec hon ht⟩, fun _ rtt _ hl hn hs => linkUp_spec hl hn hs rtt,
    fun _ _ _ hl h => linkFailure_spec hl h, fun value _ ha => reflect_spec ha value⟩

/-! ### The control lane (R468, R471 to R474, R477) -/

section
variable {x : Rx} {s u : State} (hl : s.clk.lost = false) (hu : s.arrive x = some u)
include hl hu

/-- A credit item is applied once a slot (R474). -/
theorem exec_creditItem {count : Nat} (hc : count < 2048) (whey : Bool) : exec (.creditItem x whey count) s = .next (
    if (u.port x.port).credited then u else (u.setPort x.port (if whey then
      { u.port x.port with creditWhey := (u.port x.port).creditWhey + count, credited := true }
      else { u.port x.port with creditBulk := (u.port x.port).creditBulk + count, credited := true })).pumpPort x.port) := by
  refine (live_of s _ hl).trans (congrArg _ ((State.onArrival_some hu _).trans (if_congr ?_ rfl rfl)))
  simp [Nat.not_le.2 hc]

theorem creditItem_of_fresh {count : Nat} (hc : count < 2048) (whey : Bool) (hcr : (u.port x.port).credited = false)
    (hw : (u.port x.port).wheyq = []) (ho : (u.port x.port).outq = []) (hlane : (u.port x.port).lane = []) : exec (.creditItem x whey count) s = .next (
      u.setPort x.port (if whey then { u.port x.port with creditWhey := (u.port x.port).creditWhey + count, credited := true }
        else { u.port x.port with creditBulk := (u.port x.port).creditBulk + count, credited := true })) := by
  refine (exec_creditItem hl hu hc whey).trans (congrArg _ ((if_neg (ne_true_of_eq_false hcr)).trans (pump_of_empty ?_ ?_ ?_ 64)))
  all_goals
    rw [State.port_setPort, if_pos rfl]
    cases whey <;> assumption

omit hl hu in
/-- The slots of a replay buffer before one, and after it. -/
theorem dropWhile_of_mem {l : List (Nat × GSlot)} {seq : Nat} (h : ∃ e ∈ l, e.1 = seq) : ∃ before e after, l = before ++ e :: after ∧ e.1 = seq ∧
    (∀ y ∈ before, y.1 ≠ seq) ∧ (l.dropWhile (fun e => e.1 != seq)).drop 1 = after := by
  induction l with
  | nil => simp at h
  | cons e t ih =>
    by_cases he : e.1 = seq
    · exact ⟨[], e, t, rfl, he, by simp, by simp [he]⟩
    · obtain ⟨b, f, a, ht, hf, hb, ha⟩ := ih (by simpa [he] using h)
      refine ⟨e :: b, f, a, by rw [ht]; rfl, hf, ?_, ?_⟩
      · simpa [he] using hb
      · rw [List.dropWhile_cons_of_pos (by simpa using he)]
        exact ha

theorem laneAck_spec {seq : Nat} (h : ∃ e ∈ (u.port x.port).replay, e.1 = seq) :
    ∃ t, exec (.laneAck x seq) s = .next t ∧ t = { u with ports := t.ports, outbox := t.outbox } ∧ (∀ q, q ≠ x.port → t.port q = u.port q) ∧
      (t.port x.port).lastAck = seq ∧ ∃ before e after more, (u.port x.port).replay = before ++ e :: after ∧ e.1 = seq ∧ (∀ y ∈ before, y.1 ≠ seq) ∧
        (t.port x.port).replay = after ++ more ∧
        ((u.port x.port).wheyq = [] → (u.port x.port).outq = [] → (u.port x.port).lane = [] → more = []) := by
  obtain ⟨before, e, after, hre, hseq, hbefore, hafter⟩ := dropWhile_of_mem h
  obtain ⟨v, hv⟩ : ∃ v, v = u.setPort x.port { u.port x.port with replay := after, lastAck := seq, replays := 0, replayFrom := none } := ⟨_, rfl⟩
  have hexec : exec (.laneAck x seq) s = .next (pump x.port 64 v) := by
    refine (live_of s _ hl).trans (congrArg _ ((State.onArrival_some hu _).trans ((if_neg ?_).trans ?_)))
    · simpa using h
    · dsimp only
      rw [hafter, hv]
      rfl
  have hport : v.port x.port = { u.port x.port with replay := after, lastAck := seq, replays := 0, replayFrom := none } := by
    rw [hv, State.port_setPort, if_pos rfl]
  have hsent := pump_sentOn x.port 64 v
  obtain ⟨more, hmore⟩ := hsent.port.replay
  refine ⟨_, hexec, ?_, fun q hq => (hsent.others q hq).trans (by rw [hv, State.port_setPort, if_neg hq]), ?_, before, e, after, more, hre, hseq, hbefore, ?_,
    fun hw ho hlane => ?_⟩
  · refine hsent.device.trans ?_
    rw [hv]
    rfl
  · rw [hsent.port.kept, hport]
  · rw [hmore, hport]
  · rw [pump_of_empty (by rw [hport]; exact hw) (by rw [hport]; exact ho) (by rw [hport]; exact hlane)] at hmore
    simpa using hmore

omit hl hu in
/-- Slots sent again join what the device sends. -/
theorem foldl_emit_slots (n : Nat) (l : List (Nat × GSlot)) (s : State) : l.foldl (fun s e => s.emit (.slot n e.1 e.2.whey (e.2.bytes s.free e.1))) s =
    { s with outbox := s.outbox ++ l.map (fun e => .slot n e.1 e.2.whey (e.2.bytes s.free e.1)) } := by
  induction l generalizing s with
  | nil => rw [List.map_nil, List.append_nil]; rfl
  | cons e t ih =>
    rw [List.foldl_cons, ih, State.emit]
    simp

omit hl in
/-- What an arrival that is taken leaves of the device. -/
theorem State.arrive_device : u.press = s.press ∧ u.outbox = s.outbox ∧ u.free = s.free ∧ u.mem = s.mem ∧ u.peers = s.peers ∧ u.onReference = s.onReference ∧
    (∀ q, u.portUp q = s.portUp q) ∧ (∀ q, (u.port q).headers = (s.port q).headers ∧ (u.port q).cnt = (s.port q).cnt ∧ (u.port q).far = (s.port q).far) := by
  obtain ⟨-, seq, cr, rfl⟩ := State.arrive_some hu
  refine ⟨rfl, rfl, rfl, rfl, rfl, rfl,
    State.portUp_setPort (p := { s.port x.port with rxSeq := seq, rxNak := false, credited := cr }) rfl, fun q => ?_⟩
  rw [State.port_setPort]
  split
  next h => rw [h]; exact ⟨rfl, rfl, rfl⟩
  next => exact ⟨rfl, rfl, rfl⟩

theorem nakItem_spec {seq : Nat} (h : ∃ e ∈ (u.port x.port).replay, e.1 = seq) :
    let p := u.port x.port
    let made := if p.replayFrom = some seq then p.replays else 0
    ∃ t, exec (.nakItem x seq) s = .next t ∧ (∀ a, NoJobAt s a → t.byteAt a = s.byteAt a) ∧
      (made < 16 → (t.port x.port).replays = made + 1 ∧ (t.port x.port).replayFrom = some seq ∧ (t.port x.port).replay = p.replay ∧
        t.outbox = s.outbox ++ (p.replay.dropWhile (fun e => e.1 != seq)).map (fun e => .slot x.port e.1 e.2.whey (GSlot.bytes s.free e.1 e.2))) ∧
      (16 ≤ made → (t.port x.port).state = 3 ∧ (t.port x.port).failCause = 1) := by
  intro p made
  obtain ⟨hpress, hout, hfree, hmem, -, -, -, -⟩ := State.arrive_device hu
  have hexec : exec (.nakItem x seq) s = .next (if 16 ≤ made then u.failPort x.port 1
      else (p.replay.dropWhile (fun e => e.1 != seq)).foldl (fun s e => s.emit (.slot x.port e.1 e.2.whey (e.2.bytes s.free e.1)))
        (u.setPort x.port { p.bump 2 1 with replays := made + 1, replayFrom := some seq })) := by
    refine (live_of s _ hl).trans (congrArg _ ((State.onArrival_some hu _).trans (if_neg ?_)))
    simpa using h
  by_cases hm : 16 ≤ made
  · obtain ⟨hport, -, hbytes⟩ := u.failPort_spec x.port 1
    refine ⟨_, hexec.trans (congrArg _ (if_pos hm)), fun a ha => ?_, fun hlt => absurd hm (by omega), fun _ => ?_⟩
    · exact (hbytes a (by rw [NoJobAt, hpress]; exact ha)).trans (State.byteAt_congr hmem a)
    · rw [hport]
      exact ⟨rfl, rfl⟩
  · have hport : (u.setPort x.port { p.bump 2 1 with replays := made + 1, replayFrom := some seq }).port x.port =
        { p.bump 2 1 with replays := made + 1, replayFrom := some seq } := (u.port_setPort ..).trans (if_pos rfl)
    refine ⟨_, hexec.trans (congrArg _ ((if_neg hm).trans (foldl_emit_slots ..))), fun a _ => State.byteAt_congr hmem a, fun _ => ?_, fun hge => absurd hge hm⟩
    refine ⟨(congrArg Port.replays hport :), (congrArg Port.replayFrom hport :), (congrArg Port.replay hport :), ?_⟩
    rw [← hout, ← hfree]
    rfl

/-- The header that an item carries. -/
def headerOf (kind hops dst src incarn len tag addr arg : Nat) : Msg :=
  { kind := kind, hops := hops % 16, dst := dst % 2 ^ 14, src := src % 2 ^ 14, incarn := incarn % 2 ^ 16, tag := tag % 2 ^ 32, addr := addr % 2 ^ 64
    arg := arg % 2 ^ 64, len := len % 2 ^ 32 }

theorem exec_headerItem (kind hops dst src incarn len tag addr arg : Nat) : exec (.headerItem x kind hops dst src incarn len tag addr arg) s = .next (
    if kind ≠ 1 ∧ kind ≠ 2 then u.failPort x.port 3 else u.setPort x.port { u.port x.port with
      headers := (u.port x.port).headers ++ [headerOf kind hops dst src incarn len tag addr arg] }) :=
  (live_of s _ hl).trans (congrArg _ (State.onArrival_some hu _))

theorem headerItem_spec (kind hops dst src incarn len tag addr arg : Nat) : ∃ t, exec (.headerItem x kind hops dst src incarn len tag addr arg) s = .next t ∧
    (∀ a, NoJobAt s a → t.byteAt a = s.byteAt a) ∧
      (kind = 1 ∨ kind = 2 → t = { u with ports := t.ports } ∧ (∀ q, q ≠ x.port → t.port q = u.port q) ∧ ∃ m : Msg,
        (t.port x.port).headers = (s.port x.port).headers ++ [m] ∧ m.kind = kind ∧ m.dst = dst % 2 ^ 14 ∧ m.src = src % 2 ^ 14 ∧
        m.incarn = incarn % 2 ^ 16 ∧ m.tag = tag % 2 ^ 32 ∧ m.addr = addr % 2 ^ 64 ∧ m.arg = arg % 2 ^ 64 ∧ m.len = len % 2 ^ 32) ∧
      (kind ≠ 1 → kind ≠ 2 → (t.port x.port).state = 3 ∧ (t.port x.port).failCause = 3) := by
  obtain ⟨hpress, -, -, hmem, -, -, -, hports⟩ := State.arrive_device hu
  by_cases hk : kind ≠ 1 ∧ kind ≠ 2
  · obtain ⟨hport, -, hbytes⟩ := u.failPort_spec x.port 3
    refine ⟨_, (exec_headerItem hl hu ..).trans (congrArg _ (if_pos hk)), fun a ha => ?_, fun hor => absurd hk (by omega), fun _ _ => ?_⟩
    · exact (hbytes a (by rw [NoJobAt, hpress]; exact ha)).trans (State.byteAt_congr hmem a)
    · rw [hport]
      exact ⟨rfl, rfl⟩
  · refine ⟨_, (exec_headerItem hl hu ..).trans (congrArg _ (if_neg hk)), fun a _ => State.byteAt_congr hmem a,
      fun _ => ⟨rfl, fun q hq => (u.port_setPort ..).trans (if_neg hq), headerOf kind hops dst src incarn len tag addr arg, ?_, rfl, rfl, rfl, rfl, rfl, rfl, rfl, rfl⟩,
      fun h1 h2 => absurd ⟨h1, h2⟩ hk⟩
    rw [State.port_setPort, if_pos rfl, (hports x.port).1]

omit hl hu in
theorem State.peerPorts_congr {s t : State} (hp : t.peers = s.peers) (hu : ∀ n, t.portUp n = s.portUp n) (peer : Nat) : t.peerPorts peer = s.peerPorts peer := by
  simp only [State.peerPorts, hp, hu]

theorem exec_identityItem (self incarn port : Nat) : exec (.identityItem x self incarn port) s = .next ((u.setPort x.port
    { u.port x.port with far := some (self % 2 ^ 14, incarn % 2 ^ 16, port % 32) }).pressGrant (self % 2 ^ 14) 1024) :=
  (live_of s _ hl).trans (congrArg _ (State.onArrival_some hu _))

theorem identityItem_spec (self incarn port : Nat) :
    (∃ t, exec (.identityItem x self incarn port) s = .next t ∧ t = { u with ports := t.ports, outbox := t.outbox } ∧
      (t.port x.port).far = some (self % 2 ^ 14, incarn % 2 ^ 16, port % 32) ∧ ∀ q, q ≠ x.port → (t.port q).far = (s.port q).far) ∧
    (s.peerPorts (self % 2 ^ 14) = [] → exec (.identityItem x self incarn port) s =
      .next (u.setPort x.port { u.port x.port with far := some (self % 2 ^ 14, incarn % 2 ^ 16, port % 32) })) := by
  obtain ⟨-, -, -, -, hpeers, -, hup, hports⟩ := State.arrive_device hu
  obtain ⟨v, hv⟩ : ∃ v, v = u.setPort x.port { u.port x.port with far := some (self % 2 ^ 14, incarn % 2 ^ 16, port % 32) } := ⟨_, rfl⟩
  have hexec := exec_identityItem hl hu self incarn port
  rw [← hv] at hexec ⊢
  have hport (q : Nat) : v.port q = if q = x.port then { u.port x.port with far := some (self % 2 ^ 14, incarn % 2 ^ 16, port % 32) } else u.port q := by
    rw [hv, State.port_setPort]
  have hsent : v.Sends (v.pressGrant (self % 2 ^ 14) 1024) := v.pressCtl_sends ..
  refine ⟨⟨_, hexec, ?_, ?_, fun q hq => ?_⟩, fun hnone => hexec.trans (congrArg _ (State.pressCtl_of_unreachable ?_ ..))⟩
  · refine hsent.device.trans ?_
    rw [hv]
    rfl
  · rw [(hsent.ports x.port).kept, hport, if_pos rfl]
  · rw [(hsent.ports q).kept, hport, if_neg hq]
    exact (hports q).2.2
  · rw [← hnone]
    refine State.peerPorts_congr (by rw [hv]; exact hpeers) (fun n => ?_) _
    rw [hv, ← hup n]
    exact State.portUp_setPort (p := { u.port x.port with far := some (self % 2 ^ 14, incarn % 2 ^ 16, port % 32) }) rfl n

theorem uncorrectableCodeword_spec : ∃ t, exec (.uncorrectableCodeword x) s = .next t ∧
    t = { u with ports := t.ports, outbox := t.outbox } ∧ (∀ q, q ≠ x.port → t.port q = u.port q) ∧ (t.port x.port).rxNak = true ∧
    (t.port x.port).rxSeq = (u.port x.port).rxSeq ∧ Sparse.get 0 (t.port x.port).cnt 3 = min (Sparse.get 0 (s.port x.port).cnt 3 + 1) (2 ^ 64 - 1) ∧
    ((u.port x.port).wheyq = [] → (u.port x.port).outq = [] → (u.port x.port).lane = [] → (u.port x.port).replay.length ≤ 62 →
      .item x.port (.nak (u.port x.port).rxSeq) ∈ t.outbox) := by
  obtain ⟨-, -, -, -, -, -, hup, hports⟩ := State.arrive_device hu
  obtain ⟨p, hp⟩ : ∃ p, p = { (u.port x.port).bump 3 1 with rxNak := true } := ⟨_, rfl⟩
  obtain ⟨v, hv⟩ : ∃ v, v = u.setPort x.port p := ⟨_, rfl⟩
  have hexec : exec (.uncorrectableCodeword x) s = .next (v.sendItem x.port (.nak (u.port x.port).rxSeq)) := by
    rw [hv, hp]
    exact (live_of s _ hl).trans (congrArg _ (State.onArrival_some hu _))
  have hport (q : Nat) : v.port q = if q = x.port then p else u.port q := by rw [hv, State.port_setPort]
  have hsent := v.sendItem_sentOn x.port (.nak (u.port x.port).rxSeq)
  have hkept := hsent.port.kept
  refine ⟨_, hexec, ?_, fun q hq => (hsent.others q hq).trans ((hport q).trans (if_neg hq)), ?_, ?_, ?_, fun hw ho hlane hlen => ?_⟩
  · refine hsent.device.trans ?_
    rw [hv]
    rfl
  · rw [hkept, hport, if_pos rfl, hp]
  · rw [hkept, hport, if_pos rfl, hp]
    rfl
  · rw [hsent.port.counters 3 (by decide), hport, if_pos rfl, hp, ← (hports x.port).2.1]
    exact Sparse.get_set_self ..
  · obtain ⟨w, hw'⟩ : ∃ w, w = v.setPort x.port { p with lane := [(.nak (u.port x.port).rxSeq, 12)] } := ⟨_, rfl⟩
    have hwport : w.port x.port = { p with lane := [(.nak (u.port x.port).rxSeq, 12)] } := by rw [hw', State.port_setPort, if_pos rfl]
    have hwup : w.portUp x.port = true := by
      have hsup := (State.arrive_some hu).1
      rw [← hup] at hsup
      rw [← hsup]
      refine State.portUp_congr ?_ (by rw [hw', hv]; rfl) (by rw [hw', hv]; rfl)
      rw [hwport, hp]
      rfl
    have hsend : v.sendItem x.port (.nak (u.port x.port).rxSeq) = pump x.port 64 w := by
      have hlane' : p.lane = [] := by rw [hp]; exact hlane
      rw [State.sendItem, hport, if_pos rfl, hlane', hw']
      rfl
    obtain ⟨-, hout⟩ := pump_idle (n := x.port) (i := .nak (u.port x.port).rxSeq) rfl 1 (k := 64) (b := 12) hwup (by decide)
      (by rw [hwport, hp]; exact hw) (by rw [hwport, hp]; exact ho) (by rw [hwport]) (by decide) (by decide)
      (by rw [hwport, hp]; exact Nat.lt_of_le_of_lt (Nat.add_le_add_right hlen 1) (by decide))
    rw [hsend, hout]
    simp

end

theorem controlLaneActs : Claims.ControlLaneActs :=
  ⟨fun _ _ whey _ _ hl hu hc => ⟨fun hcr => (exec_creditItem hl hu hc whey).trans (congrArg _ (if_pos hcr)), creditItem_of_fresh hl hu hc whey⟩,
    fun _ _ _ _ hl hu => laneAck_spec hl hu, fun _ _ _ _ hl hu => nakItem_spec hl hu,
    fun _ kind hops dst src incarn len tag addr arg _ _ hl hu => headerItem_spec hl hu kind hops dst src incarn len tag addr arg,
    fun _ self incarn port _ _ hl hu => identityItem_spec hl hu self incarn port, fun _ _ _ hl hu => uncorrectableCodeword_spec hl hu⟩

/-- Settles O49: arrivals, the ports' life and the control lane, each by what a port's slots and items do. -/
theorem portsAndLanes : Obligations.PortsAndLanes := ⟨arrivalsAreTakenInOrder, portsComeAndGo, controlLaneActs⟩

end Sys2Proof.Machine
end

section
/-! PROOFS. WRITE, SEM and ACK messages for this device (15 R469, R480 to R487; 10 R317 to R320). -/

namespace Sys2Proof.Machine

/-! ### What an arrived message leaves of the device (R470 to R474, R480) -/

/-- State t is s after its ports have taken and sent slots: the messages whose bodies they await are the same. -/
structure State.PortsMoved (s t : State) : Prop where
  device : t = { s with ports := t.ports, outbox := t.outbox, free := t.free }
  headers : ∀ q, (t.port q).headers = (s.port q).headers
  up : ∀ q, t.portUp q = s.portUp q

namespace State.PortsMoved

theorem refl (s : State) : s.PortsMoved s := ⟨rfl, fun _ => rfl, fun _ => rfl⟩

theorem trans {s t u : State} (h : s.PortsMoved t) (h' : t.PortsMoved u) : s.PortsMoved u := by
  refine ⟨?_, fun q => (h'.headers q).trans (h.headers q), fun q => (h'.up q).trans (h.up q)⟩
  have ht := h.device
  have hu := h'.device
  rw [ht] at hu
  exact hu

theorem setPort {s : State} {n : Nat} {p : Port} (hh : p.headers = (s.port n).headers) (hs : p.state = (s.port n).state) : s.PortsMoved (s.setPort n p) := by
  refine ⟨rfl, fun q => ?_, State.portUp_setPort (p := p) hs⟩
  rw [State.port_setPort]
  split
  next h => rw [hh, h]
  next => rfl

theorem of_arrive {s u : State} {x : Rx} (h : s.arrive x = some u) : s.PortsMoved u := by
  obtain ⟨-, seq, cr, rfl⟩ := State.arrive_some h
  exact setPort rfl rfl

theorem of_sends {s t : State} (h : s.Sends t) : s.PortsMoved t := by
  refine ⟨?_, fun q => by rw [(h.ports q).kept], h.portUp⟩
  have ht := h.device
  rw [ht]

theorem of_sentOn {n : Nat} {s t : State} (h : s.SentOn n t) : s.PortsMoved t := by
  refine ⟨?_, fun q => ?_, h.portUp⟩
  · have ht := h.device
    rw [ht]
  · by_cases hq : q = n
    · rw [hq, h.port.kept]
    · rw [h.others q hq]

theorem gotSlots (s : State) (n : Nat) (whey : Bool) (slots : Nat) : s.PortsMoved (s.gotSlots n whey slots) :=
  (setPort (p := (s.port n).bump 1 slots) rfl rfl).trans ((of_sentOn (State.sendItem_sentOn _ n _)).trans (of_sentOn (State.sendItem_sentOn _ n _)))

theorem answer (s : State) (m : Msg) (outcome : Nat) : s.PortsMoved (s.answer m outcome) := by
  unfold State.answer
  split
  next t h =>
    have hs := of_sends (State.sendMsg_sends h)
    refine hs.trans ⟨rfl, fun _ => rfl, fun _ => rfl⟩
  next => exact refl s

section
variable {s t : State} (h : s.PortsMoved t)
include h

theorem mem : t.mem = s.mem := by rw [h.device]
theorem mesh : t.mesh = s.mesh := by rw [h.device]
theorem meshId : t.meshId = s.meshId := by rw [h.device]
theorem gsems : t.gsems = s.gsems := by rw [h.device]
theorem gsemNet : t.gsemNet = s.gsemNet := by rw [h.device]
theorem cores : t.cores = s.cores := by rw [h.device]
theorem core (c : Nat) : t.core c = s.core c := congrArg (Sparse.get ({} : Core) · c) h.cores
theorem press : t.press = s.press := by rw [h.device]
theorem remote : t.remote = s.remote := by rw [h.device]
theorem writesOut : t.writesOut = s.writesOut := by rw [h.device]
theorem writesIn : t.writesIn = s.writesIn := by rw [h.device]
theorem remoteId : t.remoteId = s.remoteId := by rw [h.device]
theorem byteAt (a : Nat) : t.byteAt a = s.byteAt a := State.byteAt_congr h.mem a
theorem grbSelf : t.grbSelf = s.grbSelf := by rw [h.device]
theorem grbCtl : t.grbCtl = s.grbCtl := by rw [h.device]
theorem incarn : t.incarn = s.incarn := by rw [h.device]
theorem switching : t.switching = s.switching := by rw [h.device]; rfl
theorem restarting : t.restarting = s.restarting := by rw [h.device]; rfl
theorem fuse : t.fuse = s.fuse := by rw [h.device]
theorem peers : t.peers = s.peers := by rw [h.device]

theorem portFor (flow dst : Nat) : t.portFor flow dst = s.portFor flow dst := by
  rw [State.portFor, State.portFor, State.peerPorts_congr (by rw [h.device]) h.up]

theorem remoteRefusal (m : Msg) : t.remoteRefusal m = s.remoteRefusal m := by
  simp only [State.remoteRefusal, h.incarn, h.grbCtl]

theorem writeRange (a len : Nat) : t.writeRange a len = s.writeRange a len := by
  rw [h.device]
  rfl

end

end State.PortsMoved

/-- State t is s after a message that is not for this device has been sent on or discarded (R480). -/
structure State.MovedOn (s t : State) : Prop where
  device : t = { s with ports := t.ports, outbox := t.outbox, free := t.free, mesh := t.mesh, meshId := t.meshId }
  headers : ∀ q, (t.port q).headers = (s.port q).headers

namespace State.MovedOn

theorem of_portsMoved {s t : State} (h : s.PortsMoved t) : s.MovedOn t := by
  refine ⟨?_, h.headers⟩
  have ht := h.device
  rw [ht]

theorem trans {s t u : State} (h : s.MovedOn t) (h' : t.MovedOn u) : s.MovedOn u := by
  refine ⟨?_, fun q => (h'.headers q).trans (h.headers q)⟩
  have ht := h.device
  have hu := h'.device
  rw [ht] at hu
  exact hu

section
variable {s t : State} (h : s.MovedOn t)
include h

theorem mem : t.mem = s.mem := by rw [h.device]
theorem byteAt (a : Nat) : t.byteAt a = s.byteAt a := State.byteAt_congr h.mem a
theorem gsems : t.gsems = s.gsems := by rw [h.device]
theorem cores : t.cores = s.cores := by rw [h.device]
theorem press : t.press = s.press := by rw [h.device]
theorem writesIn : t.writesIn = s.writesIn := by rw [h.device]

end

end State.MovedOn

/-- A message that leaves over the mesh, with one hop less (R480). -/
theorem State.forward_of_port {s : State} {n out : Nat} {m : Msg} (hc : bitOf s.grbCtl 1 = true) (hh : m.hops ≠ 0)
    (hp : s.portFor (s.flowOf m) m.dst = some out) : (s.forward n m).mesh = s.mesh ++ [(s.meshId, .fwd n out { m with hops := m.hops - 1 })] := by
  have hs1 := State.PortsMoved.setPort (s := s) (n := n) (p := (s.port n).bump 5 1) rfl rfl
  have hport : (if bitOf s.grbCtl 1 && m.hops != 0 then (s.setPort n ((s.port n).bump 5 1)).portFor
      ((s.setPort n ((s.port n).bump 5 1)).flowOf m) m.dst else none) = some out :=
    (if_pos (by simp [hc, hh])).trans ((hs1.portFor _ _).trans hp)
  unfold State.forward
  dsimp only
  rw [hport]
  rfl

theorem State.forward_movedOn (s : State) (n : Nat) (m : Msg) : s.MovedOn (s.forward n m) := by
  have hs1 := State.PortsMoved.setPort (s := s) (n := n) (p := (s.port n).bump 5 1) rfl rfl
  unfold State.forward
  extract_lets s1
  split
  · exact (State.MovedOn.of_portsMoved hs1).trans ⟨rfl, fun _ => rfl⟩
  · split
    · exact .of_portsMoved hs1
    · exact .of_portsMoved (hs1.trans (.answer ..))

theorem State.remoteRefusal_ne_zero {s : State} {m : Msg} (h : m.incarn ≠ s.incarn ∨ bitOf s.grbCtl 0 = false) : s.remoteRefusal m ≠ 0 := by
  unfold State.remoteRefusal
  obtain hi | he := h
  · rw [if_pos hi]
    decide
  · split
    · decide
    · rw [he]
      decide

/-! ### Headers taken (R470) -/

/-- Port n after the message of its next header has been taken. -/
def State.taken (s : State) (n : Nat) (rest : List Msg) : State := s.setPort n { s.port n with headers := rest }

theorem State.headers_of_taken {s t : State} {n : Nat} {rest : List Msg} (h : (s.taken n rest).MovedOn t) : (t.port n).headers = rest := by
  rw [h.headers, State.taken, State.port_setPort, if_pos rfl]

/-! ### WRITE (R482, R486) -/

theorem State.mesh_send (s : State) (ps : List Packet) : (s.send ps).mesh.map Prod.snd = s.mesh.map Prod.snd ++ ps := by
  simp only [State.send, List.map_append, List.map_map, Function.comp_def]
  rw [show (fun p : Packet × Nat => p.1) = Prod.fst from rfl, List.zipIdx_map_fst]

/-- A WRITE that is carried out leaves in writes of at most 128 bytes, its ACK to wait for theirs. -/
theorem State.carryOut_spec (s : State) (m : Msg) : (∀ q, (s.carryOut m).port q = s.port q) ∧ (s.carryOut m).mem = s.mem ∧
    (s.carryOut m).writesIn = s.writesIn ++ [(s.remoteId, { m with body := [] }, ceilDiv m.body.length 128)] ∧
    (s.carryOut m).mesh.map Prod.snd = s.mesh.map Prod.snd ++ (List.range (ceilDiv m.body.length 128)).map (fun i =>
      .write (.message s.remoteId) (m.addr % 2 ^ 63 + 128 * i) ((m.body.drop (128 * i)).take 128) false) :=
  ⟨fun _ => rfl, rfl, rfl, State.mesh_send _ _⟩

/-- The device after the slots of a bulk message have been taken. -/
def State.bulkTaken (s : State) (n : Nat) (rest : List Msg) (body : List Byte) : State := (s.taken n rest).gotSlots n false (ceilDiv body.length 256)

theorem State.taken_bulkTaken (s : State) (n : Nat) (rest : List Msg) (body : List Byte) : (s.taken n rest).PortsMoved (s.bulkTaken n rest body) :=
  .gotSlots ..

/-- A WRITE with its body. -/
def Msg.withBody (h : Msg) (body : List Byte) : Msg := { h with body := markAll (bitOf h.addr 63) body }

/-- A WRITE's fields name a range that may be written (R486). -/
def State.badWrite (s : State) (h : Msg) (len : Nat) : Prop :=
  len = 0 ∨ len % 32 ≠ 0 ∨ 65536 < len ∨ h.addr % 2 ^ 63 % 32 ≠ 0 ∨ 2 ^ 52 ≤ h.addr % 2 ^ 63 ∨ (!s.writeRange (h.addr % 2 ^ 63) len) = true

section
variable {x : Rx} {s u : State} {h : Msg} {rest : List Msg} {body : List Byte} (hl : s.clk.lost = false) (hu : s.arrive x = some u)
  (hh : (s.port x.port).headers = h :: rest) (hk : h.kind = 1) (hn : h.len = body.length)
include hl hu hh hk hn

theorem exec_writeMsg_of_other (hd : h.dst ≠ s.grbSelf) :
    exec (.writeMsg x body) s = .next ((u.bulkTaken x.port rest body).forward x.port (h.withBody body)) := by
  refine (live_of s _ hl).trans (congrArg _ ?_)
  rw [hh]
  refine (if_neg (by simp [hk, hn])).trans ((State.onArrival_some hu _).trans (if_pos ?_))
  rwa [(State.PortsMoved.of_arrive hu).grbSelf]

theorem exec_writeMsg_of_refused (hd : h.dst = s.grbSelf) (hr : s.remoteRefusal (h.withBody body) ≠ 0) :
    exec (.writeMsg x body) s = .next ((u.bulkTaken x.port rest body).answer (h.withBody body) (s.remoteRefusal (h.withBody body))) := by
  have hv := State.PortsMoved.of_arrive hu
  refine (live_of s _ hl).trans (congrArg _ ?_)
  rw [hh]
  refine (if_neg (by simp [hk, hn])).trans ((State.onArrival_some hu _).trans ((if_neg ?_).trans ?_))
  · rw [hv.grbSelf]
    exact not_not.2 hd
  · rw [← hv.remoteRefusal] at hr ⊢
    split
    next h0 => exact absurd h0 hr
    next => rfl

theorem exec_writeMsg_of_admitted (hd : h.dst = s.grbSelf) (hr : s.remoteRefusal (h.withBody body) = 0) (hb : ¬s.badWrite h body.length) :
    exec (.writeMsg x body) s = .next ((u.bulkTaken x.port rest body).carryOut (h.withBody body)) := by
  have hv := State.PortsMoved.of_arrive hu
  refine (live_of s _ hl).trans (congrArg _ ?_)
  rw [hh]
  refine (if_neg (by simp [hk, hn])).trans ((State.onArrival_some hu _).trans ((if_neg ?_).trans ?_))
  · rw [hv.grbSelf]
    exact not_not.2 hd
  · rw [← hv.remoteRefusal] at hr
    split
    next => 
      refine if_neg ?_
      rw [hv.writeRange]
      exact hb
    next h0 => exact absurd hr h0

/-- A WRITE that is refused, or is for another device, starts no write of this one. -/
theorem writeMsg_of_foreign (hf : h.dst ≠ s.grbSelf ∨ h.incarn ≠ s.incarn ∨ bitOf s.grbCtl 0 = false) :
    ∃ t, exec (.writeMsg x body) s = .next t ∧ (t.port x.port).headers = rest ∧ t.writesIn = s.writesIn ∧ (h.dst = s.grbSelf → t.mesh = s.mesh) ∧
      ∀ y, t.byteAt y = s.byteAt y := by
  have hv := State.PortsMoved.of_arrive hu
  have htaken := u.taken_bulkTaken x.port rest body
  by_cases hd : h.dst = s.grbSelf
  · have hr : s.remoteRefusal (h.withBody body) ≠ 0 := State.remoteRefusal_ne_zero (hf.resolve_left (not_not.2 hd))
    have hall := htaken.trans (.answer _ (h.withBody body) (s.remoteRefusal (h.withBody body)))
    refine ⟨_, exec_writeMsg_of_refused hl hu hh hk hn hd hr, State.headers_of_taken (.of_portsMoved hall), hall.writesIn.trans hv.writesIn,
      fun _ => hall.mesh.trans hv.mesh, fun y => (hall.byteAt y).trans (hv.byteAt y)⟩
  · have hall := (State.MovedOn.of_portsMoved htaken).trans ((u.bulkTaken x.port rest body).forward_movedOn x.port (h.withBody body))
    exact ⟨_, exec_writeMsg_of_other hl hu hh hk hn hd, State.headers_of_taken hall, hall.writesIn.trans hv.writesIn, fun hs => absurd hs hd,
      fun y => (hall.byteAt y).trans (hv.byteAt y)⟩

/-- An admitted WRITE leaves for its place in writes of at most 128 bytes. -/
theorem writeMsg_of_admitted (hd : h.dst = s.grbSelf) (hi : h.incarn = s.incarn) (he : bitOf s.grbCtl 0 = true) (hb : ¬s.badWrite h body.length) :
    ∃ t id, exec (.writeMsg x body) s = .next t ∧ (t.port x.port).headers = rest ∧ (∀ y, t.byteAt y = s.byteAt y) ∧
      t.writesIn = s.writesIn ++ [(id, { h with body := [] }, (body.length + 127) / 128)] ∧
      t.mesh.map Prod.snd = s.mesh.map Prod.snd ++ (List.range ((body.length + 127) / 128)).map (fun i =>
        .write (.message id) (h.addr % 2 ^ 63 + 128 * i) (((markAll (bitOf h.addr 63) body).drop (128 * i)).take 128) false) := by
  have hv := State.PortsMoved.of_arrive hu
  have htaken := u.taken_bulkTaken x.port rest body
  have hr : s.remoteRefusal (h.withBody body) = 0 := (if_neg (not_not.2 hi)).trans (if_neg (by simp [he]))
  have hlen : ceilDiv (h.withBody body).body.length 128 = (body.length + 127) / 128 := by simp [ceilDiv, Msg.withBody, markAll]
  obtain ⟨hport, hmem, hin, hmesh⟩ := (u.bulkTaken x.port rest body).carryOut_spec (h.withBody body)
  rw [hlen] at hin hmesh
  rw [htaken.writesIn] at hin
  rw [htaken.mesh] at hmesh
  rw [← hv.writesIn, ← hv.mesh]
  refine ⟨_, _, exec_writeMsg_of_admitted hl hu hh hk hn hd hr hb, ?_, fun y => ?_, hin, hmesh⟩
  · rw [hport]
    exact State.headers_of_taken (.of_portsMoved htaken)
  · exact (State.byteAt_congr hmem y).trans ((htaken.byteAt y).trans (hv.byteAt y))

end

/-! ### SEM (R317 to R320, R480, R483, R518) -/

/-- A SEM message with header fields as they are on the wire. -/
def semMsg (hops dst src incarn tag arg : Nat) : Msg :=
  { kind := 0x10, hops := hops % 16, dst := dst % 2 ^ 14, src := src % 2 ^ 14, incarn := incarn % 2 ^ 16, tag := tag % 2 ^ 32, addr := 0
    arg := arg % 2 ^ 64 }

/-- A SEM message names no semaphore (R317). -/
def semUnnamed (arg : Nat) : Bool :=
  bitOf arg 33 != (bits arg 51 44 == 255) || (decide (159 < bits arg 51 44) && bits arg 51 44 != 255) || (!bitOf arg 33 && decide (256 ≤ bits arg 43 34))

/-- The outcome of a SEM message for this device, refused with e where e is not 0, and its answer (R317, R320, R483). -/
def State.semArrived (s : State) (m : Msg) (e : Nat) : State := match e with
  | 0 =>
    if semUnnamed m.arg then s.answer m 1
    else
      let r := s.applyRemote (bits m.arg 51 44) (bits m.arg 43 34) (signed (bitOf m.arg 32) (m.arg % 2 ^ 32))
      r.1.answer m r.2
  | e => s.answer m e

/-- A refusal, or a message that names no semaphore, moves its answer alone. -/
theorem State.PortsMoved.semArrived (s : State) {m : Msg} {e : Nat} (h : e ≠ 0 ∨ semUnnamed m.arg = true) : s.PortsMoved (s.semArrived m e) := by
  unfold State.semArrived
  split
  next =>
    obtain h | h := h
    · exact absurd rfl h
    · rw [if_pos h]
      exact .answer ..
  next => exact .answer ..

theorem State.applyRemote_gsems (s : State) {core : Nat} (hc : core ≠ 255) (idx : Nat) (amount : Int) : (s.applyRemote core idx amount).1.gsems = s.gsems := by
  unfold State.applyRemote
  rw [if_neg hc]
  split
  · rfl
  · split
    · rfl
    · exact (congrArg State.Data.gsems (s.csemChange core idx amount).waitsMet_data :)

theorem semMsg_core (hops dst src incarn tag arg : Nat) : bits (semMsg hops dst src incarn tag arg).arg 51 44 = arg / 2 ^ 44 % 2 ^ 8 := by
  simp only [bits, semMsg]
  omega

theorem semMsg_idx (hops dst src incarn tag arg : Nat) : bits (semMsg hops dst src incarn tag arg).arg 43 34 = arg / 2 ^ 34 % 2 ^ 10 := by
  simp only [bits, semMsg]
  omega

theorem semMsg_bitOf (hops dst src incarn tag arg : Nat) {i : Nat} (hi : i < 64) : bitOf (semMsg hops dst src incarn tag arg).arg i = bitOf arg i := by
  rw [bitOf_eq_testBit, bitOf_eq_testBit]
  exact (Nat.testBit_mod_two_pow ..).trans (by simp [hi])

theorem semMsg_amount (hops dst src incarn tag arg : Nat) : (semMsg hops dst src incarn tag arg).arg % 2 ^ 32 = arg % 2 ^ 32 := by
  simp only [semMsg]
  omega

theorem semUnnamed_eq (arg : Nat) : semUnnamed (arg % 2 ^ 64) = (bitOf arg 33 != (arg / 2 ^ 44 % 2 ^ 8 == 255) ||
    (decide (159 < arg / 2 ^ 44 % 2 ^ 8) && arg / 2 ^ 44 % 2 ^ 8 != 255) || (!bitOf arg 33 && decide (256 ≤ arg / 2 ^ 34 % 2 ^ 10))) := by
  rw [semUnnamed, show bits (arg % 2 ^ 64) 51 44 = _ from semMsg_core 0 0 0 0 0 arg, show bits (arg % 2 ^ 64) 43 34 = _ from semMsg_idx 0 0 0 0 0 arg,
    show bitOf (arg % 2 ^ 64) 33 = _ from semMsg_bitOf 0 0 0 0 0 arg (by decide)]

theorem semMsg_unnamed {arg : Nat} (hops dst src incarn tag : Nat) (h : bitOf arg 33 = true ∧ arg / 2 ^ 44 % 2 ^ 8 ≠ 255 ∨
    bitOf arg 33 = false ∧ (159 < arg / 2 ^ 44 % 2 ^ 8 ∨ 255 < arg / 2 ^ 34 % 2 ^ 10)) :
    semUnnamed (semMsg hops dst src incarn tag arg).arg = true := by
  refine (semUnnamed_eq arg).trans ?_
  obtain ⟨hg, hc⟩ | ⟨hg, hc⟩ := h
  · rw [hg, beq_false_of_ne hc]
    rfl
  · simp only [hg, Bool.not_false, Bool.true_and, Bool.or_eq_true, decide_eq_true_eq, Bool.and_eq_true, bne_iff_ne, beq_iff_eq, ne_eq, Bool.false_bne]
    omega

theorem semUnnamed_of_global {arg : Nat} (hg : bitOf arg 33 = true) (hc : arg / 2 ^ 44 % 2 ^ 8 = 255) : semUnnamed (arg % 2 ^ 64) = false := by
  rw [semUnnamed_eq, hg, hc]
  simp

theorem semUnnamed_of_core {arg : Nat} (hg : bitOf arg 33 = false) (hc : arg / 2 ^ 44 % 2 ^ 8 < 160) (hi : arg / 2 ^ 34 % 2 ^ 10 < 256) :
    semUnnamed (arg % 2 ^ 64) = false := by
  rw [semUnnamed_eq, hg, decide_eq_false (by omega), decide_eq_false (by omega), beq_false_of_ne (by omega)]
  rfl

section
variable {x : Rx} {s u : State} (hl : s.clk.lost = false) (hu : s.arrive x = some u) (hops dst src incarn tag arg : Nat)
include hl

theorem exec_semMsg_of_stopped (hd : dst % 2 ^ 14 = s.grbSelf) (hs : s.semStopped (arg / 2 ^ 44 % 2 ^ 8) = true) :
    exec (.semMsg x hops dst src incarn tag arg) s = .next s :=
  (live_of s _ hl).trans (congrArg _ (if_pos ⟨hd, (congrArg s.semStopped (semMsg_core hops dst src incarn tag arg)).trans hs⟩))

include hu

theorem exec_semMsg_of_other (hd : dst % 2 ^ 14 ≠ s.grbSelf) : exec (.semMsg x hops dst src incarn tag arg) s =
    .next ((u.gotSlots x.port true 1).forward x.port (semMsg hops dst src incarn tag arg)) := by
  refine (live_of s _ hl).trans (congrArg _ ((if_neg fun h => hd h.1).trans ((State.onArrival_some hu _).trans (if_pos ?_))))
  rwa [(State.PortsMoved.of_arrive hu).grbSelf]

/-- A SEM message for this device that nothing keeps waiting is checked and applied on what the slots left. -/
theorem exec_semMsg_of_own (hd : dst % 2 ^ 14 = s.grbSelf) (hs : s.semStopped (arg / 2 ^ 44 % 2 ^ 8) = false) :
    exec (.semMsg x hops dst src incarn tag arg) s = .next ((u.gotSlots x.port true 1).semArrived (semMsg hops dst src incarn tag arg)
      (s.remoteRefusal (semMsg hops dst src incarn tag arg))) := by
  have hv := State.PortsMoved.of_arrive hu
  have hwait : ¬((semMsg hops dst src incarn tag arg).dst = s.grbSelf ∧ s.semStopped (bits (semMsg hops dst src incarn tag arg).arg 51 44) = true) := by
    rw [semMsg_core, hs]
    simp
  refine (live_of s _ hl).trans (congrArg _ ((if_neg hwait).trans ((State.onArrival_some hu _).trans ((if_neg ?_).trans ?_))))
  · rw [hv.grbSelf]
    exact not_not.2 hd
  · rw [← hv.remoteRefusal]
    rfl

/-- A SEM message that is for another device, not admitted or names no semaphore changes none. -/
theorem semMsg_of_unadmitted (hno : dst % 2 ^ 14 ≠ s.grbSelf ∨ incarn % 2 ^ 16 ≠ s.incarn ∨ bitOf s.grbCtl 0 = false ∨
      (bitOf arg 33 = true ∧ arg / 2 ^ 44 % 2 ^ 8 ≠ 255) ∨
      (bitOf arg 33 = false ∧ (159 < arg / 2 ^ 44 % 2 ^ 8 ∨ 255 < arg / 2 ^ 34 % 2 ^ 10)))
    (hs : dst % 2 ^ 14 = s.grbSelf → s.semStopped (arg / 2 ^ 44 % 2 ^ 8) = false) :
    ∃ t, exec (.semMsg x hops dst src incarn tag arg) s = .next t ∧ t.gsems = s.gsems ∧ t.cores = s.cores ∧ ∀ a, t.byteAt a = s.byteAt a := by
  have hv := (State.PortsMoved.of_arrive hu).trans (.gotSlots u x.port true 1)
  by_cases hd : dst % 2 ^ 14 = s.grbSelf
  · refine ⟨_, exec_semMsg_of_own hl hu hops dst src incarn tag arg hd (hs hd), ?_⟩
    have hall := hv.trans (State.PortsMoved.semArrived (u.gotSlots x.port true 1) (m := semMsg hops dst src incarn tag arg)
      (e := s.remoteRefusal (semMsg hops dst src incarn tag arg)) (by
        obtain h | h | h | h := hno
        · exact absurd hd h
        · exact .inl (State.remoteRefusal_ne_zero (.inl h))
        · exact .inl (State.remoteRefusal_ne_zero (.inr h))
        · exact .inr (semMsg_unnamed _ _ _ _ _ h)))
    exact ⟨hall.gsems, hall.cores, hall.byteAt⟩
  · have hall := (State.MovedOn.of_portsMoved hv).trans
      ((u.gotSlots x.port true 1).forward_movedOn x.port (semMsg hops dst src incarn tag arg))
    exact ⟨_, exec_semMsg_of_other hl hu hops dst src incarn tag arg hd, hall.gsems, hall.cores, hall.byteAt⟩

/-- A SEM message for another device goes on with one hop less. -/
theorem semMsg_of_forwarded {out : Nat} (hd : dst % 2 ^ 14 ≠ s.grbSelf) (hc : bitOf s.grbCtl 1 = true) (hh : hops % 16 ≠ 0)
    (hp : s.portFor (arg / 2 ^ 34 % 2 ^ 10) (dst % 2 ^ 14) = some out) :
    ∃ t m, exec (.semMsg x hops dst src incarn tag arg) s = .next t ∧ t.mesh = s.mesh ++ [(s.meshId, .fwd x.port out m)] ∧ m.kind = 0x10 ∧
      m.hops = hops % 16 - 1 ∧ m.dst = dst % 2 ^ 14 ∧ m.src = src % 2 ^ 14 ∧ m.incarn = incarn % 2 ^ 16 ∧ m.tag = tag % 2 ^ 32 ∧ m.arg = arg % 2 ^ 64 := by
  have hv := (State.PortsMoved.of_arrive hu).trans (.gotSlots u x.port true 1)
  have hflow : (u.gotSlots x.port true 1).flowOf (semMsg hops dst src incarn tag arg) = arg / 2 ^ 34 % 2 ^ 10 :=
    (if_pos rfl).trans (semMsg_idx hops dst src incarn tag arg)
  refine ⟨_, { semMsg hops dst src incarn tag arg with hops := hops % 16 - 1 }, exec_semMsg_of_other hl hu hops dst src incarn tag arg hd, ?_,
    rfl, rfl, rfl, rfl, rfl, rfl, rfl⟩
  rw [← hv.mesh, ← hv.meshId]
  refine State.forward_of_port (by rw [hv.grbCtl, hc]) hh ?_
  rw [hflow, hv.portFor]
  exact hp

section
variable (hd : dst % 2 ^ 14 = s.grbSelf) (hi : incarn % 2 ^ 16 = s.incarn) (he : bitOf s.grbCtl 0 = true) (hsw : s.switching = false)
  (hre : s.restarting = false) (hs : s.semStopped (arg / 2 ^ 44 % 2 ^ 8) = false)
include hd hi he hs

/-- An admitted SEM message is applied and answered with its outcome. -/
theorem exec_semMsg_of_admitted (hname : semUnnamed (arg % 2 ^ 64) = false) :
    let r := (u.gotSlots x.port true 1).applyRemote (arg / 2 ^ 44 % 2 ^ 8) (arg / 2 ^ 34 % 2 ^ 10) (signed (bitOf arg 32) (arg % 2 ^ 32))
    exec (.semMsg x hops dst src incarn tag arg) s = .next (r.1.answer (semMsg hops dst src incarn tag arg) r.2) := by
  have hr : s.remoteRefusal (semMsg hops dst src incarn tag arg) = 0 := (if_neg (not_not.2 hi)).trans (if_neg (by simp [he]))
  have h := exec_semMsg_of_own hl hu hops dst src incarn tag arg hd hs
  rw [hr] at h
  refine h.trans (congrArg _ ((if_neg (ne_true_of_eq_false hname)).trans ?_))
  rw [semMsg_core, semMsg_idx, semMsg_bitOf _ _ _ _ _ _ (by decide), semMsg_amount]

include hsw hre

theorem semMsg_of_global (hg : bitOf arg 33 = true) (hcore : arg / 2 ^ 44 % 2 ^ 8 = 255) (hlt : Sparse.get 0 s.gsems (arg / 2 ^ 34 % 2 ^ 10) < 2 ^ 32)
    (hnet : netOf s.gsemNet (arg / 2 ^ 34 % 2 ^ 10) = none) :
    ∃ t, exec (.semMsg x hops dst src incarn tag arg) s = .next t ∧ (∀ a, t.byteAt a = s.byteAt a) ∧
      Sparse.get 0 t.gsems (arg / 2 ^ 34 % 2 ^ 10) = clipped (bitOf arg 32) (Sparse.get 0 s.gsems (arg / 2 ^ 34 % 2 ^ 10)) (arg % 2 ^ 32) ∧
      ∀ i, i ≠ arg / 2 ^ 34 % 2 ^ 10 → Sparse.get 0 t.gsems i = Sparse.get 0 s.gsems i := by
  have hv := (State.PortsMoved.of_arrive hu).trans (.gotSlots u x.port true 1)
  obtain ⟨v, hv'⟩ : ∃ v, v = u.gotSlots x.port true 1 := ⟨_, rfl⟩
  have hexec := exec_semMsg_of_admitted hl hu hops dst src incarn tag arg hd hi he hs (semUnnamed_of_global hg hcore)
  rw [← hv'] at hv hexec
  have happly : v.applyRemote (arg / 2 ^ 44 % 2 ^ 8) (arg / 2 ^ 34 % 2 ^ 10) (signed (bitOf arg 32) (arg % 2 ^ 32)) =
      ((v.gsemChange (arg / 2 ^ 34 % 2 ^ 10) (signed (bitOf arg 32) (arg % 2 ^ 32))).waitsMet, 0) :=
    (if_neg (by rw [hv.switching, hv.restarting, hsw, hre]; decide)).trans (if_pos hcore)
  rw [happly] at hexec
  obtain ⟨hmem, -, hgsems⟩ := v.gsemChange_waitsMet_spec (arg / 2 ^ 34 % 2 ^ 10) (signed (bitOf arg 32) (arg % 2 ^ 32))
  have hans := State.PortsMoved.answer (v.gsemChange (arg / 2 ^ 34 % 2 ^ 10) (signed (bitOf arg 32) (arg % 2 ^ 32))).waitsMet
    (semMsg hops dst src incarn tag arg) 0
  refine ⟨_, hexec, fun a => ?_, ?_, fun i hne => ?_⟩
  · exact State.byteAt_congr (hans.mem.trans (hmem.trans hv.mem)) a
  · rw [hans.gsems, hgsems, State.get_gsems_gsemChange_signedBy (by rw [hv.gsemNet, hnet]) (by rw [hv.gsems]; exact hlt), hv.gsems]
  · rw [hans.gsems, hgsems, State.get_gsems_gsemChange_ne _ hne, hv.gsems]

theorem semMsg_of_core (hg : bitOf arg 33 = false) (ha : s.fuse.active (arg / 2 ^ 44 % 2 ^ 8) = true) (hc : arg / 2 ^ 44 % 2 ^ 8 < 160)
    (hidx : arg / 2 ^ 34 % 2 ^ 10 < 256) (hlt : Sparse.get 0 (s.core (arg / 2 ^ 44 % 2 ^ 8)).sems (arg / 2 ^ 34 % 2 ^ 10) < 2 ^ 32)
    (hnet : netOf (s.core (arg / 2 ^ 44 % 2 ^ 8)).semNet (arg / 2 ^ 34 % 2 ^ 10) = none) :
    ∃ t, exec (.semMsg x hops dst src incarn tag arg) s = .next t ∧ (∀ a, t.byteAt a = s.byteAt a) ∧ t.gsems = s.gsems ∧
      Sparse.get 0 (t.core (arg / 2 ^ 44 % 2 ^ 8)).sems (arg / 2 ^ 34 % 2 ^ 10) =
        clipped (bitOf arg 32) (Sparse.get 0 (s.core (arg / 2 ^ 44 % 2 ^ 8)).sems (arg / 2 ^ 34 % 2 ^ 10)) (arg % 2 ^ 32) ∧
      ∀ i, i ≠ arg / 2 ^ 34 % 2 ^ 10 →
        Sparse.get 0 (t.core (arg / 2 ^ 44 % 2 ^ 8)).sems i = Sparse.get 0 (s.core (arg / 2 ^ 44 % 2 ^ 8)).sems i := by
  have hv := (State.PortsMoved.of_arrive hu).trans (.gotSlots u x.port true 1)
  obtain ⟨v, hv'⟩ : ∃ v, v = u.gotSlots x.port true 1 := ⟨_, rfl⟩
  have hexec := exec_semMsg_of_admitted hl hu hops dst src incarn tag arg hd hi he hs (semUnnamed_of_core hg hc hidx)
  rw [← hv'] at hv hexec
  obtain ⟨w, hw⟩ : ∃ w, w = v.applyRemote (arg / 2 ^ 44 % 2 ^ 8) (arg / 2 ^ 34 % 2 ^ 10) (signed (bitOf arg 32) (arg % 2 ^ 32)) := ⟨_, rfl⟩
  have hcore := State.core_applyRemote (s := v) (by rw [hv.fuse]; exact ha) hc (by rw [hv.switching, hsw]) (by rw [hv.restarting, hre])
    (arg / 2 ^ 34 % 2 ^ 10) (signed (bitOf arg 32) (arg % 2 ^ 32))
  have hmem := v.applyRemote_mem (arg / 2 ^ 44 % 2 ^ 8) (arg / 2 ^ 34 % 2 ^ 10) (signed (bitOf arg 32) (arg % 2 ^ 32))
  have hgsems := v.applyRemote_gsems (core := arg / 2 ^ 44 % 2 ^ 8) (by omega) (arg / 2 ^ 34 % 2 ^ 10) (signed (bitOf arg 32) (arg % 2 ^ 32))
  rw [← hw] at hexec hcore hmem hgsems
  have hans := State.PortsMoved.answer w.1 (semMsg hops dst src incarn tag arg) w.2
  refine ⟨_, hexec, fun a => State.byteAt_congr (hans.mem.trans (hmem.trans hv.mem)) a, hans.gsems.trans (hgsems.trans hv.gsems), ?_, fun i hne => ?_⟩
  · rw [hans.core, hcore, hv.core, Core.get_sems_semChange_signedBy hnet hlt]
  · rw [hans.core, hcore, hv.core, Core.get_sems_semChange_ne _ hne]

end

end

/-! ### ACK (R320, R486) -/

theorem State.cvWrite_writesOut (s : State) (n : Nat) (x : Snoop) (value : Nat) : (s.cvWrite n x value).writesOut = s.writesOut := by
  simp only [State.cvWrite]
  split
  · split <;> rfl
  · rfl

theorem cvRun_writesOut (n k : Nat) (s : State) : (cvRun n k s).writesOut = s.writesOut := by
  induction k generalizing s with
  | zero => rfl
  | succ k ih =>
    simp only [cvRun]
    split
    · rfl
    · split
      · exact ih _
      · rfl
      · refine (ih _).trans ?_
        split
        · exact State.cvWrite_writesOut ..
        · rfl

theorem State.dropTransfer_writesOut (s : State) (c q id : Nat) : (s.dropTransfer c q id).writesOut = s.writesOut := by
  unfold State.dropTransfer
  extract_lets l s1
  split
  · exact List.foldlRecOn (motive := fun t : State => t.writesOut = s.writesOut) _ _ rfl fun t ht n _ => (cvRun_writesOut ..).trans ht
  · rfl

theorem State.runOutcome_writesOut (s : State) (c o : Nat) : (s.runOutcome c o).writesOut = s.writesOut := by
  show s.noteFirst.writesOut = s.writesOut
  unfold State.noteFirst
  split <;> rfl

theorem State.complete_writesOut (s : State) (id : Nat) (found : List Nat) (detail : List Byte) :
    (s.complete id found detail).writesOut = s.writesOut := (congrArg State.writesOut (s.complete_unrecorded id found detail) :)

/-- The end of a remote operation leaves the WRITEs under way. -/
theorem State.remoteEnd_writesOut (s : State) (op : RemoteOp) (o : Nat) : (s.remoteEnd op o).writesOut = s.writesOut := by
  simp only [State.remoteEnd]
  split
  · exact State.runOutcome_writesOut ..
  · exact (State.runOutcome_writesOut ..).trans (State.dropTransfer_writesOut ..)
  · split
    · exact (State.complete_writesOut ..).trans (State.dropTransfer_writesOut ..)
    · exact State.dropTransfer_writesOut ..
  · exact State.complete_writesOut ..

section
variable {x : Rx} {s u : State} (hl : s.clk.lost = false) (hu : s.arrive x = some u) (hops dst src incarn tag arg : Nat)
  (hd : dst % 2 ^ 14 = s.grbSelf)
include hl hu hd

theorem exec_ackMsg_of_otherIncarnation (hi : incarn % 2 ^ 16 ≠ s.incarn) :
    exec (.ackMsg x hops dst src incarn tag arg) s = .next (u.gotSlots x.port true 1) := by
  have hv := State.PortsMoved.of_arrive hu
  refine (live_of s _ hl).trans (congrArg _ ((State.onArrival_some hu _).trans ((if_neg ?_).trans (if_pos ?_))))
  · rw [hv.grbSelf]
    exact not_not.2 hd
  · rw [hv.incarn]
    exact hi

theorem exec_ackMsg_of_operation {op : RemoteOp} (hi : incarn % 2 ^ 16 = s.incarn)
    (hop : s.remote.find? (fun o => o.id % 2 ^ 32 == tag % 2 ^ 32 && !o.self && (o.peer == src % 2 ^ 14 || arg % 8 == 4)) = some op) :
    exec (.ackMsg x hops dst src incarn tag arg) s = .next ((u.gotSlots x.port true 1).remoteEnd op (arg % 8)) := by
  have hv := State.PortsMoved.of_arrive hu
  have hg := hv.trans (.gotSlots u x.port true 1)
  have harg : arg % 2 ^ 64 % 8 = arg % 8 := by omega
  refine (live_of s _ hl).trans (congrArg _ ((State.onArrival_some hu _).trans ((if_neg ?_).trans ((if_neg ?_).trans ?_))))
  · rw [hv.grbSelf]
    exact not_not.2 hd
  · rw [hv.incarn]
    exact not_not.2 hi
  · dsimp only
    rw [harg, hg.remote, hop]

theorem ackMsg_spec : (incarn % 2 ^ 16 ≠ s.incarn → ∃ t, exec (.ackMsg x hops dst src incarn tag arg) s = .next t ∧ t.remote = s.remote ∧
      t.writesOut = s.writesOut ∧ ∀ a, t.byteAt a = s.byteAt a) ∧
    (∀ op, incarn % 2 ^ 16 = s.incarn → s.remote.find? (fun o => o.id % 2 ^ 32 == tag % 2 ^ 32 && !o.self && (o.peer == src % 2 ^ 14 || arg % 8 == 4)) = some op →
      ∃ t, exec (.ackMsg x hops dst src incarn tag arg) s = .next t ∧ t.remote = s.remote.filter (fun x => x.id != op.id) ∧
        t.writesOut = s.writesOut ∧ ∀ a, t.byteAt a = s.byteAt a) := by
  have hg := (State.PortsMoved.of_arrive hu).trans (.gotSlots u x.port true 1)
  refine ⟨fun hi => ⟨_, exec_ackMsg_of_otherIncarnation hl hu hops dst src incarn tag arg hd hi, hg.remote, hg.writesOut, hg.byteAt⟩,
    fun op hi hop => ⟨_, exec_ackMsg_of_operation hl hu hops dst src incarn tag arg hd hi hop, ?_, ?_, fun a => ?_⟩⟩
  · rw [State.remoteEnd_remote, hg.remote]
  · exact (State.remoteEnd_writesOut ..).trans hg.writesOut
  · exact State.byteAt_congr ((State.remoteEnd_mem ..).trans hg.mem) a

end

/-- Settles O50: a message acts on what its slots left of the ports; a WRITE is refused or leaves for its place, a SEM waits, goes on, is
refused or changes one semaphore, an ACK ends the operation it is matched with. -/
theorem messagesAct : Obligations.MessagesAct := by
  refine ⟨fun x body s u h rest hl hu hh hk hn => ?write, fun x hops dst src incarn tag arg s u hl hu => ?sem,
    fun x hops dst src incarn tag arg s u hl hu hd => ackMsg_spec hl hu hops dst src incarn tag arg hd⟩
  case write =>
    intro a bytes
    refine ⟨writeMsg_of_foreign hl hu hh hk hn, fun hd hi he h1 h2 h3 h4 h5 h6 => writeMsg_of_admitted hl hu hh hk hn hd hi he ?_⟩
    rintro (hb | hb | hb | hb | hb | hb)
    · omega
    · exact hb h2
    · omega
    · exact hb h4
    · exact absurd h5 (by simp only [a]; omega)
    · rw [show s.writeRange (h.addr % 2 ^ 63) body.length = true from h6] at hb
      cases hb
  case sem =>
    intro idx core v after mine
    refine ⟨semMsg_of_unadmitted hl hu hops dst src incarn tag arg, fun out => semMsg_of_forwarded hl hu hops dst src incarn tag arg,
      exec_semMsg_of_stopped hl hops dst src incarn tag arg, ?_, ?_⟩
    · rintro ⟨hd, hi, he, hsw, hre⟩ hs
      exact semMsg_of_global hl hu hops dst src incarn tag arg hd hi he hsw hre hs
    · rintro ⟨hd, hi, he, hsw, hre⟩ hs
      exact semMsg_of_core hl hu hops dst src incarn tag arg hd hi he hsw hre hs

end Sys2Proof.Machine
end

section
/-! PROOFS. Lap messages of the Press (14 R435 to R441). -/

namespace Sys2Proof.Machine

/-! ### Steps that leave the Press's jobs and queues -/

/-- State t is s after a step of a Press engine that neither sends nor changes a job: what its later steps depend on is the same. -/
structure State.PressKept (s t : State) : Prop where
  headers : ∀ q, (t.port q).headers = (s.port q).headers
  reach : ∀ peer, t.peerPorts peer = s.peerPorts peer
  mem : t.mem = s.mem
  mesh : t.mesh = s.mesh
  jobs : t.press.jobs = s.press.jobs
  old : t.press.old = s.press.old
  waiting : t.press.waiting = s.press.waiting
  grants : t.press.grants = s.press.grants

namespace State.PressKept

theorem refl (s : State) : s.PressKept s := ⟨fun _ => rfl, fun _ => rfl, rfl, rfl, rfl, rfl, rfl, rfl⟩

theorem trans {s t u : State} (h : s.PressKept t) (h' : t.PressKept u) : s.PressKept u :=
  ⟨fun q => (h'.headers q).trans (h.headers q), fun p => (h'.reach p).trans (h.reach p), h'.mem.trans h.mem, h'.mesh.trans h.mesh,
    h'.jobs.trans h.jobs, h'.old.trans h.old, h'.waiting.trans h.waiting, h'.grants.trans h.grants⟩

theorem of_portsMoved {s t : State} (h : s.PortsMoved t) : s.PressKept t where
  headers := h.headers
  reach := State.peerPorts_congr (by rw [h.device]) h.up
  mem := h.mem
  mesh := h.mesh
  jobs := congrArg Press.jobs h.press
  old := congrArg Press.old h.press
  waiting := congrArg Press.waiting h.press
  grants := congrArg Press.grants h.press

theorem of_onlyNoted {s t : State} (h : s.OnlyNoted t) : s.PressKept t where
  headers q := (congrArg (fun u : State => (u.port q).headers) h.device :)
  reach peer := (congrArg (fun u : State => u.peerPorts peer) h.device :)
  mem := h.mem
  mesh := (congrArg State.mesh h.device :)
  jobs := (congrArg (fun u : State => u.press.jobs) h.device :)
  old := (congrArg (fun u : State => u.press.old) h.device :)
  waiting := (congrArg (fun u : State => u.press.waiting) h.device :)
  grants := (congrArg (fun u : State => u.press.grants) h.device :)

theorem pressErr (s : State) (b : Nat) : s.PressKept (s.pressErr b) := ⟨fun _ => rfl, fun _ => rfl, rfl, rfl, rfl, rfl, rfl, rfl⟩
theorem pressCount (s : State) (c k : Nat) : s.PressKept (s.pressCount c k) := ⟨fun _ => rfl, fun _ => rfl, rfl, rfl, rfl, rfl, rfl, rfl⟩

theorem pressRead (s : State) (j : PressJob) (b : Nat) : s.PressKept (s.pressRead j b).2.2 := by
  have hnote := of_onlyNoted (s.noteRead_onlyNoted (j.src + b * lineBytes j.srcFmt) (lineBytes j.srcFmt))
  simp only [State.pressRead]
  split
  · exact hnote.trans (.pressErr ..)
  · exact hnote

theorem byteAt {s t : State} (h : s.PressKept t) (a : Nat) : t.byteAt a = s.byteAt a := State.byteAt_congr h.mem a

theorem pressJob {s t : State} (h : s.PressKept t) (cmd : Nat) : t.pressJob cmd = s.pressJob cmd := by rw [State.pressJob, State.pressJob, h.jobs]

end State.PressKept

/-- A job's source values depend on memory and on where and in which format it reads. -/
theorem State.pressRead_values {s t : State} (h : t.mem = s.mem) (j : PressJob) (k b : Nat) :
    (t.pressRead { j with since := k } b).1 = (s.pressRead j b).1 := by
  have hb : t.bytesAt = s.bytesAt := by
    funext a n
    exact congrArg (List.map · (List.range n)) (funext fun i => State.byteAt_congr h (a + i))
  simp only [State.pressRead, hb]

/-! ### A message waits for its receiver's grant (R488) -/

/-- A message that waits for its receiver's grant. -/
def State.awaitingGrant (s : State) (m : Msg) : State :=
  { s with press := { s.press with waiting := s.press.waiting ++ [(m.dst, bits m.addr 52 38, m)] } }

theorem State.portFor_of_reachable {s : State} {peer : Nat} (h : s.peerPorts peer ≠ []) (flow : Nat) : (s.portFor flow peer).isNone = false := by
  unfold State.portFor
  split
  next hnil => exact absurd hnil h
  next => rfl

theorem State.pressPut_of_ungranted {s : State} {cmd : Nat} {j : PressJob} {m : Msg} (hj : s.pressJob cmd = some j) (hr : s.peerPorts m.dst ≠ [])
    (hg : Sparse.get 0 s.press.grants m.dst = 0) : s.pressPut cmd m = s.awaitingGrant m := by
  unfold State.pressPut
  rw [hj, State.portFor_of_reachable hr, if_pos hg]
  rfl

/-! ### A lap message is taken (R435, R437, R446) -/

/-- The job that a lap message is for. -/
def State.lapJob (s : State) (h : Msg) : Option PressJob := s.press.jobs.find? (fun j => !j.armed && j.group == bits h.addr 35 32 && j.tag == h.tag)

/-- A lap message waits for the stack of the source that it needs (R380). -/
def State.lapWaits (s : State) (lap : Nat) (h : Msg) : Bool := h.dst == s.grbSelf && (match s.lapJob h with
  | some j => lap != 3 && s.chunkWaits j (bits h.addr 52 38)
  | none => false)

/-- The body of a lap message, unmarked (R437). -/
def Msg.lapBody (h : Msg) (body : List Byte) : Msg := { h with body := markAll false body }

/-- The device with a lap message's slots taken and its sender granted another (R488). -/
def State.lapTaken (s : State) (n : Nat) (rest : List Msg) (body : List Byte) (src : Nat) : State := (s.bulkTaken n rest body).pressGrant src 1

theorem State.taken_lapTaken (s : State) (n : Nat) (rest : List Msg) (body : List Byte) (src : Nat) :
    (s.taken n rest).PortsMoved (s.lapTaken n rest body src) := (s.taken_bulkTaken n rest body).trans (.of_sends (State.pressCtl_sends ..))

theorem State.pressReturn_moved (s : State) (m : Msg) (block : Nat) : s.PortsMoved (s.pressReturn m block) := by
  unfold State.pressReturn
  exact List.foldlRecOn (motive := s.PortsMoved) _ _ (.refl s) fun t ht i _ => ht.trans (.of_sends (State.pressCtl_sends ..))

/-- A lap message that waits changes nothing. -/
theorem State.pressIn_of_waits {s : State} {x : Rx} {lap : Nat} {h : Msg} {rest : List Msg} (hh : (s.port x.port).headers = h :: rest) (block : Nat)
    (body : List Byte) (f : State → PressJob → Msg → State) (hw : s.lapWaits lap h = true) : s.pressIn x lap block body f = s := by
  unfold State.pressIn
  rw [hh]
  exact if_pos ((congrArg (_ || ·) hw).trans (Bool.or_true _))

section
variable {s u : State} {x : Rx} {lap : Nat} {h : Msg} {rest : List Msg} {body : List Byte} (hu : s.arrive x = some u)
  (hh : (s.port x.port).headers = h :: rest) (hk : h.kind = 2) (hlap : h.addr / 2 ^ 36 % 4 = lap) (hn : h.len = body.length) (block : Nat)
  (f : State → PressJob → Msg → State)
include hu hh hk hlap hn

theorem State.pressIn_of_taken (hw : s.lapWaits lap h = false) : s.pressIn x lap block body f =
    if h.dst ≠ u.grbSelf then (u.bulkTaken x.port rest body).forward x.port (h.lapBody body)
    else if h.incarn ≠ u.incarn then (u.bulkTaken x.port rest body).answer (h.lapBody body) 2
    else match s.lapJob h with
      | some j => match j.mismatch (h.lapBody body) with
        | some e => (u.lapTaken x.port rest body h.src).pressMismatch j (h.lapBody body) e
        | none => f (((u.lapTaken x.port rest body h.src).pressTouch j.cmd).pressCount 3 body.length) j (h.lapBody body)
      | none => if lap = 3 then u.lapTaken x.port rest body h.src
        else ((u.lapTaken x.port rest body h.src).pressCount 6 1).pressReturn (h.lapBody body) block := by
  have hno : ¬((h.kind != 2 || bits h.addr 37 36 != lap || h.len != body.length || s.lapWaits lap h) = true) := by
    rw [hw, hk, show bits h.addr 37 36 = lap from hlap, hn]
    simp
  unfold State.pressIn
  rw [hh]
  exact (if_neg hno).trans (State.onArrival_some hu _)

/-- A lap message for another device, another incarnation or no running job changes no job, and in laps 1 and 2 of a message for this device
is counted where it comes back. -/
theorem State.pressIn_of_strange (hw : s.lapWaits lap h = false) (hno : h.dst ≠ s.grbSelf ∨ h.incarn ≠ s.incarn ∨ s.lapJob h = none) :
    let t := s.pressIn x lap block body f
    (t.port x.port).headers = rest ∧ t.press.jobs = s.press.jobs ∧ (h.dst = s.grbSelf → t.mesh = s.mesh) ∧ (∀ a, t.byteAt a = s.byteAt a) ∧
      (h.dst = s.grbSelf → h.incarn = s.incarn → lap ≠ 3 → Sparse.get 0 t.press.cnt 6 = min (Sparse.get 0 s.press.cnt 6 + 1) (2 ^ 64 - 1)) := by
  intro t
  have ht := State.pressIn_of_taken hu hh hk hlap hn block f hw
  have hv := State.PortsMoved.of_arrive hu
  have hjobs := congrArg Press.jobs hv.press
  rw [hv.grbSelf, hv.incarn] at ht
  by_cases hd : h.dst = s.grbSelf
  · rw [if_neg (not_not.2 hd)] at ht
    by_cases hi : h.incarn = s.incarn
    · have hjob : s.lapJob h = none := (hno.resolve_left (not_not.2 hd)).resolve_left (not_not.2 hi)
      rw [if_neg (not_not.2 hi), hjob] at ht
      have hall := u.taken_lapTaken x.port rest body h.src
      by_cases h3 : lap = 3
      · rw [show t = _ from ht.trans (if_pos h3)]
        exact ⟨State.headers_of_taken (.of_portsMoved hall), (congrArg Press.jobs hall.press).trans hjobs, fun _ => hall.mesh.trans hv.mesh,
          fun a => (hall.byteAt a).trans (hv.byteAt a), fun _ _ hne => absurd h3 hne⟩
      · rw [show t = _ from ht.trans (if_neg h3)]
        have hret := State.pressReturn_moved ((u.lapTaken x.port rest body h.src).pressCount 6 1) (h.lapBody body) block
        have hhead : ((u.lapTaken x.port rest body h.src).port x.port).headers = rest := State.headers_of_taken (.of_portsMoved hall)
        refine ⟨(hret.headers _).trans hhead, ?_, fun _ => hret.mesh.trans (hall.mesh.trans hv.mesh),
          fun a => (hret.byteAt a).trans ((hall.byteAt a).trans (hv.byteAt a)), fun _ _ _ => ?_⟩
        · exact (congrArg Press.jobs hret.press).trans ((congrArg Press.jobs hall.press).trans hjobs)
        · rw [hret.press]
          refine (Sparse.get_set_self ..).trans ?_
          rw [hall.press, ← hv.press]
          rfl
    · rw [if_pos hi] at ht
      have hall := (u.taken_bulkTaken x.port rest body).trans (.answer _ (h.lapBody body) 2)
      rw [show t = _ from ht]
      exact ⟨State.headers_of_taken (.of_portsMoved hall), (congrArg Press.jobs hall.press).trans hjobs, fun _ => hall.mesh.trans hv.mesh,
        fun a => (hall.byteAt a).trans (hv.byteAt a), fun _ he => absurd he hi⟩
  · rw [if_pos hd] at ht
    have hall := (State.MovedOn.of_portsMoved (u.taken_bulkTaken x.port rest body)).trans (State.forward_movedOn _ x.port (h.lapBody body))
    rw [show t = _ from ht]
    exact ⟨State.headers_of_taken hall, (congrArg Press.jobs hall.press).trans hjobs, fun he => absurd he hd,
      fun a => (hall.byteAt a).trans (hv.byteAt a), fun he => absurd he hd⟩

end

/-- The three laps' commands take their messages in one way. -/
theorem exec_lapMessage {s : State} (hl : s.clk.lost = false) (x : Rx) (block : Nat) (body : List Byte) (par : Bool) :
    ∀ e ∈ [((Instr.scaleLapMessage : Rx → Nat → List Byte → Bool → Instr), 1), (.sumLapRecord, 2), (.resultLapRecord, 3)],
      ∃ f, exec (e.1 x block body par) s = .next (s.pressIn x e.2 block body f) := by
  intro e he
  simp only [List.mem_cons, List.not_mem_nil, or_false] at he
  obtain rfl | rfl | rfl := he
  · exact ⟨_, live_of s _ hl⟩
  · exact ⟨_, live_of s _ hl⟩
  · exact ⟨_, live_of s _ hl⟩

theorem State.lapJob_eq_none {s : State} {h : Msg}
    (hno : ∀ j ∈ s.press.jobs, j.armed = true ∨ j.group ≠ h.addr / 2 ^ 32 % 16 ∨ j.tag ≠ h.tag) : s.lapJob h = none := by
  refine List.find?_eq_none.2 fun j hj hp => ?_
  simp only [Bool.and_eq_true, Bool.not_eq_true', beq_iff_eq] at hp
  obtain ⟨⟨harmed, hgroup⟩, htag⟩ := hp
  obtain h' | h' | h' := hno j hj
  · rw [harmed] at h'
    cases h'
  · exact h' hgroup
  · exact h' htag

theorem State.lapJob_mem {s : State} {h : Msg} {j : PressJob} (hj : s.lapJob h = some j) :
    j ∈ s.press.jobs ∧ j.armed = false ∧ j.group = h.addr / 2 ^ 32 % 16 ∧ j.tag = h.tag := by
  have hp := List.find?_some hj
  simp only [Bool.and_eq_true, Bool.not_eq_true', beq_iff_eq] at hp
  exact ⟨List.mem_of_find?_eq_some hj, hp.1.1, hp.1.2, hp.2⟩

theorem State.lapJob_of_only {s : State} {h : Msg} {j : PressJob} (hj : s.press.jobs = [j]) (ha : j.armed = false)
    (hg : h.addr / 2 ^ 32 % 16 = j.group) (ht : h.tag = j.tag) : s.lapJob h = some j := by
  rw [State.lapJob, hj, List.find?_cons_of_pos]
  simp only [Bool.and_eq_true, Bool.not_eq_true', beq_iff_eq]
  exact ⟨⟨ha, hg.symm⟩, ht.symm⟩

/-- A lap message does not wait where no job that it could be for has its chunk's source behind a quiesced stack. -/
theorem State.lapWaits_eq_false {s : State} {lap : Nat} {h : Msg} (hno : h.dst ≠ s.grbSelf ∨ lap = 3 ∨ ∀ j ∈ s.press.jobs, j.armed = true ∨
    j.group ≠ h.addr / 2 ^ 32 % 16 ∨ j.tag ≠ h.tag ∨ s.chunkWaits j (h.addr / 2 ^ 38 % 2 ^ 15) = false) : s.lapWaits lap h = false := by
  unfold State.lapWaits
  obtain hd | h3 | hno := hno
  · rw [beq_false_of_ne hd, Bool.false_and]
  · split
    next => rw [h3]; exact Bool.and_false _
    next => exact Bool.and_false _
  · split
    next j hj =>
      obtain ⟨hmem, ha, hg, ht⟩ := State.lapJob_mem hj
      have hc : s.chunkWaits j (h.addr / 2 ^ 38 % 2 ^ 15) = false := by
        have := hno j hmem
        simp_all
      rw [show s.chunkWaits j (bits h.addr 52 38) = false from hc, Bool.and_false, Bool.and_false]
    next => exact Bool.and_false _

theorem strangeLapMessages : ∀ e ∈ [((Instr.scaleLapMessage : Rx → Nat → List Byte → Bool → Instr), 1), (.sumLapRecord, 2), (.resultLapRecord, 3)],
    ∀ (x : Rx) (block : Nat) (body : List Byte) (par : Bool) (s : State) (h : Msg) (rest : List Msg), s.clk.lost = false → (∃ u, s.arrive x = some u) →
    (s.port x.port).headers = h :: rest → h.kind = 2 → h.addr / 2 ^ 36 % 4 = e.2 → h.len = body.length →
    ((h.dst ≠ s.grbSelf ∨ h.incarn ≠ s.incarn ∨ ∀ j ∈ s.press.jobs, j.armed = true ∨ j.group ≠ h.addr / 2 ^ 32 % 16 ∨ j.tag ≠ h.tag) →
      (h.dst ≠ s.grbSelf ∨ e.2 = 3 ∨ ∀ j ∈ s.press.jobs, j.armed = true ∨ j.group ≠ h.addr / 2 ^ 32 % 16 ∨ j.tag ≠ h.tag ∨
        s.chunkWaits j (h.addr / 2 ^ 38 % 2 ^ 15) = false) →
      ∃ t, exec (e.1 x block body par) s = .next t ∧ (t.port x.port).headers = rest ∧ t.press.jobs = s.press.jobs ∧ (h.dst = s.grbSelf → t.mesh = s.mesh) ∧
        (∀ a, t.byteAt a = s.byteAt a) ∧
        (h.dst = s.grbSelf → h.incarn = s.incarn → e.2 ≠ 3 → Sparse.get 0 t.press.cnt 6 = min (Sparse.get 0 s.press.cnt 6 + 1) (2 ^ 64 - 1))) ∧
    (∀ j, s.press.jobs = [j] → j.armed = false → j.group = h.addr / 2 ^ 32 % 16 → j.tag = h.tag → h.dst = s.grbSelf → e.2 ≠ 3 →
      s.chunkWaits j (h.addr / 2 ^ 38 % 2 ^ 15) = true → exec (e.1 x block body par) s = .next s) := by
  intro e he x block body par s h rest hl ⟨u, hu⟩ hh hk hlap hn
  obtain ⟨f, hexec⟩ := exec_lapMessage hl x block body par e he
  refine ⟨fun hno hw => ⟨_, hexec, ?_⟩, fun j hj ha hg ht hd h3 hc => hexec.trans (congrArg _ ?_)⟩
  · exact State.pressIn_of_strange hu hh hk hlap hn block f (State.lapWaits_eq_false hw) (hno.imp_right (Or.imp_right State.lapJob_eq_none))
  · refine State.pressIn_of_waits hh block body f ?_
    rw [State.lapWaits, State.lapJob_of_only hj ha hg.symm ht.symm, beq_iff_eq.2 hd, Bool.true_and]
    exact Bool.and_eq_true_iff.2 ⟨bne_iff_ne.2 h3, hc⟩

/-! ### A block of a running job (R435, R436) -/

/-- State v is s with the next message of port n taken for its one running job j, which has received in period k. -/
structure State.LapOn (s v : State) (n : Nat) (rest : List Msg) (j : PressJob) (k : Nat) : Prop where
  headers : (v.port n).headers = rest
  reach : ∀ peer, v.peerPorts peer = s.peerPorts peer
  mem : v.mem = s.mem
  jobs : v.press.jobs = [{ j with since := k }]
  old : v.press.old = []
  waiting : v.press.waiting = s.press.waiting
  grants : v.press.grants = s.press.grants

theorem State.LapOn.kept {s v w : State} {n : Nat} {rest : List Msg} {j : PressJob} {k : Nat} (h : s.LapOn v n rest j k) (hk : v.PressKept w) :
    s.LapOn w n rest j k :=
  ⟨(hk.headers n).trans h.headers, fun p => (hk.reach p).trans (h.reach p), hk.mem.trans h.mem, hk.jobs.trans h.jobs, hk.old.trans h.old,
    hk.waiting.trans h.waiting, hk.grants.trans h.grants⟩

theorem State.LapOn.pressJob {s v : State} {n : Nat} {rest : List Msg} {j : PressJob} {k : Nat} (h : s.LapOn v n rest j k) (ha : j.armed = false) :
    v.pressJob j.cmd = some { j with since := k } := by
  rw [State.pressJob, h.jobs, List.find?_cons_of_pos]
  simp [ha]

/-- A job that has received. -/
theorem State.pressTouch_device (w : State) (cmd : Nat) : (∀ q, (w.pressTouch cmd).port q = w.port q) ∧
    (∀ peer, (w.pressTouch cmd).peerPorts peer = w.peerPorts peer) ∧ (w.pressTouch cmd).mem = w.mem ∧ (w.pressTouch cmd).mesh = w.mesh ∧
    (w.pressTouch cmd).press = { w.press with
      jobs := w.press.jobs.map (fun j => if j.cmd = cmd then { j with since := w.periods0 } else j)
      old := w.press.old.map (fun j => if j.cmd = cmd then { j with since := w.periods0 } else j) } :=
  ⟨fun _ => rfl, fun _ => rfl, rfl, rfl, rfl⟩

theorem State.LapOn.of_touched {s w : State} {n : Nat} {rest : List Msg} {j : PressJob} (hhead : (w.port n).headers = rest)
    (hreach : ∀ p, w.peerPorts p = s.peerPorts p) (hmem : w.mem = s.mem) (hpress : w.press = s.press) (hjobs : s.press.jobs = [j])
    (hold : s.press.old = []) : s.LapOn (w.pressTouch j.cmd) n rest j w.periods0 := by
  obtain ⟨tport, treach, tmem, -, tpress⟩ := w.pressTouch_device j.cmd
  rw [hpress] at tpress
  refine ⟨by rw [tport, hhead], fun p => (treach p).trans (hreach p), tmem.trans hmem, ?_, ?_, by rw [tpress], by rw [tpress]⟩
  · rw [tpress, hjobs]
    simp
  · rw [tpress, hold]
    rfl

theorem PressJob.mismatch_eq_none {j : PressJob} {h : Msg} {lap : Nat} (hlap : h.addr / 2 ^ 36 % 4 = lap) (hg : h.addr % 2 ^ 32 = j.gen)
    (hf : lap ≠ 3 → h.arg % 2 ^ 30 + 1 = j.nb ∧ h.arg / 2 ^ 30 % 2 = j.mode ∧ h.arg / 2 ^ 32 % 16 = j.skim) (body : List Byte) :
    j.mismatch (h.lapBody body) = none := by
  refine (if_neg (not_not.2 hg)).trans (if_neg ?_)
  rintro ⟨h3, hbad⟩
  obtain ⟨hnb, hmode, hskim⟩ := hf (hlap ▸ h3)
  obtain hbad | hbad | hbad := hbad
  · exact hbad hnb
  · exact hbad hmode
  · exact hbad hskim

section
variable {s : State} {x : Rx} {lap : Nat} {h : Msg} {rest : List Msg} {j : PressJob} {block size : Nat} {body : List Byte}
  (hL : Claims.LapFor s x lap h rest j block size body)
include hL

/-- The message is taken for its job. -/
theorem lapFor_taken : ∃ v k, s.LapOn v x.port rest j k ∧ ∀ f, s.pressIn x lap block body f = f v j (h.lapBody body) := by
  obtain ⟨-, ⟨u, hu⟩, hh, hk, hlen, hsize, hlap, hd, hi, hjobs, hold, ha, hg, ht, hgen, hf, -, hc, hw, -⟩ := hL
  have hjob : s.lapJob h = some j := State.lapJob_of_only hjobs ha hg ht
  have hwait : s.lapWaits lap h = false := by
    refine State.lapWaits_eq_false ?_
    by_cases h3 : lap = 3
    · exact .inr (.inl h3)
    · refine .inr (.inr fun y hy => ?_)
      rw [hjobs, List.mem_singleton] at hy
      rw [hy, ← hc]
      exact .inr (.inr (.inr (hw h3)))
  have hv := State.PortsMoved.of_arrive hu
  have htaken := u.taken_lapTaken x.port rest body h.src
  have hhead : ((u.lapTaken x.port rest body h.src).port x.port).headers = rest := State.headers_of_taken (.of_portsMoved htaken)
  have hreach : ∀ p, (u.lapTaken x.port rest body h.src).peerPorts p = s.peerPorts p := by
    intro p
    refine State.peerPorts_congr (by rw [htaken.device, ← State.PortsMoved.peers hv]; rfl) (fun q => ?_) p
    exact (htaken.up q).trans ((State.portUp_setPort (p := { u.port x.port with headers := rest }) rfl q).trans (hv.up q))
  have hmem : (u.lapTaken x.port rest body h.src).mem = s.mem := htaken.mem.trans hv.mem
  have hpress : (u.lapTaken x.port rest body h.src).press = s.press := htaken.press.trans hv.press
  refine ⟨_, _, (State.LapOn.of_touched hhead hreach hmem hpress hjobs hold).kept (.pressCount _ 3 body.length), fun f => ?_⟩
  rw [State.pressIn_of_taken hu hh hk hlap (hlen.trans hsize.symm) block f hwait, if_neg (by rw [hv.grbSelf]; exact not_not.2 hd),
    if_neg (by rw [hv.incarn]; exact not_not.2 hi), hjob]
  dsimp only
  rw [PressJob.mismatch_eq_none hlap hgen hf]

/-- The message holds one block of its chunk. -/
theorem parts_of_lapFor (hpos : 0 < size) : j.parts (h.lapBody body) block size = [(block, body)] := by
  obtain ⟨-, -, -, -, hlen, hsize, -, -, -, -, -, -, -, -, -, -, hb, hc, -⟩ := hL
  have hbody : (h.lapBody body).body.map Prod.fst = body := by simp [Msg.lapBody, markAll, Function.comp_def]
  have hone : (h.lapBody body).len / size = 1 := by rw [show (h.lapBody body).len = size from hlen, Nat.div_self hpos]
  have hkeep : (decide (block < j.nb) && j.chunk block == bits (h.lapBody body).addr 52 38) = true := by
    rw [decide_eq_true hb]
    exact beq_iff_eq.2 hc
  rw [PressJob.parts, hone, hbody]
  simp only [List.range_one, List.map_cons, List.map_nil, Nat.mul_zero, Nat.add_zero, List.drop_zero, List.filter_cons, hkeep, if_true, List.filter_nil]
  rw [← hsize, List.take_length]

theorem eachPart_of_lapFor {v : State} {k : Nat} (hv : s.LapOn v x.port rest j k) (hpos : 0 < size) (g : State → PressJob → Nat → List Byte → State) :
    v.eachPart j (j.parts (h.lapBody body) block size) g = g v { j with since := k } block body := by
  obtain ⟨-, -, -, -, -, -, -, -, -, -, -, ha, -⟩ := id hL
  rw [parts_of_lapFor hL hpos, State.eachPart, List.foldl_cons, List.foldl_nil, hv.pressJob ha]

/-- What a member sends on of a block waits for its neighbour's grant. -/
theorem pressSend_of_lapFor {v : State} {y : PressJob} {k : Nat} (hv : s.LapOn v x.port rest y k) (hcmd : y.cmd = j.cmd) (harmed : y.armed = false)
    (hlap : lap ≠ 3) (hg : Sparse.get 0 s.press.grants (j.ring.getD (j.next (j.up (j.chunk block)) j.self) 0) = 0) (k' l : Nat) (bs : List Byte)
    (bad : Bool) :
    ∃ m, v.pressSend { j with since := k' } l block bs bad = v.awaitingGrant m ∧ m.kind = 2 ∧ m.tag = j.tag ∧ m.body = markAll false bs ∧
      ((v.awaitingGrant m).port x.port).headers = rest ∧
      (v.awaitingGrant m).press.waiting = s.press.waiting ++ [(j.ring.getD (j.next (j.up (j.chunk block)) j.self) 0, bits m.addr 52 38, m)] ∧
      ∀ a, (v.awaitingGrant m).byteAt a = s.byteAt a := by
  obtain ⟨-, -, -, -, -, -, -, -, -, -, -, -, -, -, -, -, -, -, -, hr⟩ := id hL
  have hreach := hr.resolve_left fun h => hlap h.1
  refine ⟨_, State.pressPut_of_ungranted (hcmd ▸ hv.pressJob harmed) ?_ ?_, rfl, rfl, rfl, hv.headers, ?_, fun a => State.byteAt_congr hv.mem a⟩
  · rw [hv.reach]
    exact hreach
  · rw [hv.grants]
    exact hg
  · rw [← hv.waiting]
    rfl

end

/-- Lap 1 of a block goes on with the larger code (R435). -/
theorem scaleLap_of_other {x : Rx} {block : Nat} {body : List Byte} {s : State} {h : Msg} {rest : List Msg} {j : PressJob}
    (hL : Claims.LapFor s x 1 h rest j block 1 body) (hself : j.self ≠ j.origin (j.chunk block))
    (hg : Sparse.get 0 s.press.grants (j.ring.getD (j.next (j.up (j.chunk block)) j.self) 0) = 0) :
    ∃ t m fl, exec (.scaleLapMessage x block body false) s = .next t ∧ (t.port x.port).headers = rest ∧
      t.press.waiting = s.press.waiting ++ [(j.ring.getD (j.next (j.up (j.chunk block)) j.self) 0, fl, m)] ∧ m.kind = 2 ∧ m.tag = j.tag ∧
      m.body = markAll false (leBytes 1 (max (body.getD 0 0).toNat (localCode (s.pressRead j block).1))) ∧ ∀ a, t.byteAt a = s.byteAt a := by
  obtain ⟨-, -, -, -, -, -, -, -, -, -, -, ha, -⟩ := id hL
  obtain ⟨v, k, hv, hin⟩ := lapFor_taken hL
  have hread := hv.kept (.pressRead v { j with since := k } block)
  obtain ⟨m, hsend, hkind, htag, hbody, hhead, hwait, hbytes⟩ := pressSend_of_lapFor hL hread rfl ha (by decide) hg k 1
    (leBytes 1 (max (leAt body 0 1) (localCode (v.pressRead { j with since := k } block).1)))
    (bitOf h.addr 63 || (v.pressRead { j with since := k } block).2.1 || false)
  have hcode : leAt body 0 1 = (body.getD 0 0).toNat := by
    cases body <;> simp [leAt, leNat]
  rw [State.pressRead_values hv.mem, hcode] at hbody
  refine ⟨_, m, _, (live_of s _ hL.1).trans (congrArg _ ?_), hhead, hwait, hkind, htag, hbody, hbytes⟩
  rw [hin, eachPart_of_lapFor hL hv (by decide)]
  exact (if_neg hself).trans hsend

/-- A job that is not skimmed has no tree to go on with. -/
theorem skimTry_of_unskimmed {v : State} {y : PressJob} (hj : v.press.jobs = [y]) (ho : v.press.old = []) (hs : y.skims = []) (cmd b : Nat) :
    v.skimTry cmd b = v := by
  unfold State.skimTry
  rw [hj, ho]
  split
  · rfl
  next z hz =>
    have hmem := List.mem_of_find?_eq_some hz
    rw [List.append_nil, List.mem_singleton] at hmem
    rw [hmem, hs]
    rfl

/-- A member's record of lap 2: the received sum with its own converted block added (R40, R435, R436). -/
def lap2Sum (block : Nat) (body : List Byte) (h : Nat) (own : List Num) : PressRec :=
  { block := block, scale := (convert (leAt body 256 1) h own).1, headroom := leAt body 257 1
    words := if (convert (leAt body 256 1) h own).1 = 255 then List.replicate 64 0
      else (recOf block false body).words.zipWith (fun a b => Claims.int32 (a.toInt + b.toInt)) (convert (leAt body 256 1) h own).2.1 }

/-- The job with RANGE noted where its conversion met it (R40). -/
def PressJob.noted (j : PressJob) (range : Bool) : PressJob := if range then { j with range := true } else j

/-- Lap 2 at a member that neither is the owner nor takes part in a tree. -/
theorem State.lap2_of_passing {v : State} {j : PressJob} {block : Nat} (body : List Byte) (poison : Bool) (hmode : j.mode = 0) (hskim : j.skim = 0)
    (hp : j.p ≠ 1) (hself : j.self ≠ j.owner (j.chunk block)) :
    v.lap2 j (some (recOf block poison body)) block 0 poison false =
      ((if (convert (leAt body 256 1) j.h (v.pressRead j block).1).2.2 then (v.pressRead j block).2.2.modJob j.cmd (fun j => { j with range := true })
        else (v.pressRead j block).2.2).pressSend j 2 block ((lap2Sum block body j.h (v.pressRead j block).1).bytes 0)
        (poison || (v.pressRead j block).2.1 || false)).skimTry j.cmd block := by
  have htotal : ((some (recOf block poison body)).isSome && j.self == j.owner (j.chunk block) || j.p == 1) = false := by
    simp [hself, hp]
  have hsample (t : State) (n : Nat) (ws : List W32) (o : Option PressRec) : t.skimOwn j block n ws o = t := if_pos (by simp [PressJob.sampled, hskim])
  unfold State.lap2
  extract_lets y t bad c total own32 sum32 k ws head r noted own sent
  have hown : own = noted := hsample ..
  have hsent : sent = noted.pressSend j 2 block (r.bytes 0) bad := by
    rw [← hown]
    exact if_neg (ne_true_of_eq_false htotal)
  refine (if_neg (by rw [hmode]; decide)).trans ?_
  rw [hsent]
  rfl

/-- Lap 2 of a block goes on with the member's own added (R435, R436). -/
theorem sumLap_of_passing {x : Rx} {block : Nat} {body : List Byte} {s : State} {h : Msg} {rest : List Msg} {j : PressJob}
    (hL : Claims.LapFor s x 2 h rest j block 260 body) (hmode : j.mode = 0) (hskim : j.skim = 0) (hskims : j.skims = []) (hp : j.p ≠ 1)
    (hself : j.self ≠ j.owner (j.chunk block)) (hg : Sparse.get 0 s.press.grants (j.ring.getD (j.next (j.up (j.chunk block)) j.self) 0) = 0) :
    ∃ t m fl, exec (.sumLapRecord x block body false) s = .next t ∧ (t.port x.port).headers = rest ∧
      t.press.waiting = s.press.waiting ++ [(j.ring.getD (j.next (j.up (j.chunk block)) j.self) 0, fl, m)] ∧ m.kind = 2 ∧ m.tag = j.tag ∧
      m.body = markAll false ((lap2Sum block body j.h (s.pressRead j block).1).bytes 0) ∧ ∀ a, t.byteAt a = s.byteAt a := by
  obtain ⟨-, -, -, -, -, -, -, -, -, -, -, ha, -⟩ := id hL
  obtain ⟨v, k, hv, hin⟩ := lapFor_taken hL
  have hread := hv.kept (.pressRead v { j with since := k } block)
  obtain ⟨w, hw⟩ : ∃ w, w = if (convert (leAt body 256 1) j.h (v.pressRead { j with since := k } block).1).2.2 then
      (v.pressRead { j with since := k } block).2.2.modJob j.cmd (fun j => { j with range := true }) else (v.pressRead { j with since := k } block).2.2 := ⟨_, rfl⟩
  have hon : ∃ y, s.LapOn w x.port rest y k ∧ y.cmd = j.cmd ∧ y.armed = false ∧ y.skims = [] := by
    rw [hw]
    split
    · refine ⟨{ j with range := true }, ⟨hread.headers, hread.reach, hread.mem, ?_, ?_, hread.waiting, hread.grants⟩, rfl, ha, hskims⟩
      · show List.map _ (v.pressRead { j with since := k } block).2.2.press.jobs = _
        rw [hread.jobs]
        simp
      · show List.map _ (v.pressRead { j with since := k } block).2.2.press.old = _
        rw [hread.old]
        rfl
    · exact ⟨j, hread, rfl, ha, hskims⟩
  obtain ⟨y, hy, hcmd, harmed, hys⟩ := hon
  obtain ⟨m, hsend, hkind, htag, hbody, hhead, hwait, hbytes⟩ := pressSend_of_lapFor hL hy hcmd harmed (by decide) hg k 2
    ((lap2Sum block body j.h (v.pressRead { j with since := k } block).1).bytes 0) (bitOf h.addr 63 || (v.pressRead { j with since := k } block).2.1 || false)
  rw [State.pressRead_values hv.mem] at hbody
  refine ⟨_, m, _, (live_of s _ hL.1).trans (congrArg _ ?_), hhead, hwait, hkind, htag, hbody, hbytes⟩
  have hsize : ({ j with since := k } : PressJob).recSize = 260 := if_pos hmode
  rw [hin, show j.recSize = 260 from hsize, eachPart_of_lapFor hL hv (by decide)]
  refine (State.lap2_of_passing (j := { j with since := k }) body (bitOf h.addr 63) hmode hskim hp hself).trans ?_
  rw [show (if (convert (leAt body 256 1) ({ j with since := k } : PressJob).h (v.pressRead { j with since := k } block).1).2.2 then _ else _) = w from hw.symm,
    hsend]
  exact skimTry_of_unskimmed (v := w.awaitingGrant m) hy.jobs hy.old hys _ _

/-! ### Lap 3 (R438, R440) -/

/-- A message of a job to a reachable peer leaves or waits; what is on the mesh and in memory stays. -/
theorem State.pressPut_of_reachable {s : State} {cmd : Nat} {j : PressJob} {m : Msg} (hj : s.pressJob cmd = some j) (hr : s.peerPorts m.dst ≠ []) :
    (∀ q, ((s.pressPut cmd m).port q).headers = (s.port q).headers) ∧ (s.pressPut cmd m).mem = s.mem ∧ (s.pressPut cmd m).mesh = s.mesh := by
  by_cases hg : Sparse.get 0 s.press.grants m.dst = 0
  · rw [State.pressPut_of_ungranted hj hr hg]
    exact ⟨fun _ => rfl, rfl, rfl⟩
  · have hput : s.pressPut cmd m = ((s.pressLeave m).getD s).pressTouch cmd := by
      unfold State.pressPut
      rw [hj, State.portFor_of_reachable hr, if_neg hg]
      rfl
    obtain ⟨tport, -, tmem, tmesh, -⟩ := ((s.pressLeave m).getD s).pressTouch_device cmd
    rw [hput, tmem, tmesh]
    simp only [tport]
    unfold State.pressLeave
    cases hsend : s.sendMsg (bits m.addr 52 38) m with
    | none => exact ⟨fun _ => rfl, rfl, rfl⟩
    | some t =>
      have hmoved := State.PortsMoved.of_sends (State.sendMsg_sends hsend)
      exact ⟨hmoved.headers, hmoved.mem, hmoved.mesh⟩

/-- A total of a running job is written to its place, and goes on where another member is to have it. -/
theorem State.lap3_spec {v : State} {j y : PressJob} {r : PressRec} (hj : v.pressJob j.cmd = some y)
    (hr : j.self = j.next (!j.up (j.chunk r.block)) (j.owner (j.chunk r.block)) ∨
      v.peerPorts (j.ring.getD (j.next (j.up (j.chunk r.block)) j.self) 0) ≠ []) :
    (∀ q, ((v.lap3 j r).port q).headers = (v.port q).headers) ∧ (v.lap3 j r).mem = v.mem ∧ (v.meshId, Packet.write (.press j.cmd)
      (j.dst + r.block * lineBytes j.dstFmt) (markAll r.poison (packElems j.dstFmt (j.resultElems r))) false) ∈ (v.lap3 j r).mesh := by
  obtain ⟨w, hw⟩ : ∃ w, w = v.pressResult j r := ⟨_, rfl⟩
  have hwrite : (v.meshId, Packet.write (.press j.cmd) (j.dst + r.block * lineBytes j.dstFmt)
      (markAll r.poison (packElems j.dstFmt (j.resultElems r))) false) ∈ w.mesh := by
    rw [hw]
    exact List.mem_append_right _ List.mem_cons_self
  have hport : (∀ q, w.port q = v.port q) ∧ w.mem = v.mem ∧ ∀ p, w.peerPorts p = v.peerPorts p := by
    rw [hw]
    exact ⟨fun _ => rfl, rfl, fun _ => rfl⟩
  have hjob : ∃ z, w.pressJob j.cmd = some z := by
    obtain ⟨hmem, hcmd, harmed⟩ := State.mem_of_pressJob hj
    rw [← Option.isSome_iff_exists, State.pressJob, List.find?_isSome, hw]
    exact ⟨_, List.mem_map.2 ⟨y, hmem, rfl⟩, by simp [hcmd, harmed]⟩
  obtain ⟨hports, hmem, hreach⟩ := hport
  obtain ⟨z, hz⟩ := hjob
  have hlap : v.lap3 j r = if j.self = j.next (!j.up (j.chunk r.block)) (j.owner (j.chunk r.block)) then w
      else w.pressSend j 3 r.block (r.bytes j.mode) r.poison := by
    unfold State.lap3
    rw [hj, hw]
    rfl
  rw [hlap]
  split
  next => exact ⟨fun q => by rw [hports], hmem, hwrite⟩
  next hself =>
    obtain ⟨phead, pmem, pmesh⟩ := State.pressPut_of_reachable (m := w.msgTo (j.ring.getD (j.next (j.up (j.chunk r.block)) j.self) 0) 2 j.tag
      (j.addr 3 (j.chunk r.block) + if r.poison then 2 ^ 63 else 0) 0 (markAll false (r.bytes j.mode))) hz (by rw [hreach]; exact hr.resolve_left hself)
    have hsend : w.pressSend j 3 r.block (r.bytes j.mode) r.poison = w.pressPut j.cmd (w.msgTo (j.ring.getD (j.next (j.up (j.chunk r.block)) j.self) 0) 2 j.tag
      (j.addr 3 (j.chunk r.block) + if r.poison then 2 ^ 63 else 0) 0 (markAll false (r.bytes j.mode))) := rfl
    rw [hsend, pmem, pmesh]
    exact ⟨fun q => by rw [phead, hports], hmem, hwrite⟩

/-- Lap 3 of a block is written to its place in the destination. -/
theorem resultLap_spec {x : Rx} {block : Nat} {body : List Byte} (par : Bool) {s : State} {h : Msg} {rest : List Msg} {j : PressJob}
    (hL : Claims.LapFor s x 3 h rest j block j.recSize body) :
    ∃ t id, exec (.resultLapRecord x block body par) s = .next t ∧ (t.port x.port).headers = rest ∧ (∀ a, t.byteAt a = s.byteAt a) ∧
      (id, Packet.write (.press j.cmd) (j.dst + block * lineBytes j.dstFmt) (markAll (bitOf h.addr 63 || par)
        (packElems j.dstFmt (j.resultElems (recOf block (bitOf h.addr 63 || par) body)))) false) ∈ t.mesh := by
  obtain ⟨-, -, -, -, -, -, -, -, -, -, -, ha, -, -, -, -, -, -, -, hr⟩ := id hL
  obtain ⟨v, k, hv, hin⟩ := lapFor_taken hL
  have hpos : 0 < j.recSize := by
    unfold PressJob.recSize
    split <;> decide
  obtain ⟨w, hw, hwv⟩ : ∃ w, v.PressKept w ∧ w = if par then v.pressErr 0 else v := by
    refine ⟨_, ?_, rfl⟩
    split
    · exact .pressErr ..
    · exact .refl v
  have hon := hv.kept hw
  obtain ⟨hhead, hmem, hwrite⟩ := State.lap3_spec (v := w) (j := { j with since := k }) (r := recOf block (bitOf h.addr 63 || par) body) (hon.pressJob ha)
    (hr.imp (fun h => h.2) fun hne => by rw [hon.reach]; exact hne)
  refine ⟨_, w.meshId, (live_of s _ hL.1).trans (congrArg _ ?_), (hhead _).trans hon.headers, fun a => State.byteAt_congr (hmem.trans hon.mem) a, hwrite⟩
  rw [hin, eachPart_of_lapFor hL hv hpos, hwv]
  rfl

/-- Settles O51: a message that waits or is no running job's changes no job; one for the running job goes on or is written, with the state that
its slots, its grant and the source's read left. -/
theorem lapMessagesAct : Obligations.LapMessagesAct := by
  refine ⟨strangeLapMessages, fun x block body s h rest j hL => ?scale, fun x block body s h rest j hL => ?sum,
    fun x block body par s h rest j hL => resultLap_spec par hL⟩
  case scale =>
    intro c peer hself hg
    exact scaleLap_of_other hL hself hg
  case sum =>
    intro c peer k sum hmode hskim hskims hp hself hg
    exact sumLap_of_passing hL hmode hskim hskims hp hself hg

end Sys2Proof.Machine
end

section
/-! PROOFS. Control messages of Press jobs (14 R437, R443, R447; 15 R488). -/

namespace Sys2Proof.Machine

open Claims (NoJobAt)

/-! ### A control message is taken (R469, R470) -/

theorem State.ctlIn_of_own {s : State} {x : Rx} {op : Nat} {m : Msg} (hu : ∃ u, s.arrive x = some u) (hop : m.arg % 16 = op) (hd : m.dst = s.grbSelf)
    (hi : m.incarn = s.incarn) : ∃ v, s.PortsMoved v ∧ ∀ f, s.ctlIn x op m f = f v := by
  obtain ⟨u, hu⟩ := hu
  have hv := State.PortsMoved.of_arrive hu
  refine ⟨_, hv.trans (.gotSlots u x.port true (if m.body.length ≤ 224 then 1 else 2)), fun f => ?_⟩
  unfold State.ctlIn
  rw [if_neg (by simp [hop]), State.onArrival_some hu]
  refine (if_neg ?_).trans (if_neg ?_)
  · rw [hv.grbSelf]
    exact not_not.2 hd
  · rw [hv.incarn]
    exact not_not.2 hi

section
variable (hops dst src incarn tag addr arg : Nat) (body : List Byte)

theorem ctlMsg_op : (ctlMsg hops dst src incarn tag addr arg body).arg % 16 = arg % 16 := by
  simp only [ctlMsg]
  omega

theorem ctlMsg_gen : (ctlMsg hops dst src incarn tag addr arg body).addr % 2 ^ 32 = addr % 2 ^ 32 := by
  simp only [ctlMsg]
  omega

theorem ctlMsg_group : bits (ctlMsg hops dst src incarn tag addr arg body).addr 35 32 = addr / 2 ^ 32 % 16 := by
  simp only [bits, ctlMsg]
  omega

theorem ctlMsg_chunk : bits (ctlMsg hops dst src incarn tag addr arg body).addr 52 38 = addr / 2 ^ 38 % 2 ^ 15 := by
  simp only [bits, ctlMsg]
  omega

theorem ctlMsg_count : bits (ctlMsg hops dst src incarn tag addr arg body).arg 35 4 = arg / 2 ^ 4 % 2 ^ 32 := by
  simp only [bits, ctlMsg]
  omega

theorem ctlMsg_position : bits (ctlMsg hops dst src incarn tag addr arg body).arg 19 4 = arg / 2 ^ 4 % 2 ^ 16 := by
  simp only [bits, ctlMsg]
  omega

theorem ctlMsg_block : bits (ctlMsg hops dst src incarn tag addr arg body).arg 33 4 = arg / 2 ^ 4 % 2 ^ 30 := by
  simp only [bits, ctlMsg]
  omega

end

section
variable {s : State} {x : Rx} {dst incarn : Nat} (hA : Claims.Arrives s x dst incarn)
include hA

theorem ctlIn_of_arrives {op arg : Nat} (hop : arg % 16 = op) (hops src tag addr : Nat) (body : List Byte) :
    ∃ v, s.PortsMoved v ∧ ∀ f, live s (.next (s.ctlIn x op (ctlMsg hops dst src incarn tag addr arg body) f)) = .next (f v) := by
  obtain ⟨hl, hu, hd, hi⟩ := hA
  obtain ⟨v, hv, hf⟩ := State.ctlIn_of_own (m := ctlMsg hops dst src incarn tag addr arg body) hu ((ctlMsg_op ..).trans hop) hd hi
  exact ⟨v, hv, fun f => (live_of s _ hl).trans (congrArg _ (hf f))⟩

/-! ### Grants (R488) -/

/-- Grants add up where no message waits for one. -/
theorem grantMsg_of_idle {arg : Nat} (hops src tag addr : Nat) (hop : arg % 16 = 1) (hw : s.press.waiting = []) :
    ∃ t, exec (.grantMsg x hops dst src incarn tag addr arg) s = .next t ∧ t.press.jobs = s.press.jobs ∧ (∀ a, t.byteAt a = s.byteAt a) ∧
      ∀ p, Sparse.get 0 t.press.grants p = Sparse.get 0 s.press.grants p + if p = src % 2 ^ 14 then arg / 2 ^ 4 % 2 ^ 32 else 0 := by
  obtain ⟨v, hv, hf⟩ := ctlIn_of_arrives hA hop hops src tag addr []
  have hdrain (t : State) (peer : Nat) : pressDrain peer v.press.waiting.length t = t := by
    rw [hv.press, hw]
    rfl
  refine ⟨_, (hf _).trans (congrArg _ (hdrain _ _)), (congrArg Press.jobs hv.press :), hv.byteAt, fun p => ?_⟩
  refine (Sparse.get_set ..).trans ?_
  rw [hv.press, ctlMsg_count, show (ctlMsg hops dst src incarn tag addr arg []).src = src % 2 ^ 14 from rfl]
  split
  next h => rw [h]
  next => rw [Nat.add_zero]

end

/-! ### Aborts (R447, R448) -/

theorem State.pressEnd_keeps (s : State) (j : PressJob) (pos cause : Nat) (heard : Bool) :
    (∀ g, (s.group g).failed = true → ((s.pressEnd j pos cause heard).group g).failed = true) ∧
      ∀ a, a < j.dst ∨ j.dst + j.nb * lineBytes j.dstFmt ≤ a → (s.pressEnd j pos cause heard).byteAt a = s.byteAt a := by
  obtain ⟨-, hgroups, -⟩ := s.jobOver_press j
  have hpress : (s.pressEnd j pos cause heard).press = (((s.jobOver j).pressErr 2).pressCount 1 1).press :=
    (congrArg State.press (State.complete_unrecorded ..) :)
  have hmem : (s.pressEnd j pos cause heard).mem = (s.pressUndefined j).mem := (congrArg State.mem (State.complete_unrecorded ..) :)
  refine ⟨fun g hg => ?_, fun a ha => (State.byteAt_congr hmem a).trans (State.byteAt_pressUndefined_of_outside ha)⟩
  rw [State.group, show (s.pressEnd j pos cause heard).press.groups = _ from (congrArg Press.groups hpress).trans hgroups, Sparse.get_set]
  split
  · rfl
  · exact hg

/-- Jobs that end one after the other. -/
theorem foldl_pressEnd_spec (pos cause : Nat) (heard : Bool) (l : List PressJob) (s : State) :
    let t := l.foldl (fun s j => s.pressEnd j pos cause heard) s
    (∀ y ∈ t.press.jobs, y ∈ s.press.jobs ∧ ∀ j ∈ l, y.cmd ≠ j.cmd) ∧ (∀ g, (s.group g).failed = true → (t.group g).failed = true) ∧
      ∀ a, (∀ j ∈ l, a < j.dst ∨ j.dst + j.nb * lineBytes j.dstFmt ≤ a) → t.byteAt a = s.byteAt a := by
  induction l generalizing s with
  | nil => exact ⟨fun y hy => ⟨hy, by simp⟩, fun _ hg => hg, fun _ _ => rfl⟩
  | cons j l ih =>
    obtain ⟨hjobs, -⟩ := s.pressEnd_press j pos cause heard
    obtain ⟨hgroup, hbyte⟩ := s.pressEnd_keeps j pos cause heard
    obtain ⟨ijobs, igroup, ibyte⟩ := ih (s.pressEnd j pos cause heard)
    refine ⟨fun y hy => ?_, fun g hg => igroup g (hgroup g hg), fun a ha => ?_⟩
    · obtain ⟨hmem, hne⟩ := ijobs y hy
      rw [hjobs, List.mem_filter, bne_iff_ne] at hmem
      refine ⟨hmem.1, fun z hz => ?_⟩
      obtain rfl | hz := List.mem_cons.1 hz
      · exact hmem.2
      · exact hne z hz
    · exact (ibyte a fun z hz => ha z (List.mem_cons_of_mem _ hz)).trans (hbyte a (ha j List.mem_cons_self))

/-- The state with the group of an abort failed and the abort noted. -/
def State.groupAborted (s : State) (m : Msg) : State :=
  { s with press := { s.press with
    aborts := (bits m.addr 35 32, m.addr % 2 ^ 32, m.tag, bits m.arg 19 4) :: s.press.aborts
    groups := Sparse.set {} s.press.groups (bits m.addr 35 32) { s.group (bits m.addr 35 32) with failed := true } } }

/-- The state after the group's jobs have ended too. -/
def State.jobsAborted (s : State) (m : Msg) : State :=
  ((s.groupAborted m).press.jobs.filter (fun j => j.group == bits m.addr 35 32)).foldl
    (fun s j => s.pressEnd j (bits m.arg 19 4) (bits m.arg 23 20) true) (s.groupAborted m)

theorem State.jobsAborted_spec (s : State) (m : Msg) : ((s.jobsAborted m).group (bits m.addr 35 32)).failed = true ∧
    (∀ j ∈ (s.jobsAborted m).press.jobs, j.group ≠ bits m.addr 35 32) ∧ ∀ a, NoJobAt s a → (s.jobsAborted m).byteAt a = s.byteAt a := by
  obtain ⟨hjobs, hfailed, hbytes⟩ := foldl_pressEnd_spec (bits m.arg 19 4) (bits m.arg 23 20) true
    ((s.groupAborted m).press.jobs.filter (fun j => j.group == bits m.addr 35 32)) (s.groupAborted m)
  refine ⟨hfailed _ ?_, fun j hj hg => ?_, fun a ha => hbytes a fun j hj => ha j (List.mem_filter.1 hj).1⟩
  · exact congrArg PressGroup.failed (Sparse.get_set_self ({} : PressGroup) s.press.groups (bits m.addr 35 32)
      { s.group (bits m.addr 35 32) with failed := true })
  · obtain ⟨hmem, hne⟩ := hjobs j hj
    exact hne j (List.mem_filter.2 ⟨hmem, beq_iff_eq.2 hg⟩) rfl

section
variable {s : State} {x : Rx} {dst incarn : Nat} (hA : Claims.Arrives s x dst incarn)
include hA

/-- A new abort of the group's generation ends the group's jobs and goes on. -/
theorem exec_abortMsg_of_new {arg addr tag : Nat} (hops src : Nat) (hop : arg % 16 = 2) (hvalid : (s.group (addr / 2 ^ 32 % 16)).valid = true)
    (hgen : (s.group (addr / 2 ^ 32 % 16)).gen = addr % 2 ^ 32)
    (hnew : (addr / 2 ^ 32 % 16, addr % 2 ^ 32, tag % 2 ^ 32, arg / 2 ^ 4 % 2 ^ 16) ∉ s.press.aborts) :
    ∃ v t, s.PortsMoved v ∧ exec (.abortMsg x hops dst src incarn tag addr arg) s = .next t ∧
      (v.jobsAborted (ctlMsg hops dst src incarn tag addr arg [])).Sends t := by
  obtain ⟨v, hv, hf⟩ := ctlIn_of_arrives hA hop hops src tag addr []
  have hgo : ¬((!(v.group (bits (ctlMsg hops dst src incarn tag addr arg []).addr 35 32)).valid ||
      (v.group (bits (ctlMsg hops dst src incarn tag addr arg []).addr 35 32)).gen != (ctlMsg hops dst src incarn tag addr arg []).addr % 2 ^ 32 ||
      v.press.aborts.contains (bits (ctlMsg hops dst src incarn tag addr arg []).addr 35 32, (ctlMsg hops dst src incarn tag addr arg []).addr % 2 ^ 32,
        (ctlMsg hops dst src incarn tag addr arg []).tag, bits (ctlMsg hops dst src incarn tag addr arg []).arg 19 4)) = true) := by
    have hgroup (g : Nat) : v.group g = s.group g := congrArg (fun p : Press => Sparse.get ({} : PressGroup) p.groups g) hv.press
    rw [ctlMsg_group, ctlMsg_gen, ctlMsg_position, hgroup, hvalid, hgen, hv.press, show (ctlMsg hops dst src incarn tag addr arg []).tag = tag % 2 ^ 32 from rfl]
    simpa using hnew
  by_cases hp : (v.group (bits (ctlMsg hops dst src incarn tag addr arg []).addr 35 32)).p = 1
  · exact ⟨v, _, hv, (hf _).trans (congrArg _ ((if_neg hgo).trans (if_pos hp))), .refl _⟩
  · exact ⟨v, _, hv, (hf _).trans (congrArg _ ((if_neg hgo).trans (if_neg hp))), State.pressCtl_sends ..⟩

theorem abortMsg_of_new {arg addr tag : Nat} (hops src : Nat) (hop : arg % 16 = 2) (hvalid : (s.group (addr / 2 ^ 32 % 16)).valid = true)
    (hgen : (s.group (addr / 2 ^ 32 % 16)).gen = addr % 2 ^ 32)
    (hnew : (addr / 2 ^ 32 % 16, addr % 2 ^ 32, tag % 2 ^ 32, arg / 2 ^ 4 % 2 ^ 16) ∉ s.press.aborts) :
    ∃ t, exec (.abortMsg x hops dst src incarn tag addr arg) s = .next t ∧ (t.group (addr / 2 ^ 32 % 16)).failed = true ∧
      (∀ j ∈ t.press.jobs, j.group ≠ addr / 2 ^ 32 % 16) ∧ ∀ a, NoJobAt s a → t.byteAt a = s.byteAt a := by
  obtain ⟨v, t, hv, hexec, hsends⟩ := exec_abortMsg_of_new hA hops src hop hvalid hgen hnew
  obtain ⟨hfailed, hjobs, hbytes⟩ := v.jobsAborted_spec (ctlMsg hops dst src incarn tag addr arg [])
  have hmoved := State.PortsMoved.of_sends hsends
  rw [ctlMsg_group] at hfailed hjobs
  refine ⟨t, hexec, ?_, ?_, fun a ha => ?_⟩
  · rw [State.group, hmoved.press]
    exact hfailed
  · rw [hmoved.press]
    exact hjobs
  · refine (hmoved.byteAt a).trans ((hbytes a ?_).trans (hv.byteAt a))
    rw [NoJobAt, hv.press]
    exact ha

end

/-! ### Returned messages (R437) -/

theorem State.jobs_modJob_single {s : State} {j : PressJob} (h : s.press.jobs = [j]) (f : PressJob → PressJob) : (s.modJob j.cmd f).press.jobs = [f j] := by
  rw [State.modJob, h]
  simp

theorem State.jobs_pressTouch_single {s : State} {j : PressJob} (h : s.press.jobs = [j]) :
    (s.pressTouch j.cmd).press.jobs = [{ j with since := s.periods0 }] := by
  obtain ⟨-, -, -, -, hp⟩ := s.pressTouch_device j.cmd
  rw [hp, h]
  simp

/-- What came back, as the device sends it again: its ARG but in lap 3 tells of the job. -/
def State.returned (s : State) (j : PressJob) (m : Msg) : Msg :=
  s.msgTo m.src 2 m.tag m.addr (if bits m.addr 37 36 = 3 then 0 else (j.nb - 1) % 2 ^ 30 + j.mode * 2 ^ 30 + j.skim * 2 ^ 32) m.body

section
variable {s : State} {x : Rx} {dst incarn : Nat} (hA : Claims.Arrives s x dst incarn)
include hA

theorem exec_returnMsg_of_job {arg addr tag : Nat} {j : PressJob} (hops src : Nat) (body : List Byte) (hop : arg % 16 = 3) (hj : s.press.jobs = [j])
    (ha : j.armed = false) (hg : j.group = addr / 2 ^ 32 % 16) (ht : j.tag = tag % 2 ^ 32) (hgen : j.gen = addr % 2 ^ 32) :
    ∃ v, s.PortsMoved v ∧ exec (.returnMsg x hops dst src incarn tag addr arg body) s = .next ((v.modJob j.cmd (fun j' => { j' with
      returned := j'.returned ++ [v.returned j (ctlMsg hops dst src incarn tag addr arg body)] })).pressTouch j.cmd) := by
  obtain ⟨v, hv, hf⟩ := ctlIn_of_arrives hA hop hops src tag addr body
  have hfind : v.press.jobs.find? (fun j => !j.armed && j.group == bits (ctlMsg hops dst src incarn tag addr arg body).addr 35 32 &&
      j.tag == (ctlMsg hops dst src incarn tag addr arg body).tag && j.gen == (ctlMsg hops dst src incarn tag addr arg body).addr % 2 ^ 32) = some j := by
    rw [hv.press, hj, ctlMsg_group, ctlMsg_gen, List.find?_cons_of_pos]
    simp only [Bool.and_eq_true, Bool.not_eq_true', beq_iff_eq]
    exact ⟨⟨⟨ha, hg⟩, ht⟩, hgen⟩
  refine ⟨v, hv, (hf _).trans (congrArg _ ?_)⟩
  dsimp only
  rw [hfind]
  rfl

theorem returnMsg_of_job {arg addr tag : Nat} {j : PressJob} (hops src : Nat) (body : List Byte) (hop : arg % 16 = 3) (hj : s.press.jobs = [j])
    (ha : j.armed = false) (hg : j.group = addr / 2 ^ 32 % 16) (ht : j.tag = tag % 2 ^ 32) (hgen : j.gen = addr % 2 ^ 32) :
    ∃ t j' m, exec (.returnMsg x hops dst src incarn tag addr arg body) s = .next t ∧ t.press.jobs = [j'] ∧ j'.returned = j.returned ++ [m] ∧
      m.dst = src % 2 ^ 14 ∧ m.tag = j.tag ∧ m.addr = addr % 2 ^ 64 ∧ m.body = markAll false body ∧ ∀ a, t.byteAt a = s.byteAt a := by
  obtain ⟨v, hv, hexec⟩ := exec_returnMsg_of_job hA hops src body hop hj ha hg ht hgen
  obtain ⟨m, hm⟩ : ∃ m, m = v.returned j (ctlMsg hops dst src incarn tag addr arg body) := ⟨_, rfl⟩
  rw [← hm] at hexec
  have hjobs := State.jobs_modJob_single ((congrArg Press.jobs hv.press).trans hj) (fun j' => { j' with returned := j'.returned ++ [m] })
  refine ⟨_, _, m, hexec, State.jobs_pressTouch_single (j := { j with returned := j.returned ++ [m] }) hjobs, rfl, ?_, ?_, ?_, ?_, hv.byteAt⟩
  · rw [hm]; rfl
  · rw [hm, ht]; rfl
  · rw [hm]; rfl
  · rw [hm]; rfl

end

/-! ### A child's block enters its tree (R443) -/

/-- A tree after a child's block has been added to it, saturating; neither is marked by a SCALE of 0xFF. -/
def SkimAcc.withChild (y : SkimAcc) (r : PressRec) : SkimAcc :=
  { y with left := y.left - 1, words := y.words.zipWith (fun a b => Claims.int32 (a.toInt + b.toInt)) r.words }

/-- The job with a tree in the place of the one of its block. -/
def PressJob.putSkim (j : PressJob) (a : SkimAcc) : PressJob := { j with skims := j.skims.filter (fun b => b.block != a.block) ++ [a] }

theorem PressJob.find_putSkim (j : PressJob) (a : SkimAcc) : (j.putSkim a).skims.find? (fun b => b.block == a.block) = some a := by
  have hnone : (j.skims.filter (fun b => b.block != a.block)).find? (fun b => b.block == a.block) = none :=
    List.find?_eq_none.2 fun b hb => by simpa using (List.mem_filter.1 hb).2
  rw [PressJob.putSkim, List.find?_append, hnone]
  simp

theorem State.jobs_skimChild {s : State} {j : PressJob} {y : SkimAcc} {r : PressRec} (hj : s.press.jobs = [j])
    (hy : j.skims.find? (fun a => a.block == r.block) = some y) (hw : y.words ≠ []) (hs : y.scale ≠ 255) (hr : r.scale ≠ 255) :
    (s.skimChild j.cmd r).press.jobs = [j.putSkim (y.withChild r)] := by
  have hblock : y.block = r.block := eq_of_beq (List.find?_some (p := fun a : SkimAcc => a.block == r.block) hy)
  refine (State.jobs_modJob_single hj _).trans (congrArg (fun j => [j]) ?_)
  dsimp only
  rw [hy]
  simp only [Option.getD_some, beq_false_of_ne hs, beq_false_of_ne hr, Bool.or_false, Bool.false_eq_true, if_false, List.isEmpty_eq_false_iff.2 hw]
  rw [PressJob.putSkim, show (y.withChild r).block = r.block from hblock]
  rfl

/-- A tree that waits for more children stays. -/
theorem State.skimTry_of_waiting {s : State} {j : PressJob} {b : Nat} {a : SkimAcc} (hj : s.press.jobs = [j])
    (ha : j.skims.find? (fun a => a.block == b) = some a) (hl : a.left ≠ 0) : s.skimTry j.cmd b = s := by
  unfold State.skimTry
  rw [hj, List.singleton_append, List.find?_cons_of_pos (by simp)]
  dsimp only
  rw [ha]
  exact if_pos (by simp [hl])

section
variable {s : State} {x : Rx} {dst incarn : Nat} (hA : Claims.Arrives s x dst incarn) {arg addr tag : Nat} {j : PressJob} (hops src : Nat)
  (body : List Byte) (hop : arg % 16 = 4) (hj : s.press.jobs = [j]) (ho : s.press.old = []) (ha : j.armed = false)
  (hg : j.group = addr / 2 ^ 32 % 16) (ht : j.tag = tag % 2 ^ 32) (hgen : j.gen = addr % 2 ^ 32) (hsamp : j.sampled (arg / 2 ^ 4 % 2 ^ 30) = true)
  (hb : arg / 2 ^ 4 % 2 ^ 30 < j.nb) (hc : j.chunk (arg / 2 ^ 4 % 2 ^ 30) = addr / 2 ^ 38 % 2 ^ 15)
include hA hop hj ho ha hg ht hgen hsamp hb hc

theorem exec_skimMsg_of_job : ∃ v, s.PortsMoved v ∧ exec (.skimMsg x hops dst src incarn tag addr arg body) s =
    .next ((((v.pressTouch j.cmd).skimChild j.cmd (recOf (arg / 2 ^ 4 % 2 ^ 30) false body)).skimTry j.cmd (arg / 2 ^ 4 % 2 ^ 30)).skimSweep) := by
  obtain ⟨v, hv, hf⟩ := ctlIn_of_arrives hA hop hops src tag addr body
  have hfind : (v.press.jobs ++ v.press.old).find? (fun j => !j.armed && j.group == bits (ctlMsg hops dst src incarn tag addr arg body).addr 35 32 &&
      j.tag == (ctlMsg hops dst src incarn tag addr arg body).tag) = some j := by
    rw [hv.press, hj, ho, ctlMsg_group, List.append_nil, List.find?_cons_of_pos]
    simp only [Bool.and_eq_true, Bool.not_eq_true', beq_iff_eq]
    exact ⟨⟨ha, hg⟩, ht⟩
  refine ⟨v, hv, (hf _).trans (congrArg _ ?_)⟩
  dsimp only
  rw [hfind]
  dsimp only
  rw [ctlMsg_gen, ctlMsg_block, ctlMsg_chunk, if_neg (not_not.2 hgen.symm)]
  exact if_neg (by rw [hsamp, hc, decide_eq_false (Nat.not_le.2 hb)]; simp)

theorem skimMsg_of_child {y : SkimAcc} (hy : j.skims.find? (fun a => a.block == arg / 2 ^ 4 % 2 ^ 30) = some y) (hleft : 2 ≤ y.left) (hw : y.words ≠ [])
    (hs : y.scale ≠ 255) (hr : leAt body 256 1 ≠ 255) :
    ∃ t j' z, exec (.skimMsg x hops dst src incarn tag addr arg body) s = .next t ∧ t.press.jobs = [j'] ∧
      j'.skims.find? (fun a => a.block == arg / 2 ^ 4 % 2 ^ 30) = some z ∧ z.left = y.left - 1 ∧ z.scale = y.scale ∧ z.headroom = y.headroom ∧
      z.words = y.words.zipWith (fun a b => Claims.int32 (a.toInt + b.toInt)) (recOf (arg / 2 ^ 4 % 2 ^ 30) false body).words ∧
      ∀ a, t.byteAt a = s.byteAt a := by
  obtain ⟨v, hv, hexec⟩ := exec_skimMsg_of_job hA hops src body hop hj ho ha hg ht hgen hsamp hb hc
  generalize arg / 2 ^ 4 % 2 ^ 30 = b at hy hexec ⊢
  obtain ⟨w, hw'⟩ : ∃ w, w = v.pressTouch j.cmd := ⟨_, rfl⟩
  obtain ⟨j', hj'⟩ : ∃ j', j' = ({ j with since := v.periods0 } : PressJob).putSkim (y.withChild (recOf b false body)) := ⟨_, rfl⟩
  have hwjobs : w.press.jobs = [{ j with since := v.periods0 }] := by
    rw [hw']
    exact State.jobs_pressTouch_single ((congrArg Press.jobs hv.press).trans hj)
  have hwmem : w.mem = s.mem := by
    rw [hw', ← hv.mem]
    rfl
  have hchild : (w.skimChild j.cmd (recOf b false body)).press.jobs = [j'] := by
    rw [hj']
    exact State.jobs_skimChild (j := { j with since := v.periods0 }) hwjobs hy hw hs hr
  have hblock : y.block = b := eq_of_beq (List.find?_some (p := fun a : SkimAcc => a.block == b) hy)
  have hz : j'.skims.find? (fun a => a.block == b) = some (y.withChild (recOf b false body)) := by
    have h := PressJob.find_putSkim { j with since := v.periods0 } (y.withChild (recOf b false body))
    rw [← hj'] at h
    rwa [show (y.withChild (recOf b false body)).block = b from hblock] at h
  have hcmd : j'.cmd = j.cmd := by rw [hj']; rfl
  have htry := State.skimTry_of_waiting hchild hz (show y.left - 1 ≠ 0 by omega)
  rw [hcmd] at htry
  rw [← hw', htry] at hexec
  exact ⟨_, j', _, hexec, hchild, hz, rfl, rfl, rfl, rfl, fun a => State.byteAt_congr hwmem a⟩

end

theorem pressControlActs : Claims.PressControlActs :=
  ⟨fun _ hops _ src _ tag addr _ _ hA hop hw => grantMsg_of_idle hA hops src tag addr hop hw,
    fun _ hops _ src _ _ _ _ _ hA hop => fun hvalid hgen hnew => abortMsg_of_new hA hops src hop hvalid hgen hnew,
    fun _ hops _ src _ _ _ _ body _ _ hA hop hj ha hg ht hgen => returnMsg_of_job hA hops src body hop hj ha hg ht hgen,
    fun _ hops _ src _ _ _ _ body _ _ _ hA hop => fun hj ho ha hg ht hgen hs hb hc hy hl hw hsc hr =>
      skimMsg_of_child hA hops src body hop hj ho ha hg ht hgen hs hb hc hy hl hw hsc hr⟩

end Sys2Proof.Machine
end

section
/-! PROOFS. Ends of Press jobs, armed jobs (14 R437, R441, R446 to R449; 10 R324, R325). -/

namespace Sys2Proof.Machine

/-! ### A returned message is sent again (R437) -/

/-- A job changed under its own command and as armed as before is that command's job still. -/
theorem State.pressJob_modJob {s : State} {cmd : Nat} {j : PressJob} (hj : s.pressJob cmd = some j) {f : PressJob → PressJob}
    (hf : ∀ y, (f y).cmd = y.cmd ∧ (f y).armed = y.armed) : (s.modJob cmd f).pressJob cmd = some (f j) := by
  have hcomp : (fun j : PressJob => j.cmd == cmd && !j.armed) ∘ (fun j => if j.cmd = cmd then f j else j) = fun j => j.cmd == cmd && !j.armed := by
    funext y
    dsimp only [Function.comp]
    split
    · rw [(hf y).1, (hf y).2]
    · rfl
  rw [State.pressJob] at hj
  rw [State.pressJob, State.modJob, List.find?_map, hcomp, hj, Option.map_some, if_pos]
  exact (State.mem_of_pressJob (s := s) hj).2.1

section
variable {cmd : Nat} {s : State} {j : PressJob} (hl : s.clk.lost = false) (hj : s.pressJob cmd = some j)
include hl hj

theorem exec_pressResend_of_returned {m : Msg} {rest : List Msg} (hm : j.returned = m :: rest) :
    exec (.pressResend cmd) s = .next ((s.modJob cmd (fun j => { j with returned := rest })).pressPut cmd m) := by
  refine (live_of s _ hl).trans (congrArg _ ?_)
  rw [hj]
  dsimp only
  rw [hm]

theorem pressResend_of_reachable {m : Msg} {rest : List Msg} (hm : j.returned = m :: rest) (hr : s.peerPorts m.dst ≠ [])
    (hg : Sparse.get 0 s.press.grants m.dst = 0) : ∃ t j' fl, exec (.pressResend cmd) s = .next t ∧
      t.press.waiting = s.press.waiting ++ [(m.dst, fl, m)] ∧ t.pressJob cmd = some j' ∧ j'.returned = rest ∧ ∀ a, t.byteAt a = s.byteAt a := by
  have hjob := State.pressJob_modJob hj (f := fun j => { j with returned := rest }) fun _ => ⟨rfl, rfl⟩
  refine ⟨_, { j with returned := rest }, _, (exec_pressResend_of_returned hl hj hm).trans (congrArg _ (State.pressPut_of_ungranted hjob hr hg)),
    rfl, hjob, rfl, fun _ => rfl⟩

theorem pressResend_of_unreachable {m : Msg} {rest : List Msg} (hm : j.returned = m :: rest) (hr : s.peerPorts m.dst = []) :
    ∃ t, exec (.pressResend cmd) s = .next t ∧ t.pressJob cmd = none ∧ (t.group j.group).failed = true := by
  obtain ⟨w, hw⟩ : ∃ w, w = s.modJob cmd (fun j => { j with returned := rest }) := ⟨_, rfl⟩
  have hjob : w.pressJob cmd = some { j with returned := rest } := by
    rw [hw]
    exact State.pressJob_modJob hj fun _ => ⟨rfl, rfl⟩
  have hput : w.pressPut cmd m = w.pressFail cmd 2 := by
    have hport : (w.portFor (bits m.addr 52 38) m.dst).isNone = true := by
      rw [State.portFor, show w.peerPorts m.dst = [] by rw [hw]; exact hr]
      rfl
    unfold State.pressPut
    rw [hjob, if_pos hport]
    rfl
  obtain ⟨hgone, hfailed, -⟩ := State.pressFail_spec hjob 2
  exact ⟨_, (exec_pressResend_of_returned hl hj hm).trans (congrArg _ (hw ▸ hput)), hgone, hfailed⟩

/-! ### A silent job (R446, R448) -/

theorem exec_pressTimeout_of_early (ht : s.periods0 < j.since + 2 ^ s.press.tmoExp) : exec (.pressTimeout cmd) s = .next s := by
  refine (live_of s _ hl).trans (congrArg _ ?_)
  rw [hj]
  refine if_neg ?_
  rw [decide_eq_false (by omega), Bool.and_false]
  decide

omit hl in
theorem State.mayPass_of_silentJob (ht : j.since + 2 ^ s.press.tmoExp ≤ s.periods0) : s.mayPass = false := by
  obtain ⟨hmem, -, ha⟩ := State.mem_of_pressJob hj
  have hany : s.press.jobs.any (fun j => !j.armed && decide (j.since + 2 ^ s.press.tmoExp ≤ s.periods0)) = true :=
    List.any_eq_true.2 ⟨j, hmem, by rw [ha, decide_eq_true ht]; rfl⟩
  exact State.mayPass_of_momentDue (by simp [State.momentDue, hany])

theorem pressTimeout_of_silent (ht : j.since + 2 ^ s.press.tmoExp ≤ s.periods0) :
    ∃ t, exec (.pressTimeout cmd) s = .next t ∧ t.pressJob cmd = none ∧ (t.group j.group).failed = true ∧ bitOf t.press.err 3 = true ∧
      (∀ a, a < j.dst ∨ j.dst + j.nb * lineBytes j.dstFmt ≤ a → t.byteAt a = s.byteAt a) ∧
      ∀ b ∈ j.done, ∀ i, i < lineBytes j.dstFmt → t.byteAt (j.dst + b * lineBytes j.dstFmt + i) = s.byteAt (j.dst + b * lineBytes j.dstFmt + i) := by
  obtain ⟨-, -, ha⟩ := State.mem_of_pressJob hj
  obtain ⟨hgone, hfailed, herr⟩ := State.pressFail_spec hj 5
  have hmem := State.pressFail_mem hj 5
  refine ⟨s.pressFail cmd 5, (live_of s _ hl).trans (congrArg _ ?_), hgone, hfailed, herr rfl, fun a h => ?_, fun b hb i hi => ?_⟩
  · rw [hj]
    exact if_pos (by rw [ha, decide_eq_true ht]; rfl)
  · exact (State.byteAt_congr hmem a).trans (State.byteAt_pressUndefined_of_outside h)
  · exact (State.byteAt_congr hmem _).trans (State.byteAt_pressUndefined_of_done hb hi)

/-! ### A finished job (R441, R449) -/

theorem exec_pressJobComplete_of_unfinished
    (h : j.written ≠ j.nb ∨ j.outst ≠ 0 ∨ j.compare ≠ 0 ∨ s.epoch ≤ j.doneAt ∨ s.sigStopped j.sig = true) : exec (.pressJobComplete cmd) s = .next s := by
  refine (live_of s _ hl).trans (congrArg _ ?_)
  rw [hj]
  refine if_pos ?_
  obtain h | h | h | h | h := h
  · exact .inl h
  · exact .inr (.inl h)
  · exact .inr (.inr (.inr (.inl h)))
  · exact .inr (.inr (.inl h))
  · exact .inr (.inr (.inr (.inr h)))

end

/-- The state without a finished job, which is kept for its part in a tree (R443). -/
def State.jobFinished (s : State) (j : PressJob) : State :=
  { s with press := { s.press with
    jobs := s.press.jobs.filter (fun x => x.cmd != j.cmd)
    old := if j.skims.isEmpty then s.press.old else s.press.old ++ [j] } }

/-- The finished job's signal, where it makes one (R441, R450). -/
def State.jobSignalled (s : State) (j : PressJob) : State := match j.sig with
  | some (glob, c, idx, amount) => if j.dropSignal then s else s.signalSem glob c idx amount
  | none => s

theorem State.waitsMet_press (s : State) : s.waitsMet.press = s.press := (congrArg State.press s.waitsMet_unrecorded :)

theorem State.waitsMet_gsems (s : State) : s.waitsMet.gsems = s.gsems := congrArg State.Data.gsems s.waitsMet_data

/-- A signal is one change of a semaphore. -/
theorem State.signalSem_spec (s : State) (glob : Bool) (c idx amount : Nat) : (s.signalSem glob c idx amount).press = s.press ∧
    (s.signalSem glob c idx amount).mem = s.mem ∧
    (glob = true → (s.signalSem glob c idx amount).gsems = (s.gsemChange idx (amount : Int)).gsems) := by
  refine ⟨?_, State.signalSem_mem .., fun hg => ?_⟩
  · unfold State.signalSem
    split
    · rfl
    · split
      · rw [State.waitsMet_press, State.gsemChange_eq]
      · exact State.waitsMet_press _
  · unfold State.signalSem
    rw [if_pos hg]
    split
    next h0 => rw [h0, Int.natCast_zero, State.gsemChange_zero]
    next => exact State.waitsMet_gsems _

theorem State.jobSignalled_spec (s : State) (j : PressJob) : (s.jobSignalled j).press = s.press ∧ (s.jobSignalled j).mem = s.mem := by
  unfold State.jobSignalled
  split
  next glob c idx amount _ =>
    split
    · exact ⟨rfl, rfl⟩
    · obtain ⟨hpress, hmem, -⟩ := s.signalSem_spec glob c idx amount
      exact ⟨hpress, hmem⟩
  next => exact ⟨rfl, rfl⟩

theorem State.gsems_jobSignalled_of_silent (s : State) {j : PressJob} (h : j.sig = none ∨ j.dropSignal = true) : (s.jobSignalled j).gsems = s.gsems := by
  unfold State.jobSignalled
  split
  next hs =>
    obtain h | h := h
    · rw [h] at hs
      cases hs
    · rw [if_pos h]
  next => rfl

theorem State.get_gsems_jobSignalled {s : State} {j : PressJob} {c i v : Nat} (hs : j.sig = some (true, c, i, v)) (hd : j.dropSignal = false)
    (hlt : Sparse.get 0 s.gsems i < 2 ^ 32) (hnet : netOf s.gsemNet i = none) :
    Sparse.get 0 (s.jobSignalled j).gsems i = min (Sparse.get 0 s.gsems i + v) (2 ^ 32 - 1) := by
  obtain ⟨-, -, hg⟩ := s.signalSem_spec true c i v
  have hsig : s.jobSignalled j = s.signalSem true c i v := by
    rw [State.jobSignalled, hs]
    exact if_neg (ne_true_of_eq_false hd)
  rw [hsig, hg rfl]
  exact State.get_gsems_gsemChange_signedBy hnet hlt false v

theorem pressJobComplete_of_finished {cmd : Nat} {s : State} {j : PressJob} (hl : s.clk.lost = false) (hj : s.pressJob cmd = some j)
    (hw : j.written = j.nb) (ho : j.outst = 0) (hc : j.compare = 0) (hd : j.doneAt < s.epoch) (hs : s.sigStopped j.sig = false) :
    ∃ t : State, exec (.pressJobComplete cmd) s = .next (t.complete cmd
        ((if j.poison then [5] else []) ++ (if j.mism ≠ 0 then [0x52] else [])) (j.detail 0 0 false)) ∧ t.pressJob cmd = none ∧
      Sparse.get 0 t.press.cnt 0 = min (Sparse.get 0 s.press.cnt 0 + 1) (2 ^ 64 - 1) ∧ (j.sig = none ∨ j.dropSignal = true → t.gsems = s.gsems) ∧
      (∀ c i v, j.sig = some (true, c, i, v) → j.dropSignal = false → Sparse.get 0 s.gsems i < 2 ^ 32 → netOf s.gsemNet i = none →
        Sparse.get 0 t.gsems i = min (Sparse.get 0 s.gsems i + v) (2 ^ 32 - 1)) ∧ ∀ a, t.byteAt a = s.byteAt a := by
  obtain ⟨-, hcmd, -⟩ := State.mem_of_pressJob hj
  obtain ⟨hpress, hmem⟩ := (s.jobFinished j).jobSignalled_spec j
  have hexec : exec (.pressJobComplete cmd) s = .next ((((s.jobFinished j).jobSignalled j).pressCount 0 1).complete cmd
      ((if j.poison then [5] else []) ++ (if j.mism ≠ 0 then [0x52] else [])) (j.detail 0 0 false)) := by
    refine (live_of s _ hl).trans (congrArg _ ?_)
    rw [hj, ← hcmd]
    exact if_neg (by simp [hw, ho, hc, hs, hd])
  refine ⟨_, hexec, ?_, ?_, fun h => State.gsems_jobSignalled_of_silent _ h, fun c i v h1 h2 h3 h4 => State.get_gsems_jobSignalled h1 h2 h3 h4,
    fun a => State.byteAt_congr hmem a⟩
  · refine List.find?_eq_none.2 fun y hy => ?_
    rw [show ((((s.jobFinished j).jobSignalled j).pressCount 0 1).press.jobs) = s.press.jobs.filter (fun x => x.cmd != j.cmd) from
      congrArg Press.jobs hpress, List.mem_filter, bne_iff_ne, hcmd] at hy
    simp [hy.2]
  · refine (Sparse.get_set_self ..).trans ?_
    rw [hpress]
    rfl

/-! ### Armed jobs (R324, R325) -/

theorem exec_triggerFire_of_below {s : State} (hl : s.clk.lost = false) (h : ∀ j ∈ s.press.jobs, j.armed = true → Sparse.get 0 s.gsems j.trigSem < j.thresh) :
    exec .triggerFire s = .next s := by
  refine (live_of s _ hl).trans (congrArg _ ?_)
  split
  · rfl
  · refine List.foldlRecOn (motive := fun t : State => t = s) _ _ rfl fun t ht j hj => ?_
    obtain ⟨hmem, harmed⟩ := List.mem_filter.1 hj
    rw [ht]
    refine if_neg ?_
    rw [decide_eq_false (by have := h j hmem harmed; omega), Bool.and_false]
    decide

theorem exec_triggerFire_of_stopped {s : State} (hl : s.clk.lost = false) (h : s.semStopped 255 = true) : exec .triggerFire s = .next s :=
  (live_of s _ hl).trans (congrArg _ (if_pos (by rw [h, Bool.or_true])))

theorem exec_triggerFire_of_reached {s : State} {j : PressJob} (hl : s.clk.lost = false) (hre : s.replacing = none) (hs : s.semStopped 255 = false)
    (hj : s.press.jobs = [j]) (ha : j.armed = true) (ht : j.thresh ≤ Sparse.get 0 s.gsems j.trigSem) :
    exec .triggerFire s = .next ((if j.consume then s.gsemConsume j.trigSem j.thresh else s).pressStart j.cmd) := by
  refine (live_of s _ hl).trans (congrArg _ ((if_neg (by rw [hre, hs]; decide)).trans ?_))
  rw [hj, List.filter_cons_of_pos (by simpa using ha), List.filter_nil, List.foldl_cons, List.foldl_nil]
  refine if_pos ?_
  rw [hj, decide_eq_true ht]
  simp [ha]

/-- What a trigger consumes comes off its semaphore. -/
theorem State.get_gsems_gsemConsume {s : State} {i : Nat} (n : Nat) (hlt : Sparse.get 0 s.gsems i < 2 ^ 32) :
    Sparse.get 0 (s.gsemConsume i n).gsems i = Sparse.get 0 s.gsems i - n :=
  State.get_gsems_gsemChange_signedBy (s := { s with gsemNet := [] }) rfl hlt true n

theorem pressJobsFinish : Claims.PressJobsFinish :=
  ⟨fun _ _ _ hl hj => ⟨fun _ _ hm hr hg => pressResend_of_reachable hl hj hm hr hg, fun _ _ hm hr => pressResend_of_unreachable hl hj hm hr,
      exec_pressTimeout_of_early hl hj, fun ht => ⟨State.mayPass_of_silentJob hj ht, pressTimeout_of_silent hl hj ht⟩,
      pressJobComplete_of_finished hl hj, exec_pressJobComplete_of_unfinished hl hj⟩,
    fun _ hl hre => ⟨exec_triggerFire_of_below hl, exec_triggerFire_of_stopped hl, fun j hs hj ha ht =>
      ⟨exec_triggerFire_of_reached hl hre hs hj ha ht, fun _ _ hlt => State.get_gsems_gsemConsume j.thresh hlt⟩⟩⟩

/-- Settles O52: control messages act on the one job that they name, a job ends by `pressFail` or with its record, an armed one starts by
`pressStart` once its semaphore has reached its threshold. -/
theorem pressJobsEnd : Obligations.PressJobsEnd := ⟨pressControlActs, pressJobsFinish⟩

end Sys2Proof.Machine
end
